-- ==== Sys2Proof/Word.lean ====
section
/-! DEFINITION. The machine's word types: the plainest names of the widths the spec gives
(00_scope.md R11, R12), the sparse table type and the byte-memory type of the state. -/

namespace Sys2Proof

/-- A byte of any store. -/
abbrev Byte := BitVec 8
/-- A 32-bit register or field. -/
abbrev W32 := BitVec 32
/-- A 64-bit register, address or value (00_scope.md R11). -/
abbrev W64 := BitVec 64
/-- A 512-bit vector register of a sort (03_sort.md R90). -/
abbrev W512 := BitVec 512

/-- A sparse family of like things by number (entries, slots, queues): pairs in strictly rising
key order.  An absent key means that the thing does not exist or has its rest value. -/
abbrev Tab (α : Type) := List (Nat × α)

/-- Bytes of a store by address, addresses strictly rising, no entry that holds 0: an unlisted
address reads as 0. -/
abbrev Mem := List (Nat × BitVec 8)

end Sys2Proof
end

