-- ==== Sys2Proof/Syntax.lean ====
section
/-! DEFINITION. The commands of the block: operand types and the one inductive `Instr`. -/

namespace Sys2Proof

/-- A core of a galley: the sort of a sliver, or the compositor pair (none). -/
structure CoreId where
  galley : Nat
  sliver : Option Nat
  deriving DecidableEq, Repr

abbrev Reg := BitVec 5

inductive AluOp | add | sub | and | or | xor | shl | shr | sar
  deriving DecidableEq, Repr
inductive MulOp | mul | mulhu | mulhs
  deriving DecidableEq, Repr
inductive DivOp | divu | remu | divs | rems
  deriving DecidableEq, Repr
inductive CmpOp | slt | sltu | min | max | minu | maxu
  deriving DecidableEq, Repr
inductive CountOp | popc | clz
  deriving DecidableEq, Repr
inductive ImmOp | addi | andi | ori | xori | shli | shri | sari | slti
  deriving DecidableEq, Repr
inductive BrOp | beq | bne | blt | bge | bltu | bgeu
  deriving DecidableEq, Repr
inductive LoadOp | lb | lh | lw | ld | lbu | lhu | lwu
  deriving DecidableEq, Repr
inductive StoreOp | sb | sh | sw | sd
  deriving DecidableEq, Repr
inductive VFpOp | vadd | vsub | vmul | vdiv
  deriving DecidableEq, Repr
inductive VMinMax | vmin | vmax
  deriving DecidableEq, Repr
inductive VSignOp | vabs | vneg
  deriving DecidableEq, Repr
inductive VCmpOp | vcmpeq | vcmplt | vcmple | vcmpne
  deriving DecidableEq, Repr
inductive VIntOp | viadd | visub | vimul
  deriving DecidableEq, Repr
inductive VLogicOp | vand | vor | vxor
  deriving DecidableEq, Repr
inductive VShiftOp | vshl | vshr | vsar
  deriving DecidableEq, Repr
inductive VIMinMax | vimin | vimax
  deriving DecidableEq, Repr

/-- Where the results of a lookup entry go: a sliver's ticket with its list generation (R215), or a
remote gather in execution (13_network.md R456). -/
inductive LkSrc
  | sliver (galley sliver ticket gen : Nat)
  | gather (id : Nat)
  deriving DecidableEq, Repr

/-- Who sends a management message: an open session, or the host mailbox (16_dictionary.md R567). -/
inductive Requester
  | session (n : Nat)
  | mailbox
  deriving DecidableEq, Repr

/-- Rails with a supply monitor (17_boundary.md Table 17-8). -/
inductive Rail
  | sort (f : Nat)
  | fab
  | memc
  | aon
  deriving DecidableEq, Repr

/-- How the flash device ends an operation of the flash port (17_boundary.md Table 17-19). -/
inductive FlashEnd
  | good
  | device
  | mismatch
  deriving DecidableEq, Repr

/-- What a write of a function's configuration space changes, where the capability's standard has the field and the spec
uses it (12_host_port.md Table 12-1): the power state, MSI-X Message Control, the completion timeout in ticks, the
commit of the HDM decoder. -/
inductive CfgReg
  | powerState
  | msixControl
  | completionTimeout
  | hdmCommit
  deriving DecidableEq, Repr

/-- Where a register write goes: BAR0 or the configuration space of a function, the protection set-up, the flash port. -/
inductive RegSpace
  | bar0 (fn : Nat)
  | config (fn : Nat) (r : CfgReg)
  | prot
  | flash
  deriving DecidableEq, Repr

/-- Where a record comes from (Table 07-4): a command of a queue, an update ring of a context, or a
TABLE_UPDATE message of a connection. -/
inductive UpdSrc
  | cmd (queue no : Nat)
  | ring (ctx ring : Nat)
  | net (conn seq : Nat)
  deriving DecidableEq, Repr

/-- Who waits for a host read: the fetch of a queue's ring, the command at the front of a queue, a galley move. -/
inductive HostReader
  | fetch (q : Nat)
  | command (q : Nat)
  | move (g tag : Nat)
  deriving DecidableEq, Repr

/-- What missed its bound: a context teardown with a transaction left in a galley, a platen or a central unit; a
galley reset; a forme reset; a start of the block. -/
inductive Late
  | inGalley (c g : Nat)
  | inPlaten (c f : Nat)
  | inCentral (c : Nat)
  | galley (g : Nat)
  | forme (f : Nat)
  | start
  deriving DecidableEq, Repr

/-- Units whose own state can fault. -/
inductive FaultUnit
  | galley (g : Nat)
  | stick (g j : Nat)
  | platen (f : Nat)
  | controller (f : Nat)
  | hostPort
  | control (unitType : Nat)
  | other (unitType : Nat)
  deriving DecidableEq, Repr

/-- The commands: one constructor for each row of the opcode table, in its order. -/
inductive Instr
  /-- `ADD_SUB_AND_OR_XOR_SHL_SHR_SAR` (R101): A sort or compositor executes a scalar register ALU operation that
  wraps modulo 2^64. -/
  | alu (c : CoreId) (op : AluOp) (rd rs rt : Reg)
  /-- `MUL_MULHU_MULHS` (R101): A sort or compositor executes a scalar multiply and keeps the low or high 64 bits. -/
  | mul (c : CoreId) (op : MulOp) (rd rs rt : Reg)
  /-- `DIVU_REMU_DIVS_REMS` (R102): A sort or compositor executes a scalar divide or remainder that never traps. -/
  | div (c : CoreId) (op : DivOp) (rd rs rt : Reg)
  /-- `SLT_SLTU_MIN_MAX_MINU_MAXU` (R101): A sort or compositor executes a scalar compare, minimum or maximum. -/
  | cmp (c : CoreId) (op : CmpOp) (rd rs rt : Reg)
  /-- `POPC_CLZ` (R101): A sort or compositor executes a population count or a leading-zero count. -/
  | count (c : CoreId) (op : CountOp) (rd rs rt : Reg)
  /-- `ADDI_ANDI_ORI_XORI_SHLI_SHRI_SARI_SLTI` (R101): A sort or compositor executes a scalar ALU operation with a
  12-bit immediate. -/
  | aluImm (c : CoreId) (op : ImmOp) (rd rs : Reg) (imm : BitVec 12)
  /-- `LUI` (R101): A sort or compositor loads a sign-extended 20-bit upper immediate. -/
  | lui (c : CoreId) (rd : Reg) (imm : BitVec 20)
  /-- `BEQ_BNE_BLT_BGE_BLTU_BGEU` (R103): A sort or compositor executes a conditional branch, with the PC range
  checked. -/
  | branch (c : CoreId) (op : BrOp) (rs rt : Reg) (off : BitVec 12)
  /-- `JAL` (R101): A sort or compositor jumps by an offset and links the return address. -/
  | jal (c : CoreId) (rd : Reg) (off : BitVec 20)
  /-- `JALR` (R101): A sort or compositor jumps to a register address and links the return address. -/
  | jalr (c : CoreId) (rd rs : Reg) (imm : BitVec 12)
  /-- `LB_LH_LW_LD_LBU_LHU_LWU` (R94): A sort or compositor loads 1 to 8 bytes, with alignment, range and interlocks
  checked. -/
  | load (c : CoreId) (op : LoadOp) (rd rs : Reg) (imm : BitVec 12)
  /-- `SB_SH_SW_SD` (R95): A sort or compositor stores 1 to 8 bytes, subject to the case interlocks. -/
  | store (c : CoreId) (op : StoreOp) (rs rt : Reg) (imm : BitVec 12)
  /-- `VLD` (R93): A sort loads 64 bytes of its data case into a vector register. -/
  | vld (g sl : Nat) (vd rs : Reg) (imm : BitVec 12)
  /-- `VLDB` (R93): A sort broadcasts 4 bytes of its data case into every 32-bit lane of a vector register. -/
  | vldb (g sl : Nat) (vd rs : Reg) (imm : BitVec 12)
  /-- `VST` (R95): A sort stores a vector register to 64 bytes of its data case. -/
  | vst (g sl : Nat) (vt rs : Reg) (imm : BitVec 12)
  /-- `TLD` (R110): A sort loads a 256-byte accumulator tile from its data case. -/
  | tld (g sl : Nat) (rd rs : Reg) (imm : BitVec 12)
  /-- `TST` (R110): A sort stores an accumulator tile to its data case, after the matrix-unit interlock. -/
  | tst (g sl : Nat) (rd rs : Reg) (imm : BitVec 12)
  /-- `TZERO` (R110): A sort clears an accumulator tile. -/
  | tzero (g sl : Nat) (rd rs : Reg) (imm : BitVec 12)
  /-- `TRV` (R104): A sort reads two rows of an accumulator tile into a vector register. -/
  | trv (g sl : Nat) (vd rs : Reg) (imm : BitVec 12)
  /-- `TWV` (R110): A sort writes a vector register into two rows of an accumulator tile. -/
  | twv (g sl : Nat) (rd vs : Reg) (imm : BitVec 12)
  /-- `VADD_VSUB_VMUL_VDIV` (R105): A sort executes a lane-wise floating-point add, subtract, multiply or divide with
  one rounding. -/
  | vArith (g sl : Nat) (op : VFpOp) (ty : BitVec 2) (rm : BitVec 3) (vd va vb : Reg)
  /-- `VSQRT` (R105): A sort executes a lane-wise floating-point square root. -/
  | vsqrt (g sl : Nat) (ty : BitVec 2) (rm : BitVec 3) (vd va vb : Reg)
  /-- `VMIN_VMAX` (R70): A sort executes a lane-wise floating-point minimum or maximum. -/
  | vMinMax (g sl : Nat) (op : VMinMax) (ty : BitVec 2) (rm : BitVec 3) (vd va vb : Reg)
  /-- `VABS_VNEG` (R105): A sort executes an exact lane-wise sign change. -/
  | vSign (g sl : Nat) (op : VSignOp) (ty : BitVec 2) (rm : BitVec 3) (vd va vb : Reg)
  /-- `VCMPEQ_VCMPLT_VCMPLE_VCMPNE` (R105): A sort executes a lane-wise floating-point compare that yields a mask. -/
  | vCmp (g sl : Nat) (op : VCmpOp) (ty : BitVec 2) (rm : BitVec 3) (vd va vb : Reg)
  /-- `VHSUM` (R105): A sort sums all lanes exactly and rounds the sum once into lane 0. -/
  | vhsum (g sl : Nat) (ty : BitVec 2) (rm : BitVec 3) (vd va : Reg)
  /-- `VHMAX` (R105): A sort writes the largest lane of a vector into lane 0. -/
  | vhmax (g sl : Nat) (ty : BitVec 2) (rm : BitVec 3) (vd va : Reg)
  /-- `VFMA` (R105): A sort executes a fused multiply-add with one rounding. -/
  | vfma (g sl : Nat) (ty : BitVec 2) (rm : BitVec 3) (vd va vb vc : Reg)
  /-- `VFNMA` (R105): A sort executes a negated fused multiply-add with one rounding. -/
  | vfnma (g sl : Nat) (ty : BitVec 2) (rm : BitVec 3) (vd va vb vc : Reg)
  /-- `VIADD_VISUB_VIMUL` (R106): A sort executes lane-wise wrapping integer arithmetic. -/
  | vInt (g sl : Nat) (op : VIntOp) (ty : BitVec 2) (vd va vb : Reg)
  /-- `VAND_VOR_VXOR` (R106): A sort executes a lane-wise bitwise operation. -/
  | vLogic (g sl : Nat) (op : VLogicOp) (ty : BitVec 2) (vd va vb : Reg)
  /-- `VSHL_VSHR_VSAR` (R106): A sort executes a lane-wise shift. -/
  | vShift (g sl : Nat) (op : VShiftOp) (ty : BitVec 2) (vd va vb : Reg)
  /-- `VIMIN_VIMAX` (R106): A sort executes a lane-wise signed integer minimum or maximum. -/
  | vIMinMax (g sl : Nat) (op : VIMinMax) (ty : BitVec 2) (vd va vb : Reg)
  /-- `VSEL` (R106): A sort selects bits of two vectors under the mask held in the destination. -/
  | vsel (g sl : Nat) (ty : BitVec 2) (vd va vb : Reg)
  /-- `VPERM` (R106): A sort permutes the lanes of a vector by index. -/
  | vperm (g sl : Nat) (ty : BitVec 2) (vd va vb : Reg)
  /-- `VBCST` (R106): A sort broadcasts a scalar register into every lane of a vector. -/
  | vbcst (g sl : Nat) (ty : BitVec 2) (vd sa vb : Reg)
  /-- `VEXT` (R106): A sort extracts one lane of a vector into a scalar register. -/
  | vext (g sl : Nat) (ty : BitVec 2) (sd va : Reg) (ln : BitVec 5)
  /-- `VCVT` (R107): A sort converts the elements of a vector between formats, by part. -/
  | vcvt (g sl : Nat) (tgt src ctl : BitVec 4) (rm : BitVec 3) (vd va : Reg)
  /-- `VMX` (R108): A sort quantises one 32-element block into an MX format and its scale byte. -/
  | vmx (g sl : Nat) (mxe : BitVec 3) (fmt pos : BitVec 2) (rm : BitVec 3) (vd va sd : Reg)
  /-- `VDQMX` (R108): A sort dequantises one MX block with its scale byte. -/
  | vdqmx (g sl : Nat) (mxe : BitVec 3) (fmt pos : BitVec 2) (rm : BitVec 3) (vd va rs : Reg)
  /-- `MMA` (R109): A sort performs one matrix multiply-accumulate step into an 8x8 tile. -/
  | mma (g sl : Nat) (afmt bfmt : BitVec 4) (mx : Bool) (ad : BitVec 3) (va vb : Reg)
  /-- `MSCL` (R110): A sort sets the MX scale registers XA and XB. -/
  | mscl (g sl : Nat) (rs rt : Reg)
  /-- `SMOV_CS` (R111): A sort starts a stream move from its case to the stick store. -/
  | smovCs (g sl : Nat) (rd rs rt : Reg) (len7 : BitVec 7)
  /-- `SMOV_SC` (R111): A sort starts a stream move from the stick store to its case. -/
  | smovSc (g sl : Nat) (rd rs rt : Reg) (len7 : BitVec 7)
  /-- `SMOV_CG` (R111): A sort starts a stream move from its case to the galley store. -/
  | smovCg (g sl : Nat) (rd rs rt : Reg) (len7 : BitVec 7)
  /-- `SMOV_GC` (R111): A sort starts a stream move from the galley store to its case. -/
  | smovGc (g sl : Nat) (rd rs rt : Reg) (len7 : BitVec 7)
  /-- `SMOV_SG` (R111): A sort starts a stream move from the stick store to the galley store. -/
  | smovSg (g sl : Nat) (rd rs rt : Reg) (len7 : BitVec 7)
  /-- `SMOV_GS` (R111): A sort starts a stream move from the galley store to the stick store. -/
  | smovGs (g sl : Nat) (rd rs rt : Reg) (len7 : BitVec 7)
  /-- `STREAM_MOVE_DONE` (R111): A stream move writes its last byte at the destination and releases its tag. -/
  | streamMoveDone (g sl tag : Nat)
  /-- `SWAIT` (R111): A sort stalls until every stream tag in its mask is free. -/
  | swait (g sl : Nat) (rs rt : Reg)
  /-- `LKUP` (R112): A sort hands a lookup list to its lookup port and takes a ticket. -/
  | lkup (g sl : Nat) (rd rs rt : Reg)
  /-- `LWAIT` (R112): A sort stalls until its masked tickets have all their results written, and releases them. -/
  | lwait (g sl : Nat) (rs : Reg)
  /-- `LSTAT` (R112): A sort reads the status word of a ticket, releasing the ticket if it is complete. -/
  | lstat (g sl : Nat) (rd rs : Reg)
  /-- `BAR_S` (R114): A sort arrives at a stick barrier and stalls until every participant has arrived. -/
  | barS (g sl : Nat) (rd rs : Reg) (imm : BitVec 12)
  /-- `BAR_G` (R114): A sort arrives at a galley barrier and stalls until every participant has arrived. -/
  | barG (g sl : Nat) (rd rs : Reg) (imm : BitVec 12)
  /-- `BARRIER_RELEASE` (R114): A barrier generation releases its participants after the last arrival. -/
  | barrierRelease (g : Nat) (gal : Bool) (key : Nat)
  /-- `MSEND` (R115): A sort sends a 16-byte message to another sliver of its share. -/
  | msend (g sl : Nat) (rd rs rt : Reg)
  /-- `MESSAGE_DELIVERY` (R115): A message reaches the receiver's inbox once the inbox has room, where duplicate tags
  are dropped. -/
  | messageDelivery (g sender dest : Nat)
  /-- `MRECV` (R114): A sort stalls until its inbox is not empty, then takes the first message. -/
  | mrecv (g sl : Nat) (rd : Reg)
  /-- `MPOLL` (R114): A sort reads the number of messages in its inbox. -/
  | mpoll (g sl : Nat) (rd : Reg)
  /-- `SLUG` (R117): A sort drains, ends its slug, snapshots its state and stops if a pre-emption is pending. -/
  | slug (g sl : Nat) (rd rs : Reg) (imm : BitVec 12)
  /-- `SLUG_OVERRUN` (R118): A sort's slug cycle counter reaches 64,000, and the sort stops and loses its context. -/
  | slugOverrun (g sl : Nat)
  /-- `SDONE` (R127): A sort drains and ends its sliver. -/
  | sdone (g sl : Nat)
  /-- `SYSTEM_NOP` (R127): A sort executes a no-operation. -/
  | systemNop (g sl : Nat)
  /-- `SRD` (R127): A sort reads a CSR into a scalar register. -/
  | srd (g sl : Nat) (rd : Reg) (csr : BitVec 12)
  /-- `SWR` (R127): A sort writes a CSR with the access type of the field. -/
  | swr (g sl : Nat) (rs : Reg) (csr : BitVec 12)
  /-- `RCTL_INJ` (R126): A sort arms a transient or persistent residue mismatch for its slug. -/
  | rctlInj (g sl : Nat) (rd rs : Reg) (imm : BitVec 12)
  /-- `SORT_ADOPTION_DONE` (R124): A spare sort finishes adopting a hard-failed sort's sliver and retries the slug. -/
  | sortAdoptionDone (g sl : Nat)
  /-- `STICK_REPLACEMENT_DONE` (R159): The spare stick finishes replacing a stick, and every sliver of the stick
  retries its slug. -/
  | stickReplacementDone (g : Nat)
  /-- `DSTART` (R149): The compositor starts a share of the current LAUNCH on the sorts. -/
  | dstart (g : Nat) (rd rs rt : Reg)
  /-- `DWAIT` (R149): The compositor stalls until the running share ends and reads its outcome. -/
  | dwait (g : Nat) (rd rs rt : Reg)
  /-- `DSTAT` (R149): The compositor reads the dispatch status. -/
  | dstat (g : Nat) (rd rs rt : Reg)
  /-- `GMOVE` (R151): The compositor starts a galley move described in its data memory. -/
  | gmove (g : Nat) (rd rs rt : Reg)
  /-- `MOVE_DONE` (R152): A galley move has read every source byte and issued every write, and its tag is released. -/
  | moveDone (g tag : Nat)
  /-- `GMWAIT` (R149): The compositor stalls until its masked move tags are free. -/
  | gmwait (g : Nat) (rd rs rt : Reg)
  /-- `GFLUSH` (R162): The compositor stalls until every write of its completed moves is accepted at its ordering
  point. -/
  | gflush (g : Nat) (rd rs rt : Reg)
  /-- `QWAIT` (R149): A press loop stalls until a LAUNCH for its galley is available. -/
  | qwait (g : Nat) (rd rs rt : Reg)
  /-- `QTAKE` (R149): The compositor makes the next LAUNCH current and its LAUNCH area active. -/
  | qtake (g : Nat) (rd rs rt : Reg)
  /-- `QDONE` (R149): The compositor drains its moves, flushes, and reports its shares done with result flags. -/
  | qdone (g : Nat) (rd rs rt : Reg)
  /-- `QINFO` (R149): The compositor reads STORES_KEPT, the active area and the context identity. -/
  | qinfo (g : Nat) (rd rs rt : Reg)
  /-- `QEXIT` (R149): The compositor program ends and the galley idles. -/
  | qexit (g : Nat) (rd rs rt : Reg)
  /-- `LOCKSTEP_CHECK` (R148): Every 1,024 SCLK the compositor pair compares its register checksums, and a mismatch
  starts a galley reset. -/
  | lockstepCheck (g : Nat) (differ : Bool)
  /-- `IMAGE_LOAD_VERIFY` (R351): The seal engine finishes recomputing the tag of an image loaded into a galley. -/
  | imageLoadVerify (g : Nat)
  /-- `LIST_CHECK` (R209): The lookup port finishes reading a list, checks it and routes its entries and end marks. -/
  | listCheck (src : LkSrc)
  /-- `LOOKUP_ENTRY` (R218): A lookup entry arrives at a platen's intake, or completes OVER_BUDGET at once. -/
  | lookupEntry (g f : Nat)
  /-- `END_MARK` (R210): A list's end mark arrives at a platen. -/
  | endMark (g f : Nat)
  /-- `ENTRY_ADMIT` (R218): The platen admits a waiting entry into the collecting window when tokens and resources
  allow. -/
  | entryAdmit (g f : Nat)
  /-- `TOKEN_REFILL` (R216): At each 100 us boundary each token bucket gains RATE tokens, clipped at DEPTH. -/
  | tokenRefill
  /-- `WINDOW_CLOSE` (R221): The collecting window closes on count, age or idleness and begins its fetch phases. -/
  | windowClose (f : Nat)
  /-- `SHEET_READ_DONE` (R222): A sheet read returns from the cache or stack and its entries resolve, decode and pool.
  -/
  | sheetReadDone (f w sheet : Nat)
  /-- `WINDOW_COMPLETE` (R221): Every entry of a window in flight has settled, freeing a window slot. -/
  | windowComplete (f w : Nat)
  /-- `BAG_SETTLE` (R229): A complete bag is settled and its values and status word are written. -/
  | bagSettle (f : Nat) (src : LkSrc) (bag : Nat)
  /-- `LIST_COMPLETE` (R214): The port writes the result header once every platen has finished, completing the ticket.
  -/
  | listComplete (src : LkSrc)
  /-- `UNIT_RESET_RESPONSE` (R211): A fabric boundary answers a lookup entry with the unit-reset response, and the
  entry is resent or completes LOOKUP_RESET. -/
  | unitResetResponse (g f : Nat)
  /-- `CODEBOOK_LOAD_DONE` (R228): A codebook load into the platen's partition completes. -/
  | codebookLoadDone (f t : Nat)
  /-- `SKETCH_HALVING` (R233): Every 1 ms all admission sketch counters are halved. -/
  | sketchHalving
  /-- `INSERT_PLACE` (R192): The home platen places the insert at the head of its insert queue. -/
  | insertPlace (f : Nat)
  /-- `QUARANTINE_RELEASE` (R191): A quarantined slot whose time and windows have passed is pushed onto the free-slot
  list. -/
  | quarantineRelease (f : Nat)
  /-- `FREQ_INCREMENT` (R195): A frequency increment reaches the home platen and raises the entry's FREQ. -/
  | freqIncrement (f : Nat)
  /-- `CLOCK_AGEING` (R196): Every 100 us the home platen ages the next buckets and may evict idle entries. -/
  | clockAgeing
  /-- `MIRROR_RESYNC_GRANULE` (R202): The surviving platen copies one dirty granule to a returned copy, ending RESYNC
  after the last one. -/
  | mirrorResyncGranule (t : Nat)
  /-- `TABLE_DEFINE` (R175): The kernel command checks a table descriptor and starts defining the table. -/
  | tableDefine (q : Nat)
  /-- `TABLE_DEFINE_DONE` (R175): Zeroing and the descriptor writes end, and the table becomes LIVE. -/
  | tableDefineDone (t : Nat)
  /-- `TABLE_RETIRE` (R177): The kernel command moves a table to RETIRING. -/
  | tableRetire (q : Nat)
  /-- `TABLE_RETIRE_DONE` (R177): When no work for a retiring table remains, it becomes FREE. -/
  | tableRetireDone (t : Nat)
  /-- `TABLE_ADOPT` (R178): The PF gives an orphaned table a new owner after the area checks. -/
  | tableAdopt (q : Nat)
  /-- `UPDATE_ROWS` (R244): The command hands a record buffer to the update front end. -/
  | updateRows (q : Nat)
  /-- `UPDATE_RECORD` (R620): The update front end reads and checks one record and sends it to its platen. -/
  | updateRecord (src : UpdSrc)
  /-- `WRITE` (R251): The platen replaces the content of a present row by a merge, full or shadow write. -/
  | write (n : Nat)
  /-- `WRITE_INSERT` (R251): The platen writes a row, inserting it when it is absent. -/
  | writeInsert (n : Nat)
  /-- `DELETE` (R252): The platen removes a dynamic or mapped row. -/
  | delete (n : Nat)
  /-- `PIN` (R252): The platen sets PIN of a dynamic entry. -/
  | pin (n : Nat)
  /-- `UNPIN` (R252): The platen clears PIN of a dynamic entry. -/
  | unpin (n : Nat)
  /-- `RAW_SHEETS` (R253): The platen writes whole sheets at an offset of a table area. -/
  | rawSheets (n : Nat)
  /-- `PAD` (R245): The update front end skips to the start of the ring at a PAD record. -/
  | pad (c k : Nat)
  /-- `UPDATE_RING_REGISTER` (R245): The kernel command registers an update ring for a context. -/
  | updateRingRegister (q : Nat)
  /-- `UPDATE_RING_REMOVE` (R246): The kernel command stops reading a ring and completes after its last results. -/
  | updateRingRemove (q : Nat)
  /-- `UPDATE_RING_POLL` (R245): The block reads a ring's PROD and the records up to it. -/
  | updateRingPoll (c k : Nat)
  /-- `EPOCH_FENCE` (R264): The command fences every update record accepted before it for the instance's tables. -/
  | epochFence (q : Nat)
  /-- `EPOCH_FENCE_DONE` (R264): Every covered record has its result, and the fence completes. -/
  | epochFenceDone (q no : Nat)
  /-- `RECENT_WRITE_ROTATE` (R276): Every 500 us the oldest recent-write bitmap is cleared and becomes current. -/
  | recentWriteRotate
  /-- `SCRUB_STEP` (R286): The patrol reads its next sheet and writes corrected groups back. -/
  | scrubStep (f : Nat)
  /-- `FRAME_RETIRE_DONE` (R288): A frame copy ends, the remap entry is committed and held writes are released. -/
  | frameRetireDone (f : Nat)
  /-- `FLASH_LIST_APPEND` (R288): A committed retirement is appended to the flash list. -/
  | flashListAppend (f : Nat)
  /-- `CE_TRACKER_CLEAR` (R287): Every 24 h the correction tracker clears its counts. -/
  | ceTrackerClear
  /-- `WRITE_QUEUE_TURN` (R280): A pseudo-channel turns to writes when 32 are waiting or the oldest has waited 2 us.
  -/
  | writeQueueTurn (f pc : Nat)
  /-- `REFRESH` (R292): The controller issues a per-bank refresh or refresh management command at its interval. -/
  | refresh (f : Nat)
  /-- `STACK_TEMP_READ` (R292): Every 1 ms the controller reads the stack temperature and applies its band. -/
  | stackTempRead (f temp : Nat)
  /-- `TRAINING_RECORD_WRITE` (R294): Every 100 ms of tracking the controller writes the training record to its
  alternate copy. -/
  | trainingRecordWrite (f values : Nat)
  /-- `FULL_TRAINING_DONE` (R295): A full training of a stack ends, or the stack fails and goes out of service. -/
  | fullTrainingDone (f values : Nat) (phase : Option Nat)
  /-- `WARM_RESTORE_DONE` (R297): A warm restore of a stack ends, or its failure leads to full training or lost
  content. -/
  | warmRestoreDone (f : Nat) (remapOk recordOk verifyOk : Bool)
  /-- `ZERO_FILL_DONE` (R298): A zero-fill of a stack completes. -/
  | zeroFillDone (f : Nat)
  /-- `SELF_REFRESH_TIMEOUT` (R299): A stack does not confirm self-refresh entry within 100 us, and its content is
  declared lost. -/
  | selfRefreshTimeout (f : Nat)
  /-- `STEP_CONFIG` (R310): The kernel command sets the step and proof periods and the enabled domains. -/
  | stepConfig (q : Nat)
  /-- `STEP_MODEL` (R308): The kernel command defines, replaces or removes a step-model slot. -/
  | stepModel (q : Nat)
  /-- `SEQ_OPEN` (R306): The user command opens a sequence in an imposition entry. -/
  | seqOpen (q : Nat)
  /-- `SEQ_SIGNAL` (R312): The user command applies a list of signal records to entries. -/
  | seqSignal (q : Nat)
  /-- `SEQ_CLOSE` (R313): The user command closes a sequence, freeing it now or at retirement. -/
  | seqClose (q : Nat)
  /-- `SEQ_QUERY` (R307): The user command writes coarsened copies of imposition entries to a buffer. -/
  | seqQuery (q : Nat)
  /-- `STEP_BUILD` (R314): At a step tick the builder selects ready sequences, writes work lists and injects batches.
  -/
  | stepBuild (d : Nat)
  /-- `DLM_REPORT` (R319): A forwarded phase report is answered by the DLM with a prediction and verdict. -/
  | dlmReport (g : Nat)
  /-- `BATCH_RETIRE` (R320): After a batch's completion entry, the builder updates each member and frees the work-list
  run. -/
  | batchRetire (k : Nat)
  /-- `PROOF_ROUND` (R501): Every PROOF_PERIOD a round copies changed entries and proved state halves to the proof
  stack. -/
  | proofRound (v : Nat)
  /-- `SLICE_RESTORE` (R503): The FM restores a lost slice from its proof records and rolls back sequences. -/
  | sliceRestore (v : Nat) (bad : List Nat)
  /-- `SLICE_WRITE_BACK` (R333): A slice served from its proof is written back to its returned stack. -/
  | sliceWriteBack (v : Nat)
  /-- `NOP` (R344): The no-operation command completes. -/
  | nop (q : Nat)
  /-- `LAUNCH` (R353): The user command is checked against its seal and patch and becomes a pending step. -/
  | launch (q : Nat)
  /-- `WAIT_VALUE` (R356): The command reaches the head of its queue and completes or registers a wait. -/
  | waitValue (q : Nat)
  /-- `WAIT_VALUE_REREAD` (R356): The QFE reads a registered wait's address again on its back-off or after a QFE
  write. -/
  | waitValueReread (q : Nat)
  /-- `WRITE_VALUE` (R357): The command writes a 64-bit value after every earlier command is complete. -/
  | writeValue (q : Nat)
  /-- `FENCE_RESET` (R358): The command clears a fence's SIGNALLED bit. -/
  | fenceReset (q : Nat)
  /-- `QUERY` (R402): The command writes a context or instance block. -/
  | query (q : Nat)
  /-- `SEAL_PROGRAM` (R350): The kernel command reads, checks and seals a galley image. -/
  | sealProgram (q : Nat)
  /-- `UNSEAL` (R352): The kernel command frees a seal entry. -/
  | unseal (q : Nat)
  /-- `MAP` (R348): The kernel command maps consecutive pages in a context's frisket. -/
  | map (q : Nat)
  /-- `UNMAP` (R349): The kernel command removes mappings and waits for their shoot-down. -/
  | unmap (q : Nat)
  /-- `MAP_ATTR` (R349): The kernel command changes the attributes of mapped pages. -/
  | mapAttr (q : Nat)
  /-- `CTX_CREATE` (R372): The kernel command creates a context in IDLE. -/
  | ctxCreate (q : Nat)
  /-- `CTX_DESTROY` (R368): The kernel command frees a context and its seals, mappings and sequences. -/
  | ctxDestroy (q : Nat)
  /-- `QUEUE_CREATE` (R337): The kernel command creates a kernel, gang or spread queue. -/
  | queueCreate (q : Nat)
  /-- `QUEUE_DESTROY` (R368): The kernel command flushes a queue and frees it. -/
  | queueDestroy (q : Nat)
  /-- `QUEUE_BIND` (R362): The kernel command changes the galleys bound to a queue. -/
  | queueBind (q : Nat)
  /-- `QUEUE_FLUSH` (R366): The kernel command flushes a queue. -/
  | queueFlush (q : Nat)
  /-- `FENCE_CREATE` (R358): The kernel command creates a fence. -/
  | fenceCreate (q : Nat)
  /-- `FENCE_DESTROY` (R358): The kernel command destroys a fence. -/
  | fenceDestroy (q : Nat)
  /-- `QUOTA_SET` (R390): The PF kernel command sets one quota of an instance. -/
  | quotaSet (q : Nat)
  /-- `RESET_CONTEXT` (R487): A RESET with SCOPE 0 tears down a context at level 1. -/
  | resetContext (q : Nat)
  /-- `RESET_QUEUE` (R487): A RESET with SCOPE 1 flushes a queue and restarts its watchdog. -/
  | resetQueue (q : Nat)
  /-- `RESET_INSTANCE` (R487): A RESET with SCOPE 2 starts an instance reset. -/
  | resetInstance (q : Nat)
  /-- `RESET_GALLEY` (R489): A RESET with SCOPE 3 starts a galley reset in place. -/
  | resetGalley (q : Nat)
  /-- `RESET_FORME` (R492): A RESET with SCOPE 4 starts a forme reset. -/
  | resetForme (q : Nat)
  /-- `RESET_BLOCK` (R487): A RESET with SCOPE 5 starts a warm block reset. -/
  | resetBlock (q : Nat)
  /-- `DB_TAIL` (R342): A doorbell tail write is accepted or dropped. -/
  | dbTail (fn q value : Nat)
  /-- `DB_CQ_HEAD` (R365): A completion-head write reports consumption or is dropped. -/
  | dbCqHead (fn q value : Nat)
  /-- `FLUSH` (R366): Writing 1 to FLUSH in DB_STATUS requests a flush of the queue. -/
  | flush (fn q : Nat)
  /-- `COMMAND_FETCH` (R346): A fetch unit reads a published command and checks it before execution. -/
  | commandFetch (q : Nat)
  /-- `STALLED_REFETCH` (R339): A fetch unit rereads a command that was not intact, on its back-off. -/
  | stalledRefetch (q : Nat)
  /-- `SPREAD_CLAIM` (R361): A fetch unit claims the next command of a spread queue at the QFE. -/
  | spreadClaim (q g : Nat)
  /-- `KQ_ENABLE` (R370): Setting ENABLE in FN_KQ_CTRL creates the bootstrap kernel queue. -/
  | kqEnable (fn v : Nat)
  /-- `KQ_DISABLE` (R370): Clearing ENABLE in FN_KQ_CTRL destroys the bootstrap kernel queue. -/
  | kqDisable (fn v : Nat)
  /-- `REGISTER_WRITE` (R16): A write to a register field with no behaviour of its own acts by its access type. -/
  | registerWrite (sp : RegSpace) (off width value en : Nat)
  /-- `PREEMPT_SAVE_DONE` (R384): The stopped state of a pre-empted step is saved, and its galleys pass to the granted
  step. -/
  | preemptSaveDone (k : Nat)
  /-- `DEADLINE_BUDGET_REFILL` (R378): At each 1 ms boundary each instance's deadline budget gains VALUE, clipped at
  DEPTH. -/
  | deadlineBudgetRefill
  /-- `LEDGER_FLUSH` (R400): Every 10 ms the MC flushes the open ledger bank and header. -/
  | ledgerFlush
  /-- `PERIOD_CLOSE` (R400): A billing period closes in one flush, and the next period opens. -/
  | periodClose
  /-- `JOURNAL_APPEND` (R400): A closed period is appended to the ledger journal and offered on the network. -/
  | journalAppend
  /-- `GRANT` (R408): The INSTANCE subop grants 2 MiB granules to an instance. -/
  | grant (q : Nat)
  /-- `REVOKE` (R408): The INSTANCE subop removes grants. -/
  | revoke (q : Nat)
  /-- `POOL_ADD` (R411): The INSTANCE subop adds granted granules to the frisket pool. -/
  | poolAdd (q : Nat)
  /-- `POOL_REMOVE` (R411): The INSTANCE subop removes granules from the frisket pool. -/
  | poolRemove (q : Nat)
  /-- `APERTURE` (R416): The INSTANCE subop sets or clears the aperture context. -/
  | aperture (q : Nat)
  /-- `HDM` (R417): The INSTANCE subop defines or removes the CXL.mem region. -/
  | hdm (q : Nat)
  /-- `STAGING` (R433): The INSTANCE subop sets an instance's staging area in the Exclusive profile. -/
  | staging (q : Nat)
  /-- `TRACK_START` (R426): The INSTANCE subop starts dirty tracking and clears the instance's bits. -/
  | trackStart (q : Nat)
  /-- `TRACK_STOP` (R426): The INSTANCE subop stops dirty tracking. -/
  | trackStop (q : Nat)
  /-- `DIRTY` (R426): The INSTANCE subop copies and clears dirty bits. -/
  | dirty (q : Nat)
  /-- `READ_PAGES` (R429): The INSTANCE subop copies pages to host memory with poison masks. -/
  | readPages (q : Nat)
  /-- `WRITE_PAGES` (R429): The INSTANCE subop copies pages from host memory and writes marked poison. -/
  | writePages (q : Nat)
  /-- `FREEZE` (R427): The INSTANCE subop freezes an instance and waits for its started commands. -/
  | freeze (q : Nat)
  /-- `FREEZE_QUIET` (R427): The last started command of a freezing instance completes, and FREEZE completes. -/
  | freezeQuiet (i : Nat)
  /-- `FREEZE_TIMEOUT` (R427): FREEZE's timeout expires first, and it completes with INST_TIMEOUT. -/
  | freezeTimeout (i : Nat)
  /-- `SAVE` (R428): The INSTANCE subop writes the saved state of a frozen instance. -/
  | save (q : Nat)
  /-- `RESTORE` (R430): The INSTANCE subop checks and installs a saved state. -/
  | restore (q : Nat)
  /-- `THAW` (R406): The INSTANCE subop returns a frozen instance to ENABLED. -/
  | thaw (q : Nat)
  /-- `BCE_WEIGHT` (R439): The INSTANCE subop sets an instance's BCE arbitration weight. -/
  | bceWeight (q : Nat)
  /-- `STREAM_OPEN` (R436): The INSTANCE subop opens a bounce stream pair. -/
  | streamOpen (q : Nat)
  /-- `STREAM_CLOSE` (R440): The INSTANCE subop closes a stream pair after its messages in slots. -/
  | streamClose (q : Nat)
  /-- `INSTANCE_RESET_DONE` (R420): An instance reset finishes its phases and sets INST_RESET and READY. -/
  | instanceResetDone (i : Nat)
  /-- `FLR_VF` (R421): A function-level reset of a VF starts its instance reset. -/
  | flrVf (i : Nat)
  /-- `FLR_PF` (R421): A function-level reset of the PF resets every instance. -/
  | flrPf
  /-- `D3HOT_TO_D0` (R421): A VF moving from D3hot to D0 starts its instance reset. -/
  | d3hotToD0 (i : Nat)
  /-- `VF_ENABLE_SET` (R406): Setting VF Enable brings the VFs up to NumVFs to ENABLED. -/
  | vfEnableSet (n : Nat)
  /-- `VF_ENABLE_CLEAR` (R421): Clearing VF Enable or lowering NumVFs resets each VF that ceases to exist. -/
  | vfEnableClear (n : Nat)
  /-- `MSIX_UNMASK` (R419): Unmasking a vector sends its pending MSI-X message. -/
  | msixUnmask (fn vec : Nat)
  /-- `HDM_DECODER_COMMIT` (R417): The host commits the CXL HDM decoder, setting Commit Error where the region does
  not match. -/
  | hdmDecoderCommit (base size : Nat)
  /-- `APERTURE_READ` (R416): A host or peer read of BAR2 is translated through the aperture context. -/
  | apertureRead (fn off n : Nat)
  /-- `APERTURE_WRITE` (R416): A host or peer write of BAR2 is translated through the aperture context. -/
  | apertureWrite (fn off : Nat) (bytes : List Byte)
  /-- `CXL_MEM_READ` (R417): A host CXL.mem read reaches the device memory of the region. -/
  | cxlMemRead (h n : Nat)
  /-- `CXL_MEM_WRITE` (R417): A host CXL.mem write reaches the device memory of the region. -/
  | cxlMemWrite (h : Nat) (bytes : List Byte)
  /-- `HOST_READ_TIMEOUT` (R415): A host read's completion timeout expires, and the failure is handled by its
  initiator. -/
  | hostReadTimeout (r : HostReader)
  /-- `LINK_TRAINING` (R404): The host port trains the link and settles on CXL 3.1 or PCIe 6.x. -/
  | linkTraining (cxl : Bool)
  /-- `LINK_DOWN` (R431): The FDI reports the host link down, and outbound traffic is held. -/
  | linkDown
  /-- `LINK_LOST` (R432): The host link stays down for more than 10 ms, and the block starts a warm start. -/
  | linkLost
  /-- `BOUNCE_WRITE` (R438): An inbound WRITE message is authenticated, decrypted and written to device memory. -/
  | bounceWrite (i p : Nat)
  /-- `BOUNCE_READ` (R438): An inbound READ message is checked and answered, or parked on its threshold. -/
  | bounceRead (i p : Nat)
  /-- `BOUNCE_PAD` (R434): An inbound PAD message skips to the start of the ring. -/
  | bouncePad (i p : Nat)
  /-- `PARKED_READ_RECHECK` (R438): A parked READ re-examines its threshold and sends DATA when it is due. -/
  | parkedReadRecheck (n : Nat)
  /-- `BCE_SEGMENT_DONE` (R439): A BCE pipe finishes a segment and arbitrates the next one. -/
  | bceSegmentDone (out : Bool)
  /-- `OUTBOUND_MESSAGE_SEND` (R438): An outbound bounce message is written once its ring has space. -/
  | outboundMessageSend (i p : Nat)
  /-- `FN_BNC_KICK` (R434): A write of FN_BNC_KICK makes the block read the named inbound PROD within 1 us. -/
  | fnBncKick (i v : Nat)
  /-- `BOUNCE_PROD_POLL` (R434): The block reads the PROD of every open inbound ring every 10 us. -/
  | bounceProdPoll
  /-- `BNC_ENABLE` (R436): Setting ENABLE in FN_BNC_CTRL opens pair 0 with the keys of the secure session. -/
  | bncEnable (i v : Nat)
  /-- `BNC_DISABLE` (R436): Clearing ENABLE in FN_BNC_CTRL closes pair 0. -/
  | bncDisable (i v : Nat)
  /-- `PORT_LINK_DOWN` (R442): A lane loses lock, and its port's link drops and its queued frames are discarded. -/
  | portLinkDown (p : Nat)
  /-- `REMOTE_GATHER` (R456): A received REMOTE_GATHER frame is checked and admitted for execution, or refused
  NOT_READY. -/
  | remoteGather (p : Nat) (l : List Byte)
  /-- `GATHER_EXECUTION_DONE` (R456): A remote gather's result area is built and sent as GATHER_REPLY fragments. -/
  | gatherExecutionDone (id : Nat)
  /-- `GATHER_REPLY` (R457): A received reply fragment is written to the result area, with the header last. -/
  | gatherReply (p : Nat) (l : List Byte)
  /-- `TABLE_UPDATE` (R458): A received TABLE_UPDATE message hands its records to the update front end in SEQ order.
  -/
  | tableUpdate (p : Nat) (l : List Byte)
  /-- `INGEST` (R459): A received INGEST message is written as a record to the ingest ring. -/
  | ingest (p : Nat) (l : List Byte)
  /-- `ACK` (R454): A received ACK marks messages acknowledged and done. -/
  | ack (p : Nat) (l : List Byte)
  /-- `NACK` (R455): A received NACK makes the sender retransmit or break the connection. -/
  | nack (p : Nat) (l : List Byte)
  /-- `RAW_FRAME_INGEST` (R460): A frame not taken as quire traffic is matched against the raw filters and written to
  an ingest ring. -/
  | rawFrameIngest (p : Nat) (l : List Byte)
  /-- `PFC_FRAME` (R444): A received PFC frame pauses the named priorities. -/
  | pfcFrame (p : Nat) (l : List Byte)
  /-- `PFC_REFRESH` (R444): Every 10 us the pause frame is repeated while the occupancy stays above XON_TH. -/
  | pfcRefresh (p : Nat)
  /-- `PFC_XON` (R444): A priority's occupancy falls below XON_TH, and quanta 0 is sent. -/
  | pfcXon (p pri : Nat)
  /-- `SEND_RING_POLL` (R451): The NP reads a send ring's PROD and sends messages within the window. -/
  | sendRingPoll (n : Nat)
  /-- `ACK_SEND` (R453): The receiver sends a coalesced ACK within 2 us of a message becoming done. -/
  | ackSend (n : Nat)
  /-- `RTO_EXPIRY` (R454): An unacknowledged message's RTO expires, and it is retransmitted or the connection breaks.
  -/
  | rtoExpiry (n seq : Nat)
  /-- `GATHER_REPLY_TIMEOUT` (R454): A REMOTE_GATHER's reply is incomplete 4 x RTO after transmission, and it is sent
  again. -/
  | gatherReplyTimeout (n seq : Nat)
  /-- `INGEST_CONS_POLL` (R459): The block reads an ingest ring's CONS every 10 us. -/
  | ingestConsPoll (n : Nat)
  /-- `FN_FLT_ENABLE` (R471): Setting ENABLE in FN_FLT_CTRL turns the fault ring on, or sets ERROR. -/
  | fnFltEnable (fn v : Nat)
  /-- `FAULT_FLUSH` (R469): The FM copies pending records to the persistent fault log. -/
  | faultFlush
  /-- `WGM_SCAN` (R479): Every 1 ms the WGM scans the wait graph and loses the guilty context of each cycle. -/
  | wgmScan
  /-- `QUEUE_WATCHDOG` (R481): A user queue's no-progress watchdog expires, and its context is lost. -/
  | queueWatchdog (q : Nat)
  /-- `KQ_WATCHDOG` (R482): A kernel queue's watchdog expires, and KQ_WATCHDOG is recorded. -/
  | kqWatchdog (q : Nat)
  /-- `CONTEXT_TEARDOWN_DONE` (R488): A level-1 teardown finishes its phases and the context's commands complete. -/
  | contextTeardownDone (c : Nat)
  /-- `LADDER_BOUND_MISSED` (R484): A ladder level misses its bound and escalates to the next level. -/
  | ladderBoundMissed (l : Late)
  /-- `GALLEY_RESET_DONE` (R489): A galley reset ends with the galley in service, replaced by a spare, or retired. -/
  | galleyResetDone (g : Nat) (selfOk spareOk : Bool)
  /-- `FORME_RESET_DONE` (R492): A forme reset ends with the forme in service or out of service. -/
  | formeResetDone (f : Nat) (ok : Bool) (failed : List Nat)
  /-- `MC_HEARTBEAT_MISS` (R486): Two missed FM heartbeats make the MC perform a level-4 warm reset. -/
  | mcHeartbeatMiss
  /-- `MC_WATCHDOG` (R486): The hardware watchdog on the MC expires and asserts PWRCYC_REQ_N. -/
  | mcWatchdog
  /-- `ROTATING_TEST_START` (R508): A stick's test slot arrives, and it begins testing its oldest-tested sort. -/
  | rotatingTestStart (n : Nat)
  /-- `IFT_DONE` (R509): A sort's in-field test ends, and it becomes the spare or is retired. -/
  | iftDone (n : Nat) (pass : Bool) (step : Nat)
  /-- `KEY_INFO` (R535): The KEY subop writes a slot descriptor. -/
  | keyInfo (q : Nat)
  /-- `GEN_PAIR` (R535): The KEY subop generates a P-384 key pair in an empty slot. -/
  | genPair (q : Nat)
  /-- `KEY_ATTEST` (R545): The KEY subop writes a signed attestation statement for a slot. -/
  | keyAttest (q : Nat)
  /-- `AGREE` (R537): The KEY subop runs ECDH and derives a pair of quire keys. -/
  | agree (q : Nat)
  /-- `ERASE` (R533): The KEY subop erases an assignable slot at the commit. -/
  | erase (q : Nat)
  /-- `ASSIGN` (R535): The KEY subop changes a slot's owner. -/
  | assign (q : Nat)
  /-- `SESSION_KEYS` (R544): The KEY subop derives the BCE keys of a stream pair. -/
  | sessionKeys (q : Nat)
  /-- `KEY_SLOT_COMMIT` (R533): A pending slot's uses reach zero, and its new content commits. -/
  | keySlotCommit (n : Nat)
  /-- `TAMPER_N` (R520): The tamper line asserts and erases every key within 1 us. -/
  | tamperN
  /-- `PROT_LOCK` (R516): Writing PROT_LOCK locks the protection set-up. -/
  | protLock
  /-- `GET_VERSION` (R541): The SPDM responder answers GET_VERSION. -/
  | getVersion (i : Nat)
  /-- `GET_CAPABILITIES` (R541): The SPDM responder answers GET_CAPABILITIES. -/
  | getCapabilities (i v : Nat)
  /-- `NEGOTIATE_ALGORITHMS` (R541): The SPDM responder negotiates the supported algorithms. -/
  | negotiateAlgorithms (i : Nat)
  /-- `GET_DIGESTS` (R542): The SPDM responder reports the digests of certificate slots matching the DIK. -/
  | getDigests (i : Nat)
  /-- `GET_CERTIFICATE` (R542): The SPDM responder returns a certificate chain. -/
  | getCertificate (i slot off n : Nat)
  /-- `CHALLENGE` (R541): The SPDM responder answers a challenge signed by slot 0. -/
  | challenge (i slot : Nat) (req : List Byte)
  /-- `GET_MEASUREMENTS` (R543): The SPDM responder reports the measurement blocks. -/
  | getMeasurements (i op : Nat) (signed : Bool) (req : List Byte)
  /-- `KEY_EXCHANGE` (R544): The SPDM responder establishes a secured session and, in Exclusive, allocates pair 0
  slots. -/
  | keyExchange (i reqId : Nat) (req : List Byte)
  /-- `SPDM_FINISH` (R541): The SPDM responder completes the session handshake. -/
  | spdmFinish (i : Nat)
  /-- `END_SESSION` (R544): The SPDM responder ends a session and empties its slots. -/
  | endSession (i : Nat)
  /-- `HEARTBEAT` (R541): The SPDM responder answers a session heartbeat. -/
  | heartbeat (i : Nat)
  /-- `KEY_UPDATE` (R541): The SPDM responder updates a session's keys. -/
  | keyUpdate (i op : Nat)
  /-- `GET_CSR` (R541): The SPDM responder returns a CSR for the DIK. -/
  | getCsr (i : Nat) (req : List Byte)
  /-- `SET_CERTIFICATE` (R542): The SPDM responder stores the owner chain in certificate slot 1. -/
  | setCertificate (i slot : Nat) (secured : Bool) (chain : List Byte)
  /-- `SPDM_UNSUPPORTED_REQUEST` (R541): The SPDM responder answers any other request with ERROR UnsupportedRequest.
  -/
  | spdmUnsupportedRequest (i : Nat)
  /-- `MBX_GO` (R571): Writing GO executes the PF mailbox request and writes the response. -/
  | mbxGo
  /-- `MGT_IRQ` (R558): The MC serves an assertion of MGT_IRQ_N from the MAC-PHY. -/
  | mgtIrq (ok : Bool)
  /-- `MACPHY_RETRY` (R558): Every 1 s the MC soft-resets and retries a failed MAC-PHY. -/
  | macphyRetry (ok : Bool)
  /-- `NEIGHBOUR_SOLICITATION` (R559): The block answers an IPv6 neighbour solicitation for its management address. -/
  | neighbourSolicitation (target mac src : Nat)
  /-- `HELLO` (R563): A HELLO datagram is answered with HELLO_REPLY. -/
  | hello (l : List Byte)
  /-- `APGUS_FINISH` (R563): A FINISH datagram is verified and opens the session. -/
  | apgusFinish (l : List Byte)
  /-- `HANDSHAKE_TIMEOUT` (R563): No FINISH arrives within 1 s of HELLO_REPLY, and the handshake is discarded. -/
  | handshakeTimeout (n : Nat)
  /-- `RECORD` (R564): A RECORD datagram is authenticated, and its message is executed or answered from a kept
  response. -/
  | record (l : List Byte)
  /-- `SESSION_IDLE_TIMEOUT` (R565): A session sees no authenticated record for IDLE_TIMEOUT seconds and ends. -/
  | sessionIdleTimeout (n : Nat)
  /-- `GET` (R567): An Apgus GET reads an object value. -/
  | get (r : Requester) (tag i sub : Nat)
  /-- `SET` (R570): An Apgus SET writes an object value, persisting it where required. -/
  | set (r : Requester) (tag i sub : Nat) (v : List Byte)
  /-- `APGUS_INFO` (R567): An Apgus INFO returns an object's type, access, role, default, persistence and range. -/
  | apgusInfo (r : Requester) (tag i sub : Nat)
  /-- `BLOB_READ` (R567): An Apgus BLOB_READ returns a chunk of a BLOB object. -/
  | blobRead (r : Requester) (tag i sub off len : Nat)
  /-- `BLOB_WRITE` (R567): An Apgus BLOB_WRITE writes a chunk, applying the object at LAST. -/
  | blobWrite (r : Requester) (tag i sub : Nat) (last : Bool) (off : Nat) (d : List Byte)
  /-- `SUBSCRIBE` (R581): An Apgus SUBSCRIBE sets a session's NOTIFY mask. -/
  | subscribe (r : Requester) (tag mask : Nat)
  /-- `CLOSE` (R565): An Apgus CLOSE ends the session. -/
  | close (r : Requester) (tag : Nat)
  /-- `TELEMETRY_TICK` (R581): Every TELEMETRY_MS the block sends a TELEMETRY notify. -/
  | telemetryTick
  /-- `BEACON` (R582): While PWRCYC_REQ_N is asserted, the block sends a signed BEACON every 1 s. -/
  | beacon
  /-- `CONNECTION_OPEN` (R450): Writing OPEN to a connection's STATE checks and opens it. -/
  | connectionOpen (r : Requester) (tag c : Nat)
  /-- `CONNECTION_DISABLE` (R450): Writing DISABLED to a connection's STATE closes it at once. -/
  | connectionDisable (r : Requester) (tag c : Nat)
  /-- `MODE_CHANGE` (R578): A write of a mode object sends PREPARE with a commit tick to the target units. -/
  | modeChange (r : Requester) (tag i sub : Nat) (v : List Byte)
  /-- `PREPARE_DEADLINE` (R579): A unit misses the PREPARE acknowledgement deadline, and the MC sends ABORT. -/
  | prepareDeadline (missed : Nat)
  /-- `MODE_COMMIT` (R578): At the commit tick every target unit applies the new value. -/
  | modeCommit
  /-- `CONFIRM_DEADLINE` (R579): Confirmations close, APPLIED_MASK is written, and a unit that failed is reset. -/
  | confirmDeadline (failed : Nat)
  /-- `NEXT_PROFILE` (R575): A write of NEXT_PROFILE selects the profile of the next warm start. -/
  | nextProfile (r : Requester) (tag p : Nat)
  /-- `QUOTA_OBJECT_WRITE` (R574): A write of a quota object has the effect of QUOTA_SET. -/
  | quotaObjectWrite (r : Requester) (tag i sub : Nat) (v : List Byte)
  /-- `RESET_REQ_WARM` (R604): RESET_REQ 1 requests a warm start. -/
  | resetReqWarm (r : Requester) (tag : Nat)
  /-- `RESET_REQ_COLD` (R604): RESET_REQ 2 requests a cold start. -/
  | resetReqCold (r : Requester) (tag : Nat)
  /-- `RESET_REQ_POWER_CYCLE` (R588): RESET_REQ 3 asserts PWRCYC_REQ_N. -/
  | resetReqPowerCycle (r : Requester) (tag : Nat)
  /-- `ALERT_ACK` (R578): A write of ALERT_ACK clears latched alert causes. -/
  | alertAck (r : Requester) (tag mask : Nat)
  /-- `RELEASE` (R485): A write of RELEASE returns a held forme to service. -/
  | release (r : Requester) (tag f : Nat)
  /-- `TRAIN_REQ` (R296): A write of TRAIN_REQ trains an out-of-service stack in full. -/
  | trainReq (r : Requester) (tag k : Nat)
  /-- `WALL_SET` (R401): A write of WALL_SET sets the wall-time base. -/
  | wallSet (r : Requester) (tag ns : Nat)
  /-- `INSTALL` (R538): A write of INSTALL places an AES key into an assignable slot. -/
  | install (r : Requester) (tag n : Nat) (v : List Byte)
  /-- `CLAIM` (R566): The host mailbox places the first owner key in entry 0. -/
  | claim (r : Requester) (tag : Nat) (v : List Byte)
  /-- `DEBUG_TOKEN` (R539): A write of DEBUG_TOKEN stores a token for the next cold start. -/
  | debugToken (r : Requester) (tag : Nat) (v : List Byte)
  /-- `FW_IMAGE` (R551): A write of FW_IMAGE programs the inactive slot of FW_TARGET. -/
  | fwImage (r : Requester) (tag : Nat) (v : List Byte)
  /-- `VERIFY` (R548): FW_CMD VERIFY checks the programmed image. -/
  | verify (r : Requester) (tag : Nat)
  /-- `STAGE` (R551): FW_CMD STAGE loads the image into the inactive half of MC instruction memory. -/
  | stage (r : Requester) (tag : Nat)
  /-- `ACTIVATE` (R551): FW_CMD ACTIVATE hands state over and jumps to the new half after a ledger flush. -/
  | activate (r : Requester) (tag : Nat)
  /-- `TRIAL_END` (R551): The trial of the new firmware passes, or fails or times out and falls back. -/
  | trialEnd (pass : Bool)
  /-- `CONFIRM` (R551): FW_CMD CONFIRM rewrites BOOTSEL MAIN_ACTIVE. -/
  | confirm (r : Requester) (tag : Nat)
  /-- `SELECT_FS1` (R552): FW_CMD SELECT_FS1 sets FS1_ACTIVE to the new slot with FS1_TRIAL. -/
  | selectFs1 (r : Requester) (tag : Nat)
  /-- `FW_ABORT` (R551): FW_CMD ABORT ends the update in progress. -/
  | fwAbort (r : Requester) (tag : Nat)
  /-- `ARB_COMMIT` (R550): A write of ARB_COMMIT raises the anti-rollback counter one fuse at a time. -/
  | arbCommit (r : Requester) (tag : Nat)
  /-- `FW_REVOKE` (R548): A write of REVOKE blows a signer's revocation fuse under a signed record. -/
  | fwRevoke (r : Requester) (tag : Nat) (v : List Byte)
  /-- `PROFILE_SELECT` (R576): The PROFILE subop sets NEXT_PROFILE. -/
  | profileSelect (q : Nat)
  /-- `PROFILE_CANCEL` (R576): The PROFILE subop clears NEXT_PROFILE. -/
  | profileCancel (q : Nat)
  /-- `PROFILE_READ` (R576): The PROFILE subop writes the profile state to a buffer. -/
  | profileRead (q : Nat)
  /-- `SET_CUSTOM` (R576): The PROFILE subop sets the domain count of the Custom profile. -/
  | setCustom (q : Nat)
  /-- `POR_N_ASSERT` (R589): POR_N low for 1 us puts the block in reset. -/
  | porNAssert
  /-- `POR_N_RELEASE` (R605): POR_N rises and the cold start begins. -/
  | porNRelease (straps : Nat)
  /-- `WARM_N` (R589): A falling edge of WARM_N requests a warm start. -/
  | warmN
  /-- `COLD_START_DONE` (R605): A cold start ends with the PF READY. -/
  | coldStartDone
  /-- `WARM_START_DONE` (R606): A warm start ends with RESTARTED and READY set. -/
  | warmStartDone
  /-- `START_FAILED` (R608): A start fails, its counter increments, and a retry, cold start or safe mode is scheduled.
  -/
  | startFailed (reachedMain : Bool)
  /-- `START_RETRY` (R608): The retry delay after a failed start expires, and the next start begins. -/
  | startRetry
  /-- `REFCLK_LOSS` (R593): REFCLK is absent or the PLL unlocks for 1 us, and the block puts itself in reset. -/
  | refclkLoss
  /-- `REFCLK_RETURN` (R593): REFCLK is back in range for 1 ms, and a cold start begins. -/
  | refclkReturn
  /-- `VRI_ACK` (R597): A regulator acknowledges a voltage request, and the handshake completes. -/
  | vriAck (f : Nat)
  /-- `VRI_ACK_TIMEOUT` (R599): No VRI_ACK arrives within 100 us, and the forme resets. -/
  | vriAckTimeout (f : Nat)
  /-- `RAIL_TRIP` (R599): A rail monitor trips, and the block resets at the rail's level. -/
  | railTrip (r : Rail)
  /-- `POWER_SAMPLE` (R50): Every 10 us the PM samples the draw and adjusts pulse ratios or platen pacing. -/
  | powerSample (mW : Nat)
  /-- `DIE_TEMP_READ` (R601): Every 10 us the PM reads the die sensors and throttles hot formes. -/
  | dieTempRead (temps : List Int) (fab : Int)
  /-- `VOLTAGE_BAND_CHANGE` (R598): The PM raises an island's voltage on a hotter band, or lowers it after 1 s in a
  cooler band. -/
  | voltageBandChange (f : Nat)
  /-- `THERMTRIP` (R602): A sensor reaches 125 C, and the block trips and shuts its islands down. -/
  | thermtrip
  /-- `FP_READ` (R613): The FP reads flash into FP_BUF. -/
  | fpRead (addr len : Nat)
  /-- `FP_PROGRAM` (R615): The FP blank-checks, programs and verifies a flash range. -/
  | fpProgram (addr : Nat) (data : List Byte)
  /-- `FP_ERASE_4K` (R613): The FP erases a 4 KiB sector. -/
  | fpErase4k (addr len : Nat)
  /-- `FP_BLANK_CHECK` (R615): The FP checks that a range is erased. -/
  | fpBlankCheck (addr len : Nat)
  /-- `FP_RESET_DEVICE` (R613): The FP resets the flash device. -/
  | fpResetDevice (len : Nat)
  /-- `FP_OPERATION_DONE` (R614): A flash operation ends, and DONE and CODE are set. -/
  | fpOperationDone (e : FlashEnd)
  /-- `FP_TIMEOUT` (R617): A flash operation exceeds its time, and the FP resets the device. -/
  | fpTimeout
  /-- `STORE_COMPACTION` (R619): The MC compacts the persistent store into the other area in the background. -/
  | storeCompaction
  /-- `ILLEGAL_INSTR` (R98): A sort or compositor meets an instruction word whose opcode is not offered to it and
  raises ILLEGAL_INSTR or COMP_ILLEGAL. -/
  | illegalInstr (c : CoreId) (word : BitVec 32)
  /-- `UNIT_FAULT` (R475): A unit detects a hardware fault in its own state, such as a platen, controller, stick
  router, HP or control-unit fault, and the FM takes it on the ladder. -/
  | unitFault (u : FaultUnit)
  /-- `FABRIC_LINK_FAULT` (R43): The FM detects a fault on a fabric link and swaps in the spare lane group, or treats
  a second fault as a fault of the unit served. -/
  | fabricLinkFault (k group : Nat) (central : Bool)
  /-- `PORT_LINK_UP` (R442): A network port's lanes regain lock and its link comes up again, so queued traffic can
  flow. -/
  | portLinkUp (p : Nat)
  /-- `TAMPER_N_DEASSERT` (R605): TAMPER_N is deasserted, and a cold start waiting at the tamper check proceeds. -/
  | tamperNDeassert
  /-- `PFC_QUANTA_EXPIRY` (R444): The pause time given by a peer's PFC quanta runs out, and frames of that priority
  may start again. -/
  | pfcQuantaExpiry (p pri : Nat)
  /-- `KEY_CELL_FAILURE` (R531): A key slot cell shows an uncorrectable error or CRC failure, and the KM moves the
  slot to a spare cell, re-deriving it or marking it DESTROYED. -/
  | keyCellFailure (n : Nat)
  deriving DecidableEq, Repr

end Sys2Proof
end

