-- ==== Sys2Proof/Decode.lean ====
section
/-! DEFINITION. The command that a word of the opcode table spells.  No row of the table gives bits: commands arrive as
they are, and a word spells none. -/

namespace Sys2Proof

/-- No row of the table has an encoding. -/
def decodeTableWord (_nbits _w : Nat) : Option Instr := none

end Sys2Proof
end

