-- ==== Sys2Proof/Machine/Arith.lean ====
section
/-! DEFINITION. Number formats and exact arithmetic (02_arithmetic.md R52 to R86): formats,
decoding to exact values, rounding once into a format, the vector and matrix operations on exact
values, MX blocks and the platen's pooling accumulator. -/

namespace Sys2Proof.Machine

/-! ## Bit fields and lanes -/

/-- Bits [hi:lo] of a number. -/
def bits (x hi lo : Nat) : Nat := x / 2 ^ lo % 2 ^ (hi + 1 - lo)

/-- Bit i of a number. -/
def bit (x i : Nat) : Bool := x / 2 ^ i % 2 == 1

/-- The number 1 or 0 of a truth value. -/
def b2n (b : Bool) : Nat := if b then 1 else 0

/-- Lane i of width w (03_sort.md Table 03-1: lane i at the i-th group of bytes). -/
def lane (w x i : Nat) : Nat := x / 2 ^ (w * i) % 2 ^ w

/-- The lanes of width w, n of them, lowest first. -/
def lanes (w n x : Nat) : List Nat := (List.range n).map (lane w x)

/-- The number whose lanes of width w are the list, lowest first (02_arithmetic.md R56). -/
def packLanes (w : Nat) : List Nat → Nat
  | [] => 0
  | a :: l => a % 2 ^ w + 2 ^ w * packLanes w l

/-- x with the w bits from bit position `at'` replaced by v. -/
def setBits (x at' w v : Nat) : Nat :=
  x % 2 ^ at' + 2 ^ at' * (v % 2 ^ w) + 2 ^ (at' + w) * (x / 2 ^ (at' + w))

/-- The two's complement value of the low w bits of x. -/
def toSigned (w x : Nat) : Int :=
  let y := x % 2 ^ w
  if 2 * y < 2 ^ w then (y : Int) else (y : Int) - 2 ^ w

/-- The low w bits of the two's complement of an integer. -/
def ofSigned (w : Nat) (x : Int) : Nat := (x % (2 ^ w : Int)).toNat

/-! ## Arithmetic flags (02_arithmetic.md R71; bit places of 03_sort.md Table 03-17) -/

/-- The six sticky flags as the low bits of SSR: IV 0, DZ 1, OF 2, UF 3, NX 4, SAT 5. -/
abbrev Flags := BitVec 6

def Flags.none : Flags := 0
def Flags.iv : Flags := 1
def Flags.dz : Flags := 2
def Flags.ovf : Flags := 4
def Flags.uf : Flags := 8
def Flags.nx : Flags := 16
def Flags.sat : Flags := 32
/-- A flag set when the condition holds. -/
def Flags.on (f : Flags) (c : Bool) : Flags := if c then f else 0

/-! ## Formats (R53, R54, Tables 02-2 and 02-3) -/

/-- Which encodings a format reserves: IEEE infinities and NaNs, E4M3's one NaN pattern per sign,
or none (R54). -/
inductive FKind | ieee | e4m3 | plain
  deriving DecidableEq, Repr

/-- A floating-point format: exponent bits, mantissa bits, bias, reserved encodings. -/
structure FFmt where
  eb : Nat
  mb : Nat
  bias : Nat
  kind : FKind
  deriving DecidableEq, Repr

def fp32 : FFmt := ⟨8, 23, 127, .ieee⟩
def bf16 : FFmt := ⟨8, 7, 127, .ieee⟩
def fp16 : FFmt := ⟨5, 10, 15, .ieee⟩
def e5m2 : FFmt := ⟨5, 2, 15, .ieee⟩
def e4m3 : FFmt := ⟨4, 3, 7, .e4m3⟩
def e3m2 : FFmt := ⟨3, 2, 3, .plain⟩
def e2m3 : FFmt := ⟨2, 3, 1, .plain⟩
def e2m1 : FFmt := ⟨2, 1, 1, .plain⟩

/-- The width of an encoding of the format. -/
def FFmt.width (f : FFmt) : Nat := 1 + f.eb + f.mb

/-- An exact value: the canonical NaN (R54: payload and sign never pass through), an infinity, or
(−1)^neg × m × 2^e, where m = 0 is a signed zero. -/
inductive FVal
  | nan
  | inf (neg : Bool)
  | fin (neg : Bool) (m : Nat) (e : Int)
  deriving DecidableEq, Repr

/-- The value of an encoding (R53, R54). -/
def FFmt.decode (f : FFmt) (x : Nat) : FVal :=
  let m := x % 2 ^ f.mb
  let e := x / 2 ^ f.mb % 2 ^ f.eb
  let neg := bit x (f.mb + f.eb)
  if f.kind = .ieee ∧ e = 2 ^ f.eb - 1 then (if m = 0 then .inf neg else .nan)
  else if f.kind = .e4m3 ∧ e = 15 ∧ m = 7 then .nan
  else if e = 0 then .fin neg m (1 - (f.bias : Int) - f.mb)
  else .fin neg (2 ^ f.mb + m) ((e : Int) - f.bias - f.mb)

/-- The magnitude code of the largest finite value (Table 02-2). -/
def FFmt.maxCode (f : FFmt) : Nat :=
  match f.kind with
  | .ieee => (2 ^ f.eb - 1) * 2 ^ f.mb - 1
  | .e4m3 => 2 ^ (f.eb + f.mb) - 2
  | .plain => 2 ^ (f.eb + f.mb) - 1

/-- The magnitude code of infinity of an IEEE format. -/
def FFmt.infCode (f : FFmt) : Nat := (2 ^ f.eb - 1) * 2 ^ f.mb

/-- The canonical NaN of the format (Table 02-3); formats with no NaN have none to give. -/
def FFmt.nanCode (f : FFmt) : Nat :=
  match f.kind with
  | .ieee => f.infCode + 2 ^ (f.mb - 1)
  | .e4m3 => 0x7F
  | .plain => 0

/-- The encoding with a sign and a magnitude code. -/
def FFmt.signed (f : FFmt) (neg : Bool) (code : Nat) : Nat :=
  (if neg then 2 ^ (f.eb + f.mb) else 0) + code

/-! ## Rounding (R64, R65, R72) -/

/-- The rounding modes of Table 02-6. -/
inductive RM | rne | rtz | rdn | rup | rsr
  deriving DecidableEq, Repr

/-- The RM field; reserved values give none (R64, R100). -/
def RM.ofField : Nat → Option RM
  | 0 => some .rne
  | 1 => some .rtz
  | 2 => some .rdn
  | 3 => some .rup
  | 4 => some .rsr
  | _ => Option.none

/-- The magnitude m × 2^e rounded to a multiple of 2^q: the multiple, and whether it is inexact.
r is the random word's low 32 bits for RSR (R72). -/
def roundAt (rm : RM) (r : Nat) (neg : Bool) (m : Nat) (e q : Int) : Nat × Bool :=
  if q ≤ e then (m * 2 ^ (e - q).toNat, false)
  else
    let sh := (q - e).toNat
    let k := m / 2 ^ sh
    let fr := m % 2 ^ sh
    if fr = 0 then (k, false)
    else
      let up := match rm with
        | .rne => decide (2 ^ sh < 2 * fr) || (2 * fr == 2 ^ sh && k % 2 == 1)
        | .rtz => false
        | .rdn => neg
        | .rup => !neg
        | .rsr => decide (2 ^ 32 ≤ fr * 2 ^ 32 / 2 ^ sh + r)
      (if up then k + 1 else k, true)

/-- Comparison of the magnitudes m₁ × 2^e₁ < m₂ × 2^e₂. -/
def magLt (m₁ : Nat) (e₁ : Int) (m₂ : Nat) (e₂ : Int) : Bool :=
  if e₁ ≤ e₂ then decide (m₁ < m₂ * 2 ^ (e₂ - e₁).toNat)
  else decide (m₁ * 2 ^ (e₁ - e₂).toNat < m₂)

/-- What one rounding into a format gives: the magnitude code, and whether it overflowed, was tiny
or was inexact. -/
structure Rounded where
  code : Nat
  ovfl : Bool
  tiny : Bool
  inexact : Bool
  deriving DecidableEq, Repr

/-- R65: round to the significand with unbounded exponent, decide overflow and tininess on the
rounded value, and round a tiny result at the subnormal step.  The magnitude is m × 2^e. -/
def roundFin (f : FFmt) (rm : RM) (r : Nat) (neg : Bool) (m : Nat) (e : Int) : Rounded :=
  if m = 0 then ⟨0, false, false, false⟩
  else
    let q := (Nat.log2 m : Int) + e - f.mb
    let emin : Int := 1 - f.bias
    let k := roundAt rm r neg m e q
    if magLt k.1 q 1 emin then
      let ks := roundAt rm r neg m e (emin - f.mb)
      ⟨ks.1, false, true, ks.2⟩
    else
      let code := (q + f.mb + f.bias).toNat * 2 ^ f.mb + (k.1 - 2 ^ f.mb)
      if f.maxCode < code then ⟨code, true, false, true⟩ else ⟨code, false, false, k.2⟩

/-- How a conversion treats overflow and tiny FP8 results (R67, R68). -/
structure CvtOpt where
  sat : Bool
  fz8 : Bool
  deriving DecidableEq, Repr

/-- The IEEE 754 choice on overflow: true for infinity, false for the largest finite value (R67). -/
def overToInf (rm : RM) (neg : Bool) : Bool :=
  match rm with
  | .rne => true
  | .rsr => true
  | .rtz => false
  | .rdn => neg
  | .rup => !neg

/-- An exact value rounded once into a format: the encoding and the flags raised
(R54, R65, R67, R68).  A format with no NaN receives none (R59 step 1 keeps them out). -/
def FFmt.encode (f : FFmt) (rm : RM) (r : Nat) (o : CvtOpt) (v : FVal) : Nat × Flags :=
  match v with
  | .nan => (f.nanCode, 0)
  | .inf neg =>
    if o.sat then (f.signed neg f.maxCode, Flags.sat)
    else match f.kind with
      | .ieee => (f.signed neg f.infCode, 0)
      | .e4m3 => (f.nanCode, 0)
      | .plain => (f.signed neg f.maxCode, Flags.sat)
  | .fin neg m e =>
    let d := roundFin f rm r neg m e
    if d.ovfl then
      if o.sat then (f.signed neg f.maxCode, Flags.ovf ||| Flags.sat ||| Flags.nx)
      else if overToInf rm neg then
        match f.kind with
        | .ieee => (f.signed neg f.infCode, Flags.ovf ||| Flags.nx)
        | .e4m3 => (f.nanCode, Flags.ovf ||| Flags.nx)
        | .plain => (f.signed neg f.maxCode, Flags.ovf ||| Flags.sat ||| Flags.nx)
      else (f.signed neg f.maxCode, Flags.ovf ||| Flags.nx)
    else if d.tiny && o.fz8 then (f.signed neg 0, Flags.uf ||| Flags.nx)
    else (f.signed neg d.code, Flags.on Flags.nx d.inexact ||| Flags.on Flags.uf (d.tiny && d.inexact))

/-- Rounding into FP32, BF16 or FP16 under IEEE overflow. -/
def FFmt.round (f : FFmt) (rm : RM) (v : FVal) : Nat × Flags := f.encode rm 0 ⟨false, false⟩ v

/-- R69: an exact value rounded by RM to an integer and clamped to w-bit two's complement. -/
def encodeInt (w : Nat) (rm : RM) (r : Nat) (v : FVal) : Nat × Flags :=
  let hi : Int := 2 ^ (w - 1) - 1
  let lo : Int := -(2 ^ (w - 1))
  match v with
  | .nan => (0, Flags.iv)
  | .inf neg => (ofSigned w (if neg then lo else hi), Flags.sat)
  | .fin neg m e =>
    let k := roundAt rm r neg m e 0
    let x : Int := if neg then -(k.1 : Int) else k.1
    if hi < x then (ofSigned w hi, Flags.sat ||| Flags.on Flags.nx k.2)
    else if x < lo then (ofSigned w lo, Flags.sat ||| Flags.on Flags.nx k.2)
    else (ofSigned w x, Flags.on Flags.nx k.2)

/-- An integer as an exact value. -/
def FVal.ofInt (x : Int) : FVal := .fin (decide (x < 0)) x.natAbs 0

/-- An exact value times 2^k. -/
def FVal.scale (v : FVal) (k : Int) : FVal :=
  match v with
  | .fin neg m e => .fin neg m (e + k)
  | v => v

def FVal.isNan : FVal → Bool
  | .nan => true
  | _ => false

def FVal.isInf : FVal → Bool
  | .inf _ => true
  | _ => false

/-- Sign change (a NaN stays the canonical NaN). -/
def FVal.neg : FVal → FVal
  | .nan => .nan
  | .inf n => .inf !n
  | .fin n m e => .fin (!n) m e

/-- Magnitude. -/
def FVal.abs : FVal → FVal
  | .nan => .nan
  | .inf _ => .inf false
  | .fin _ m e => .fin false m e

/-- The sign, with that of zeros and infinities. -/
def FVal.sign : FVal → Bool
  | .nan => false
  | .inf n => n
  | .fin n _ _ => n

/-- Whether the value is a zero of either sign. -/
def FVal.isZero : FVal → Bool
  | .fin _ m _ => m == 0
  | _ => false

/-! ## Exact operations (R65, R70) -/

/-- Exact product; 0 × Inf is invalid. -/
def FVal.mul (a b : FVal) : FVal × Flags :=
  match a, b with
  | .nan, _ => (.nan, 0)
  | _, .nan => (.nan, 0)
  | .inf n, .inf k => (.inf (n != k), 0)
  | .inf n, .fin k m _ => if m = 0 then (.nan, Flags.iv) else (.inf (n != k), 0)
  | .fin n m _, .inf k => if m = 0 then (.nan, Flags.iv) else (.inf (n != k), 0)
  | .fin n m e, .fin k m' e' => (.fin (n != k) (m * m') (e + e'), 0)

/-- The least exponent of a list of finite values. -/
def minExp : List FVal → Int → Int
  | [], e => e
  | .fin _ _ e' :: l, e => minExp l (min e e')
  | _ :: l, e => minExp l e

/-- The signed multiple of 2^q that a finite value is, for q at most its exponent. -/
def FVal.toIntAt (v : FVal) (q : Int) : Int :=
  match v with
  | .fin neg m e => let k : Int := (m * 2 ^ (e - q).toNat : Nat); if neg then -k else k
  | _ => 0

/-- The exact sum of the terms (R65, R70, R76): NaN if a term is, invalid for infinities of both
signs, otherwise exact.  A zero sum is −0 when every term is negative, +0 when every term is
positive, and of the mode's sign otherwise. -/
def exactSum (rm : RM) (l : List FVal) : FVal × Flags :=
  if l.any FVal.isNan then (.nan, 0)
  else
    let infs := l.filter FVal.isInf
    match infs with
    | v :: _ => if infs.all (fun u => u.sign == v.sign) then (v, 0) else (.nan, Flags.iv)
    | [] =>
      let q := minExp l 0
      let t : Int := (l.map (fun v => v.toIntAt q)).sum
      if t = 0 then
        (.fin (if l.all (fun v => v.sign) then !l.isEmpty
               else if l.all (fun v => !v.sign) then false
               else rm == .rdn) 0 q, 0)
      else (.fin (decide (t < 0)) t.natAbs q, 0)

/-- Exact comparison a < b of values that are not NaN. -/
def FVal.lt (a b : FVal) : Bool :=
  match a, b with
  | .nan, _ => false
  | _, .nan => false
  | .inf n, .inf k => n && !k
  | .inf n, .fin _ _ _ => n
  | .fin _ _ _, .inf k => !k
  | a, b => let q := minExp [a, b] 0; decide (a.toIntAt q < b.toIntAt q)

/-- Exact equality of values that are not NaN; −0 equals +0. -/
def FVal.eqv (a b : FVal) : Bool := !a.isNan && !b.isNan && !a.lt b && !b.lt a

/-- R70 maximum: NaN if either is; the larger of −0 and +0 is +0. -/
def FVal.max (a b : FVal) : FVal :=
  if a.isNan || b.isNan then .nan
  else if a.lt b then b else if b.lt a then a
  else if a.sign then b else a

/-- R70 minimum: NaN if either is; the smaller of −0 and +0 is −0. -/
def FVal.min (a b : FVal) : FVal :=
  if a.isNan || b.isNan then .nan
  else if a.lt b then a else if b.lt a then b
  else if a.sign then a else b

/-- The quotient m₁ × 2^e₁ ÷ (m₂ × 2^e₂) with a last bit that is 1 exactly when the quotient is cut
short: enough places that one rounding of it is the rounding of the exact quotient. -/
def quotient (m₁ : Nat) (e₁ : Int) (m₂ : Nat) (e₂ : Int) : Nat × Int :=
  let s := 64 + Nat.log2 m₂
  let n := m₁ * 2 ^ s
  (2 * (n / m₂) + (if n % m₂ = 0 then 0 else 1), e₁ - e₂ - s - 1)

/-- Division with the invalid and divide-by-zero cases of R70. -/
def FVal.div (a b : FVal) : FVal × Flags :=
  match a, b with
  | .nan, _ => (.nan, 0)
  | _, .nan => (.nan, 0)
  | .inf _, .inf _ => (.nan, Flags.iv)
  | .inf n, .fin k _ _ => (.inf (n != k), 0)
  | .fin n _ _, .inf k => (.fin (n != k) 0 0, 0)
  | .fin n m e, .fin k m' e' =>
    if m' = 0 then (if m = 0 then (.nan, Flags.iv) else (.inf (n != k), Flags.dz))
    else let q := quotient m e m' e'; (.fin (n != k) q.1 q.2, 0)

/-- The integer square root below 2^fuel, by bits. -/
def isqrt : Nat → Nat → Nat → Nat
  | 0, _, acc => acc
  | fuel + 1, n, acc =>
    let c := acc + 2 ^ fuel
    isqrt fuel n (if c * c ≤ n then c else acc)

/-- Square root with a last bit that is 1 exactly when it is cut short (R70). -/
def FVal.sqrt (a : FVal) : FVal × Flags :=
  match a with
  | .nan => (.nan, 0)
  | .inf n => if n then (.nan, Flags.iv) else (.inf false, 0)
  | .fin n m e =>
    if m = 0 then (.fin n 0 e, 0)
    else if n then (.nan, Flags.iv)
    else
      let s : Nat := if (e - 96) % 2 = 0 then 96 else 97
      let x := m * 2 ^ s
      let r := isqrt 80 x 0
      (.fin false (2 * r + (if r * r = x then 0 else 1)) ((e - s) / 2 - 1), 0)

/-! ## Lane operations of the vector unit (03_sort.md Table 03-8) -/

/-- Which two-operand floating-point instruction (R105). -/
inductive FpOp | add | sub | mul | div
  deriving DecidableEq, Repr

/-- One lane of VADD, VSUB, VMUL, VDIV: exact, then one rounding. -/
def fpLane (f : FFmt) (op : FpOp) (rm : RM) (a b : Nat) : Nat × Flags :=
  let x := f.decode a
  let y := f.decode b
  let v := match op with
    | .add => exactSum rm [x, y]
    | .sub => exactSum rm [x, y.neg]
    | .mul => x.mul y
    | .div => x.div y
  let q := f.round rm v.1
  (q.1, q.2 ||| v.2)

/-- One lane of VSQRT. -/
def sqrtLane (f : FFmt) (rm : RM) (a : Nat) : Nat × Flags :=
  let v := (f.decode a).sqrt
  let q := f.round rm v.1
  (q.1, q.2 ||| v.2)

/-- One lane of VFMA (negProd false) or VFNMA (true): one rounding (R65). A NaN operand gives the
canonical NaN and raises nothing (R54, R70). -/
def fmaLane (f : FFmt) (negProd : Bool) (rm : RM) (a b c : Nat) : Nat × Flags :=
  let x := f.decode a
  let y := f.decode b
  let z := f.decode c
  if x.isNan || y.isNan || z.isNan then (f.nanCode, 0)
  else
    let p := x.mul y
    let v := exactSum rm [if negProd then p.1.neg else p.1, z]
    let q := f.round rm v.1
    (q.1, q.2 ||| v.2 ||| p.2)

/-- The horizontal sum of lanes, exact and rounded once (R65). -/
def hsum (f : FFmt) (rm : RM) (l : List Nat) : Nat × Flags :=
  let v := exactSum rm (l.map f.decode)
  let q := f.round rm v.1
  (q.1, q.2 ||| v.2)

/-- The largest lane under the rules of VMAX. -/
def hmax (f : FFmt) (l : List Nat) : Nat :=
  match l.map f.decode with
  | [] => 0
  | v :: vs => (f.round .rne (vs.foldl FVal.max v)).1

/-! ## Element formats (03_sort.md Table 03-5) and conversions (Table 02-7) -/

/-- An element format of Table 03-5. -/
inductive Elem | f (fmt : FFmt) | int (w : Nat) | mxint8
  deriving DecidableEq, Repr

/-- The 4-bit code of Table 03-5; reserved codes give none. -/
def Elem.ofCode : Nat → Option Elem
  | 0 => some (.f fp32)
  | 1 => some (.f bf16)
  | 2 => some (.f fp16)
  | 3 => some (.f e4m3)
  | 4 => some (.f e5m2)
  | 5 => some (.f e2m3)
  | 6 => some (.f e3m2)
  | 7 => some (.f e2m1)
  | 8 => some (.int 32)
  | 9 => some (.int 8)
  | 10 => some (.int 4)
  | 11 => some .mxint8
  | _ => none

/-- Bits of an element as it sits in a register (R56). -/
def Elem.width : Elem → Nat
  | .f fmt => fmt.width
  | .int w => w
  | .mxint8 => 8

/-- Elements per vector register (Table 03-5: FP6 fills bytes 0 to 47). -/
def Elem.perReg (e : Elem) : Nat := if e.width = 6 then 64 else 512 / e.width

/-- The exact value of an element. -/
def Elem.decode (e : Elem) (x : Nat) : FVal :=
  match e with
  | .f fmt => fmt.decode x
  | .int w => FVal.ofInt (toSigned w x)
  | .mxint8 => (FVal.ofInt (toSigned 8 x)).scale (-6)

/-- The pairs of Table 02-7 that involve no MX scale, by the 4-bit codes (R66, R107). -/
def cvtListed (src tgt : Nat) : Bool :=
  match src, tgt with
  | 1, 0 | 2, 0 | 3, 0 | 4, 0 | 5, 0 | 6, 0 | 7, 0 => true
  | 3, 2 | 3, 1 | 4, 2 | 4, 1 => true
  | 0, 1 | 0, 2 | 1, 2 | 2, 1 => true
  | 0, 3 | 0, 4 | 1, 3 | 1, 4 | 2, 3 | 2, 4 => true
  | 0, 8 | 0, 9 | 0, 10 | 1, 8 | 1, 9 | 1, 10 | 2, 8 | 2, 9 | 2, 10 => true
  | 9, 0 | 9, 1 | 9, 2 | 10, 0 | 10, 1 | 10, 2 => true
  | 8, 0 | 8, 9 | 8, 10 | 9, 8 | 10, 8 => true
  | _, _ => false

/-- Whether a conversion pair rounds a value that may be inexact, so that RSR draws for it. -/
def cvtElem (src tgt : Elem) (rm : RM) (r : Nat) (o : CvtOpt) (x : Nat) : Nat × Flags :=
  match tgt with
  | .f fmt => fmt.encode rm r o (src.decode x)
  | .int w => encodeInt w rm r (src.decode x)
  | .mxint8 => (0, 0)

/-! ## Microscaling blocks (R57, R59, R66) -/

/-- An MX element type of the 3-bit codes of Table 03-5. -/
inductive MxElem | f (fmt : FFmt) | int8
  deriving DecidableEq, Repr

def MxElem.ofCode : Nat → Option MxElem
  | 0 => some (.f e4m3)
  | 1 => some (.f e5m2)
  | 2 => some (.f e2m3)
  | 3 => some (.f e3m2)
  | 4 => some (.f e2m1)
  | 5 => some .int8
  | _ => none

def MxElem.width : MxElem → Nat
  | .f fmt => fmt.width
  | .int8 => 8

/-- emax of R59. -/
def MxElem.emax : MxElem → Int
  | .f fmt => if fmt = e4m3 then 8 else if fmt = e5m2 then 15 else if fmt = e3m2 then 4 else 2
  | .int8 => 0

/-- The value of an element under a scale byte: P × 2^(X − 127), NaN under scale 0xFF (R57). -/
def MxElem.decode (e : MxElem) (scale x : Nat) : FVal :=
  if scale = 0xFF then .nan
  else match e with
    | .f fmt => (fmt.decode x).scale ((scale : Int) - 127)
    | .int8 => (FVal.ofInt (toSigned 8 x)).scale ((scale : Int) - 133)

/-- floor(log2 |v|) of a nonzero finite value. -/
def FVal.ilog2 : FVal → Int
  | .fin _ m e => Nat.log2 m + e
  | _ => 0

/-- The largest floor(log2 |v|) of the nonzero values, none when all are zero. -/
def maxLog : List FVal → Option Int
  | [] => none
  | v :: l =>
    if v.isZero then maxLog l
    else match maxLog l with
      | none => some v.ilog2
      | some k => some (max k v.ilog2)

/-- One element of a quantised block: v × 2^−X, converted by RM, always saturating (R59 step 4). -/
def mxElemQ (e : MxElem) (rm : RM) (r : Nat) (v : FVal) (x : Int) : Nat × Flags :=
  match e with
  | .f fmt => fmt.encode rm r ⟨true, false⟩ (v.scale (-x))
  | .int8 => encodeInt 8 rm r (v.scale (6 - x))

/-- R59: the scale byte, the element codes and the flags of a block.  rs holds the random words of
the elements for RSR. -/
def mxQuantise (e : MxElem) (rm : RM) (rs : List Nat) (vs : List FVal) : Nat × List Nat × Flags :=
  if vs.any (fun v => v.isNan || v.isInf) then (0xFF, vs.map (fun _ => 0), 0)
  else match maxLog vs with
    | none => (0, vs.map (fun _ => 0), 0)
    | some k =>
      let x := max (-127) (min 127 (k - e.emax))
      let q := (vs.zip rs).map (fun p => mxElemQ e rm p.2 p.1 x)
      ((x + 127).toNat, q.map (·.1), (q.map (·.2)).foldl (· ||| ·) 0)

/-! ## Matrix unit (R75 to R77, 03_sort.md R109) -/

/-- An operand pair of Table 02-10 with K and the operand layout of Table 03-10: bits of a row. -/
structure MmaKind where
  k : Nat
  rowBits : Nat
  pair : Bool
  intAcc : Bool
  deriving DecidableEq, Repr

/-- The legal combinations of formats and the MX bit (Table 02-10, R109). -/
def mmaKind (afmt bfmt : Nat) (mx : Bool) : Option MmaKind :=
  match mx, afmt, bfmt with
  | _, 3, 3 | _, 3, 4 | _, 4, 3 | _, 4, 4 => some ⟨8, 64, false, false⟩
  | true, 5, 5 | true, 5, 6 | true, 6, 5 | true, 6, 6 => some ⟨8, 48, false, false⟩
  | true, 11, 11 => some ⟨8, 64, false, false⟩
  | true, 7, 7 => some ⟨16, 64, false, false⟩
  | false, 9, 9 => some ⟨8, 64, false, true⟩
  | false, 10, 10 => some ⟨16, 64, false, true⟩
  | false, 1, 1 | false, 2, 2 => some ⟨8, 128, true, false⟩
  | _, _, _ => none

/-- Row i of an operand: K element codes (Table 03-10). -/
def mmaRow (kd : MmaKind) (w x i : Nat) : List Nat :=
  lanes w kd.k (x / 2 ^ (kd.rowBits * i))

/-- One floating-point dot product with the accumulator, rounded once to FP32 (R76).  A NaN operand,
scale or accumulator gives the canonical NaN with no flag. -/
def mmaDot (ea eb : Elem) (sa sb : Option Nat) (a b : List Nat) (c : Nat) : Nat × Flags :=
  let xs : Int := (match sa with | none => 0 | some s => (s : Int) - 127)
    + (match sb with | none => 0 | some s => (s : Int) - 127)
  let av := a.map ea.decode
  let bv := b.map eb.decode
  let cv := fp32.decode c
  if sa = some 0xFF ∨ sb = some 0xFF ∨ cv.isNan ∨ av.any FVal.isNan ∨ bv.any FVal.isNan then
    (fp32.nanCode, 0)
  else
    let ps := (av.zip bv).map (fun p => p.1.mul p.2)
    let iv := (ps.map (·.2)).foldl (· ||| ·) 0
    let v := exactSum .rne (cv :: ps.map (fun p => p.1.scale xs))
    let q := fp32.round .rne v.1
    (q.1, q.2 ||| v.2 ||| iv)

/-- One integer dot product with the accumulator, clamped to 32 bits (R77). -/
def mmaDotInt (w : Nat) (a b : List Nat) (c : Nat) : Nat × Flags :=
  let t : Int := toSigned 32 c + ((a.zip b).map (fun p => toSigned w p.1 * toSigned w p.2)).sum
  if 2 ^ 31 - 1 < t then (2 ^ 31 - 1, Flags.sat)
  else if t < -(2 ^ 31) then (2 ^ 31, Flags.sat)
  else (ofSigned 32 t, 0)

/-- One MMA on a tile: element C[i][j] at 32-bit place 8i + j (03_sort.md Table 03-1). -/
def mmaTile (kd : MmaKind) (ea eb : Elem) (mx : Bool) (xa xb va vb tile : Nat) : Nat × Flags :=
  let cells := (List.range 64).map (fun n =>
    let i := n / 8
    let j := n % 8
    let a := mmaRow kd ea.width va i
    let b := mmaRow kd eb.width vb j
    let c := lane 32 tile n
    if kd.intAcc then mmaDotInt ea.width a b c
    else mmaDot ea eb (if mx then some (lane 8 xa i) else none)
      (if mx then some (lane 8 xb j) else none) a b c)
  (packLanes 32 (cells.map (·.1)), (cells.map (·.2)).foldl (· ||| ·) 0)

/-! ## Pooling in the platen (R79 to R86) -/

/-- One element position of a bag: the exact window sum in units of 2^−80, the signs seen above the
window, the POOL flags, and the largest value for MAX. -/
structure PoolAcc where
  sum : Int
  abovePos : Bool
  aboveNeg : Bool
  under : Bool
  nan : Bool
  best : Option FVal
  deriving DecidableEq, Repr

def PoolAcc.zero : PoolAcc := ⟨0, false, false, false, false, none⟩

/-- R80: one term enters the accumulator. -/
def PoolAcc.add (p : PoolAcc) (t : FVal) : PoolAcc :=
  match t with
  | .nan => { p with nan := true }
  | .inf neg => if neg then { p with aboveNeg := true } else { p with abovePos := true }
  | .fin neg m e =>
    if magLt m e 1 79 then
      let k := roundAt .rtz 0 neg m e (-80)
      { p with sum := p.sum + (if neg then -(k.1 : Int) else k.1), under := p.under || k.2 }
    else if neg then { p with aboveNeg := true } else { p with abovePos := true }

/-- R83: one value enters a MAX position. -/
def PoolAcc.addMax (p : PoolAcc) (t : FVal) : PoolAcc :=
  if t.isNan then { p with nan := true }
  else match p.best with
    | none => { p with best := some t }
    | some b => { p with best := some (b.max t) }

/-- The pooling operations of a list header (R79, R82, R83). -/
inductive PoolOp | sum | wsum | mean | max
  deriving DecidableEq, Repr

/-- Whether the settled value is finite, whatever its encoding (for OUT_SAT of R86). -/
def FVal.isFin : FVal → Bool
  | .fin _ _ _ => true
  | _ => false

/-- The four result flags of R86: POOL_SAT 0, POOL_UNDER 1, POOL_NAN 2, OUT_SAT 3. -/
abbrev PoolFlags := BitVec 4

/-- The final rounding of a settled value and OUT_SAT: set when it overflowed, saturated, or gave a
NaN from a finite value (R82 step 4, R86). -/
def poolRound (f : FFmt) (o : CvtOpt) (v : FVal) : Nat × Bool :=
  let q := f.encode .rne 0 o v
  (q.1, decide ((q.2 &&& (Flags.ovf ||| Flags.sat)) ≠ 0)
    || (v.isFin && (f.decode q.1).isNan))

/-- R82 to R84: the settled element and its flags, for a bag of n contributing lookups. -/
def PoolAcc.settle (p : PoolAcc) (op : PoolOp) (n : Nat) (f : FFmt) (o : CvtOpt) : Nat × PoolFlags :=
  if n = 0 then (0, 0)
  else if op = .max then
    if p.nan then (f.nanCode, 4)
    else match p.best with
      | none => (0, 0)
      | some v => let q := poolRound f o v; (q.1, if q.2 then 8 else 0)
  else
    let big : Int := 2 ^ 159
    let out := decide (big ≤ p.sum) || decide (p.sum ≤ -big)
    let fl : PoolFlags := (if p.abovePos || p.aboveNeg then 1 else 0)
      ||| (if p.under then 2 else 0) ||| (if p.nan then 4 else 0)
    if p.nan || (p.abovePos && p.aboveNeg) then (f.nanCode, fl)
    else if p.abovePos || p.aboveNeg || out then
      let neg := if p.abovePos || p.aboveNeg then p.aboveNeg else decide (p.sum < 0)
      let q := poolRound f o (.fin neg 1 79)
      (q.1, fl ||| 1 ||| (if q.2 then 8 else 0))
    else if p.sum = 0 then (0, fl)
    else
      let neg := decide (p.sum < 0)
      let v := if op = .mean then
          let q := quotient p.sum.natAbs (-80) n 0
          FVal.fin neg q.1 q.2
        else FVal.fin neg p.sum.natAbs (-80)
      let q := poolRound f o v
      (q.1, fl ||| (if q.2 then 8 else 0))

/-- R62: element of an SQ row: scale × code + bias, exact, with the sign of an exact zero. -/
def sqElem (scale bias c : Nat) : FVal :=
  let s := fp16.decode scale
  let b := fp16.decode bias
  if s.isNan || s.isInf || b.isNan || b.isInf then .nan
  else (exactSum .rne [(s.mul (.fin false c 0)).1, b]).1

/-- R79: the exact term of a row element under a weight. 0 × Inf gives a NaN term. -/
def weighted (v : FVal) (w : Nat) : FVal := (v.mul (fp16.decode w)).1

end Sys2Proof.Machine
end

