-- ==== Sys2Proof/Machine/Store.lean ====
section
/-! DEFINITION. The named operations over sparse tables and byte stores, and the little-endian byte
order of the spec (00_scope.md R11). -/

namespace Sys2Proof.Machine

/-! ## Sparse tables -/

/-- The thing under a key. -/
def tget {α : Type} (t : Tab α) (k : Nat) : Option α :=
  match t with
  | [] => none
  | (k', v) :: r => if k' = k then some v else tget r k

/-- Put a thing under a key, keys strictly rising. -/
def tput {α : Type} (t : Tab α) (k : Nat) (v : α) : Tab α :=
  match t with
  | [] => [(k, v)]
  | (k', v') :: r =>
    if k < k' then (k, v) :: (k', v') :: r
    else if k' = k then (k, v) :: r
    else (k', v') :: tput r k v

/-- Remove a key. -/
def tdel {α : Type} (t : Tab α) (k : Nat) : Tab α := t.filter (fun p => p.1 ≠ k)

/-- Change the thing under a key, if there is one. -/
def tmod {α : Type} (t : Tab α) (k : Nat) (f : α → α) : Tab α :=
  t.map (fun p => if p.1 = k then (p.1, f p.2) else p)

/-- Change every thing. -/
def tmap {α : Type} (t : Tab α) (f : Nat → α → α) : Tab α := t.map (fun p => (p.1, f p.1 p.2))

/-- Whether a key is present. -/
def thas {α : Type} (t : Tab α) (k : Nat) : Bool := (tget t k).isSome

/-- Keep the things that meet a condition. -/
def tkeep {α : Type} (t : Tab α) (p : Nat → α → Bool) : Tab α := t.filter (fun q => p q.1 q.2)

/-- The lowest number below `n`, from `i` on, that is not a key; `n` when all are taken. -/
def lowestFree {α : Type} (t : Tab α) : Nat → Nat → Option Nat
  | 0, _ => none
  | fuel + 1, i => if thas t i then lowestFree t fuel (i + 1) else some i

/-! ## Byte stores -/

/-- The byte at an address; an unlisted address reads as 0. -/
def mget (m : Mem) (a : Nat) : Byte :=
  match m with
  | [] => 0
  | (a', b) :: r => if a' = a then b else mget r a

/-- Write one byte, keeping the canonical form: writing 0 removes the entry. -/
def mput (m : Mem) (a : Nat) (b : Byte) : Mem :=
  match m with
  | [] => if b = 0 then [] else [(a, b)]
  | (a', b') :: r =>
    if a < a' then (if b = 0 then (a', b') :: r else (a, b) :: (a', b') :: r)
    else if a' = a then (if b = 0 then r else (a, b) :: r)
    else (a', b') :: mput r a b

/-- The canonical form: addresses strictly rising and no entry 0. -/
def memWf : Mem → Bool
  | [] => true
  | [(_, b)] => b != 0
  | (a, b) :: (a', b') :: r => b != 0 && decide (a < a') && memWf ((a', b') :: r)

/-- n bytes from an address. -/
def mread (m : Mem) (a n : Nat) : List Byte := (List.range n).map (fun i => mget m (a + i))

/-- Write bytes from an address. -/
def mwrite (m : Mem) (a : Nat) : List Byte → Mem
  | [] => m
  | b :: l => mwrite (mput m a b) (a + 1) l

/-- Set the n bytes from an address to 0. -/
def mclear (m : Mem) (a n : Nat) : Mem := m.filter (fun p => decide (p.1 < a ∨ a + n ≤ p.1))

/-- Keep only the n bytes from an address. -/
def mslice (m : Mem) (a n : Nat) : Mem := m.filter (fun p => decide (a ≤ p.1 ∧ p.1 < a + n))

/-- The n bytes from `src` of one store copied to `dst` of another: bytes that read as 0 are written
as 0 too. -/
def mcopy (from_ : Mem) (src : Nat) (to_ : Mem) (dst n : Nat) : Mem :=
  (mslice from_ src n).foldl (fun t p => mput t (p.1 - src + dst) p.2) (mclear to_ dst n)

/-- The little-endian value of bytes (R11). -/
def leNat : List Byte → Nat
  | [] => 0
  | b :: l => b.toNat + 256 * leNat l

/-- The n little-endian bytes of a value (R11). -/
def toLE : Nat → Nat → List Byte
  | 0, _ => []
  | n + 1, x => BitVec.ofNat 8 x :: toLE n (x / 256)

/-- The little-endian n-byte value at an address. -/
def mload (m : Mem) (a n : Nat) : Nat := leNat (mread m a n)

/-- Write an n-byte value little-endian. -/
def mstore (m : Mem) (a n x : Nat) : Mem := mwrite m a (toLE n x)

/-- The n-byte little-endian field at an offset of a structure held as bytes. -/
def field (l : List Byte) (off n : Nat) : Nat := leNat ((l.drop off).take n)

/-- Whether [a, a + n) meets [b, b + m). -/
def overlaps (a n b m : Nat) : Bool := decide (a < b + m) && decide (b < a + n)

/-- x rounded up to a multiple of n. -/
def roundUp (x n : Nat) : Nat := (x + n - 1) / n * n

/-- The 64-byte chunks of a racing read (04_galleys.md R161): each chunk whole from the old or the new
bytes; `pick i` says for chunk i that the new one is returned. -/
def raceChunks (pick : Nat → Bool) : Nat → Nat → List Byte → List Byte → List Byte
  | 0, _, _, _ => []
  | fuel + 1, i, old, new =>
    if new.isEmpty then []
    else (if pick i then new.take 64 else old.take 64)
      ++ raceChunks pick fuel (i + 1) (old.drop 64) (new.drop 64)

/-- Remove the first element that meets a condition. -/
def eraseFirst {α : Type} (p : α → Bool) : List α → List α
  | [] => []
  | a :: l => if p a then l else a :: eraseFirst p l

/-- Change element i of a vector, when there is one. -/
def vset {α : Type} {n : Nat} (v : Vector α n) (i : Nat) (x : α) : Vector α n :=
  if h : i < n then v.set i x h else v

/-- Element i of a vector, or a default. -/
def vget {α : Type} {n : Nat} (v : Vector α n) (i : Nat) (d : α) : α := (v[i]?).getD d

end Sys2Proof.Machine
end

