-- ==== Sys2Proof/Machine/Crypto.lean ====
section
/-! DEFINITION. The standard functions that the spec names without restating them: SHA-384 (FIPS 180-4),
HMAC (FIPS 198-1), AES-256 (FIPS 197) in Galois/counter mode (NIST SP 800-38D), and P-384 with ECDSA (FIPS 186-5,
NIST SP 800-56A).  15_security.md R518 to R548, 10_queues.md R350, 12_host_port.md R435, 13_network.md R461,
16_dictionary.md R563.  PRESUMED: their text is taken from the standards, not from the spec (log entry 6). -/

namespace Sys2Proof.Machine

/-- Big-endian bytes of a number. -/
def toBE (n x : Nat) : List Byte := (toLE n x).reverse

/-- A big-endian value, and a big-endian field. -/
def beNat (l : List Byte) : Nat := leNat l.reverse
def beField (l : List Byte) (off n : Nat) : Nat := beNat ((l.drop off).take n)

/-! ## SHA-384 -/

/-- The eight working variables. -/
structure ShaSt where
  a : W64
  b : W64
  c : W64
  d : W64
  e : W64
  f : W64
  g : W64
  h : W64
  deriving DecidableEq, Repr

def shaInit : ShaSt :=
  ⟨0xcbbb9d5dc1059ed8, 0x629a292a367cd507, 0x9159015a3070dd17, 0x152fecd8f70e5939,
   0x67332667ffc00b31, 0x8eb44a8768581511, 0xdb0c2e0d64f98fa7, 0x47b5481dbefa4fa4⟩

/-- Round constants: fractional parts of the cube roots of the first 80 primes. -/
def shaK : List W64 :=
  [0x428a2f98d728ae22, 0x7137449123ef65cd, 0xb5c0fbcfec4d3b2f, 0xe9b5dba58189dbbc,
   0x3956c25bf348b538, 0x59f111f1b605d019, 0x923f82a4af194f9b, 0xab1c5ed5da6d8118,
   0xd807aa98a3030242, 0x12835b0145706fbe, 0x243185be4ee4b28c, 0x550c7dc3d5ffb4e2,
   0x72be5d74f27b896f, 0x80deb1fe3b1696b1, 0x9bdc06a725c71235, 0xc19bf174cf692694] ++
  [0xe49b69c19ef14ad2, 0xefbe4786384f25e3, 0x0fc19dc68b8cd5b5, 0x240ca1cc77ac9c65,
   0x2de92c6f592b0275, 0x4a7484aa6ea6e483, 0x5cb0a9dcbd41fbd4, 0x76f988da831153b5,
   0x983e5152ee66dfab, 0xa831c66d2db43210, 0xb00327c898fb213f, 0xbf597fc7beef0ee4,
   0xc6e00bf33da88fc2, 0xd5a79147930aa725, 0x06ca6351e003826f, 0x142929670a0e6e70] ++
  [0x27b70a8546d22ffc, 0x2e1b21385c26c926, 0x4d2c6dfc5ac42aed, 0x53380d139d95b3df,
   0x650a73548baf63de, 0x766a0abb3c77b2a8, 0x81c2c92e47edaee6, 0x92722c851482353b,
   0xa2bfe8a14cf10364, 0xa81a664bbc423001, 0xc24b8b70d0f89791, 0xc76c51a30654be30,
   0xd192e819d6ef5218, 0xd69906245565a910, 0xf40e35855771202a, 0x106aa07032bbd1b8] ++
  [0x19a4c116b8d2d0c8, 0x1e376c085141ab53, 0x2748774cdf8eeb99, 0x34b0bcb5e19b48a8,
   0x391c0cb3c5c95a63, 0x4ed8aa4ae3418acb, 0x5b9cca4f7763e373, 0x682e6ff3d6b2b8a3,
   0x748f82ee5defb2fc, 0x78a5636f43172f60, 0x84c87814a1f0ab72, 0x8cc702081a6439ec,
   0x90befffa23631e28, 0xa4506cebde82bde9, 0xbef9a3f7b2c67915, 0xc67178f2e372532b] ++
  [0xca273eceea26619c, 0xd186b8c721c0c207, 0xeada7dd6cde0eb1e, 0xf57d4f7fee6ed178,
   0x06f067aa72176fba, 0x0a637dc5a2c898a6, 0x113f9804bef90dae, 0x1b710b35131c471b,
   0x28db77f523047d84, 0x32caab7b40c72493, 0x3c9ebe0a15c9bebc, 0x431d67c49c100d4c,
   0x4cc5d4becb3e42b6, 0x597f299cfc657e2a, 0x5fcb6fab3ad6faec, 0x6c44198c4a475817]

def shaBig0 (x : W64) : W64 := x.rotateRight 28 ^^^ x.rotateRight 34 ^^^ x.rotateRight 39
def shaBig1 (x : W64) : W64 := x.rotateRight 14 ^^^ x.rotateRight 18 ^^^ x.rotateRight 41
def shaSmall0 (x : W64) : W64 := x.rotateRight 1 ^^^ x.rotateRight 8 ^^^ (x >>> 7)
def shaSmall1 (x : W64) : W64 := x.rotateRight 19 ^^^ x.rotateRight 61 ^^^ (x >>> 6)

/-- One round with its constant and message word. -/
def ShaSt.round (x : ShaSt) (k w : W64) : ShaSt :=
  let t1 := x.h + shaBig1 x.e + ((x.e &&& x.f) ^^^ (~~~x.e &&& x.g)) + k + w
  let t2 := shaBig0 x.a + ((x.a &&& x.b) ^^^ (x.a &&& x.c) ^^^ (x.b &&& x.c))
  ⟨t1 + t2, x.a, x.b, x.c, x.d + t1, x.e, x.f, x.g⟩

/-- The next word of the message schedule after a window of 16. -/
def shaNext (w : List W64) : W64 :=
  shaSmall1 (w.getD 14 0) + w.getD 9 0 + shaSmall0 (w.getD 1 0) + w.getD 0 0

/-- The rounds for the remaining constants, with the window of the next 16 message words. -/
def shaRounds : List W64 → List W64 → ShaSt → ShaSt
  | [], _, x => x
  | k :: ks, w, x => shaRounds ks (w.drop 1 ++ [shaNext w]) (x.round k (w.getD 0 0))

def ShaSt.add (x y : ShaSt) : ShaSt :=
  ⟨x.a + y.a, x.b + y.b, x.c + y.c, x.d + y.d, x.e + y.e, x.f + y.f, x.g + y.g, x.h + y.h⟩

/-- The 16 big-endian words of a block of 128 bytes. -/
def shaWords (l : List Byte) : List W64 := (List.range 16).map (fun i => BitVec.ofNat 64 (beField l (8 * i) 8))

/-- The blocks of a padded message, by their number. -/
def shaBlocks : Nat → List Byte → ShaSt → ShaSt
  | 0, _, x => x
  | n + 1, l, x => shaBlocks n (l.drop 128) (x.add (shaRounds shaK (shaWords (l.take 128)) x))

/-- SHA-384 of bytes, as a big-endian number. -/
@[irreducible] def sha384 (l : List Byte) : Nat :=
  let p := l ++ [0x80] ++ List.replicate ((239 - l.length % 128) % 128) 0 ++ toBE 16 (8 * l.length)
  let x := shaBlocks (p.length / 128) p shaInit
  [x.a, x.b, x.c, x.d, x.e, x.f].foldl (fun n w => n * 2 ^ 64 + w.toNat) 0

/-- HMAC-SHA-384 of a key and bytes. -/
@[irreducible] def hmac384 (key l : List Byte) : Nat :=
  let k := if 128 < key.length then toBE 48 (sha384 key) else key
  let k := k ++ List.replicate (128 - k.length) 0
  sha384 (k.map (· ^^^ 0x5C) ++ toBE 48 (sha384 (k.map (· ^^^ 0x36) ++ l)))

/-! ## AES-256 -/

/-- Multiplication by x in the field of FIPS 197. -/
def aesX (b : Byte) : Byte := if b.msb then (b <<< 1) ^^^ 0x1B else b <<< 1

/-- Product in the field, over the bits of the second factor. -/
def aesMulBits : Nat → Byte → Byte → Byte
  | 0, _, _ => 0
  | n + 1, a, b => (if b.getLsbD 0 then a else 0) ^^^ aesMulBits n (aesX a) (b >>> 1)

def aesMul (a b : Byte) : Byte := aesMulBits 8 a b

/-- The inverse, as the 254th power; 0 for 0. -/
def aesInv (a : Byte) : Byte :=
  let a2 := aesMul a a
  let a4 := aesMul a2 a2
  let a8 := aesMul a4 a4
  let a16 := aesMul a8 a8
  let a32 := aesMul a16 a16
  let a64 := aesMul a32 a32
  let a128 := aesMul a64 a64
  aesMul a2 (aesMul a4 (aesMul a8 (aesMul a16 (aesMul a32 (aesMul a64 a128)))))

/-- SubBytes of one byte. -/
def aesSub (a : Byte) : Byte :=
  let b := aesInv a
  b ^^^ b.rotateLeft 1 ^^^ b.rotateLeft 2 ^^^ b.rotateLeft 3 ^^^ b.rotateLeft 4 ^^^ 0x63

def xorBytes (a b : List Byte) : List Byte := List.zipWith (· ^^^ ·) a b

/-- Key expansion: words from the last backwards, by the number of the word. -/
def aesExpand (key : List Byte) : Nat → List (List Byte)
  | 0 => []
  | n + 1 =>
    let ws := aesExpand key n
    let i := n
    if i < 8 then (key.drop (4 * i)).take 4 :: ws
    else
      let t := ws.headD []
      let t := if i % 8 = 0 then
          let r := (t.drop 1 ++ t.take 1).map aesSub
          xorBytes r [BitVec.ofNat 8 (2 ^ (i / 8 - 1)), 0, 0, 0]
        else if i % 8 = 4 then t.map aesSub else t
      xorBytes (ws.getD 7 []) t :: ws

/-- The 15 round keys of 16 bytes. -/
def aesRoundKeys (key : List Byte) : List (List Byte) :=
  let ws := (aesExpand key 60).reverse
  (List.range 15).map (fun r => ((ws.drop (4 * r)).take 4).flatten)

/-- ShiftRows on the 16 bytes in column order. -/
def aesShift (l : List Byte) : List Byte := (List.range 16).map (fun i => l.getD ((i + 4 * (i % 4)) % 16) 0)

/-- MixColumns of one column. -/
def aesColumn (l : List Byte) : List Byte :=
  (List.range 4).map (fun r =>
    let x (k : Nat) := l.getD ((r + k) % 4) 0
    aesX (x 0) ^^^ (aesX (x 1) ^^^ x 1) ^^^ x 2 ^^^ x 3)

def aesMix (l : List Byte) : List Byte :=
  (List.range 4).flatMap (fun c => aesColumn ((l.drop (4 * c)).take 4))

/-- The rounds after the first key: every one but the last mixes columns. -/
def aesRounds : List (List Byte) → List Byte → List Byte
  | [], x => x
  | [k], x => xorBytes (aesShift (x.map aesSub)) k
  | k :: ks, x => aesRounds ks (xorBytes (aesMix (aesShift (x.map aesSub))) k)

/-- AES-256 of one block under expanded keys. -/
def aesBlock (rk : List (List Byte)) (x : List Byte) : List Byte :=
  aesRounds (rk.drop 1) (xorBytes x (rk.headD []))

/-! ## Galois/counter mode with a 96-bit IV -/

/-- Product of GHASH's field: the bits of x from its most significant, the other factor shifted along. -/
def ghashMul : Nat → BitVec 128 → BitVec 128 → BitVec 128 → BitVec 128
  | 0, _, _, z => z
  | n + 1, x, v, z =>
    ghashMul n (x <<< 1) (if v.getLsbD 0 then (v >>> 1) ^^^ (0xE1#128 <<< 120) else v >>> 1) (if x.msb then z ^^^ v else z)

/-- GHASH over whole blocks, by their number. -/
def ghash (h : BitVec 128) : Nat → List Byte → BitVec 128 → BitVec 128
  | 0, _, y => y
  | n + 1, l, y => ghash h n (l.drop 16) (ghashMul 128 (y ^^^ BitVec.ofNat 128 (beNat (l.take 16))) h 0)

/-- Zeros up to a whole number of blocks. -/
def padBlock (l : List Byte) : List Byte := l ++ List.replicate ((16 - l.length % 16) % 16) 0

/-- The keystream block of a counter value. -/
def gcmCounter (rk : List (List Byte)) (iv n : Nat) : List Byte := aesBlock rk (toBE 12 iv ++ toBE 4 n)

/-- Plaintext to ciphertext and back: exclusive or with the keystream. The IV's bits [95:88] are its first byte. -/
@[irreducible] def gcmXor (key iv : Nat) (l : List Byte) : List Byte :=
  let rk := aesRoundKeys (toBE 32 key)
  xorBytes l ((List.range ((l.length + 15) / 16)).flatMap (fun i => gcmCounter rk iv (i + 2)))

/-- The 16 bytes of the tag over authenticated bytes and plaintext, as a little-endian number. -/
@[irreducible] def gcmTag (key iv : Nat) (aad pt : List Byte) : Nat :=
  let rk := aesRoundKeys (toBE 32 key)
  let h := BitVec.ofNat 128 (beNat (aesBlock rk (List.replicate 16 0)))
  let ct := gcmXor key iv pt
  let l := padBlock aad ++ padBlock ct ++ toBE 8 (8 * aad.length) ++ toBE 8 (8 * ct.length)
  let y := ghash h (l.length / 16) l 0
  leNat (xorBytes (toBE 16 y.toNat) (gcmCounter rk iv 1))

/-! ## P-384 -/

def p384P : Nat := 2 ^ 384 - 2 ^ 128 - 2 ^ 96 + 2 ^ 32 - 1
def p384B : Nat :=
  0xb3312fa7e23ee7e4988e056be3f82d19181d9c6efe8141120314088f5013875ac656398d8a2ed19d2a85c8edd3ec2aef
def p384Gx : Nat :=
  0xaa87ca22be8b05378eb1c71ef320ad746e1d3b628ba79b9859f741e082542a385502f25dbf55296c3a545e3872760ab7
def p384Gy : Nat :=
  0x3617de4a96262c6f5d9e98bf9292dc29f8f41dbd289a147ce9da3113b5f0b8c00a60b1ce1d7e819d7a431d7c90ea0e5f

/-- Order of the group (15_security.md R525, FIPS 186-5). -/
def p384Order : Nat :=
  0xffffffffffffffffffffffffffffffffffffffffffffffffc7634d81f4372ddf581a0db248b0a77aecec196accc52973

/-- x to the power e modulo m, over e's lowest n bits. -/
def powMod (m : Nat) : Nat → Nat → Nat → Nat
  | 0, _, _ => 1 % m
  | n + 1, x, e => let r := powMod m n (x * x % m) (e / 2); if e % 2 = 1 then r * x % m else r

/-- The inverse modulo a prime of 384 bits. -/
def invMod (m x : Nat) : Nat := powMod m 384 (x % m) (m - 2)

/-- A point in Jacobian coordinates; z = 0 for the point at infinity. -/
structure EcPt where
  x : Nat
  y : Nat
  z : Nat
  deriving DecidableEq, Repr

def ecSub (a b : Nat) : Nat := (a + p384P - b % p384P) % p384P

def EcPt.double (q : EcPt) : EcPt :=
  let p := p384P
  let zz := q.z * q.z % p
  let m := 3 * (ecSub q.x zz * ((q.x + zz) % p) % p) % p
  let yy := q.y * q.y % p
  let s := 4 * q.x * yy % p
  let x := ecSub (m * m % p) (2 * s)
  ⟨x, ecSub (m * ecSub s x % p) (8 * yy * yy), 2 * q.y * q.z % p⟩

def EcPt.add (q r : EcPt) : EcPt :=
  let p := p384P
  if q.z = 0 then r else if r.z = 0 then q
  else
    let z1 := q.z * q.z % p
    let z2 := r.z * r.z % p
    let u1 := q.x * z2 % p
    let u2 := r.x * z1 % p
    let s1 := q.y * z2 * r.z % p
    let s2 := r.y * z1 * q.z % p
    if u1 = u2 then (if s1 = s2 then q.double else ⟨1, 1, 0⟩)
    else
      let h := ecSub u2 u1
      let t := ecSub s2 s1
      let hh := h * h % p
      let hhh := h * hh % p
      let v := u1 * hh % p
      let x := ecSub (ecSub (t * t % p) hhh) (2 * v)
      ⟨x, ecSub (t * ecSub v x % p) (s1 * hhh), h * q.z * r.z % p⟩

/-- A multiple of a point, over the lowest n bits of the factor. -/
def ecMul : Nat → Nat → EcPt → EcPt
  | 0, _, _ => ⟨1, 1, 0⟩
  | n + 1, k, q => let r := ecMul n (k / 2) q.double; if k % 2 = 1 then r.add q else r

/-- Affine coordinates; (0, 0) at infinity. -/
def EcPt.affine (q : EcPt) : Nat × Nat :=
  let i := invMod p384P q.z
  (q.x * i * i % p384P, q.y * i * i * i % p384P)

def ecBase : EcPt := ⟨p384Gx, p384Gy, 1⟩

/-- A public key X ‖ Y as a point. -/
def ecPoint (pub : Nat) : EcPt := ⟨pub / 2 ^ 384, pub % 2 ^ 384, 1⟩

/-- The public key X ‖ Y of a private scalar. -/
@[irreducible] def ecPublic (d : Nat) : Nat :=
  let a := (ecMul 384 d ecBase).affine
  a.1 * 2 ^ 384 + a.2

/-- Full validation of a public key: coordinates in range, on the curve, no point at infinity. -/
@[irreducible] def ecValid (pub : Nat) : Bool :=
  let x := pub / 2 ^ 384
  let y := pub % 2 ^ 384
  decide (x < p384P) && decide (y < p384P) && decide (y * y % p384P = (ecSub (x * x * x) (3 * x) + p384B) % p384P)
    && decide ((ecMul 384 p384Order (ecPoint pub)).z = 0)

/-- The shared secret: the x-coordinate of the shared point. -/
@[irreducible] def ecShared (d pub : Nat) : Nat := (ecMul 384 d (ecPoint pub)).affine.1

/-- ECDSA over a digest with a private scalar and a per-message secret: r ‖ s. -/
@[irreducible] def ecdsaSign (d digest nonce : Nat) : Nat :=
  let k := nonce % (p384Order - 1) + 1
  let r := (ecMul 384 k ecBase).affine.1 % p384Order
  r * 2 ^ 384 + invMod p384Order k * (digest + r * d) % p384Order

/-- Verification of r ‖ s. -/
@[irreducible] def ecdsaVerify (pub digest sig : Nat) : Bool :=
  let r := sig / 2 ^ 384
  let s := sig % 2 ^ 384
  let w := invMod p384Order s
  let q := (ecMul 384 (digest * w % p384Order) ecBase).add (ecMul 384 (r * w % p384Order) (ecPoint pub))
  decide (0 < r) && decide (r < p384Order) && decide (0 < s) && decide (s < p384Order) && ecValid pub && decide (q.z ≠ 0)
    && decide (q.affine.1 % p384Order = r)

end Sys2Proof.Machine
end

