-- ==== Sys2Proof/Config.lean ====
section
/-! DEFINITION. The free values: what the spec leaves open, as constants with no body.  Each is applied
to the state's plain counter `fresh`, which the step that draws advances, or to the operands it
depends on. -/

namespace Sys2Proof.Config

/-- Which of two racing values of a 64-byte chunk a read returns (04_galleys.md R161): true for the new. -/
opaque raceNew : Nat → Nat → Bool

/-- A value that the spec leaves unstated, by draw. -/
opaque freeValue : Nat → Nat

/-- Energy coefficient of a class, in picojoules, as measured for the block at manufacture
(11_scheduling.md R396). -/
opaque energyCoef : Nat → Nat

/-- Bytes of the payload of a bounce ERROR message, by cause and SEQ (12_host_port.md R435: the payload names them;
its layout is not stated). -/
opaque bounceError : Nat → Nat → Nat → Byte

/-- INFO0 of an APERTURE_FAULT, by what failed (12_host_port.md R414: the cause is recorded; its number is not stated). -/
opaque apertureCause : Nat → Nat

/-- How INFO0 of FRISKET_MISS and FRISKET_DENIED numbers a read (false) and a write, and INFO0 of HOST_REFUSED the completion
status that the link gave, by address (14_recovery.md Table 14-5 names both; their codes are not stated). -/
opaque accessKind : Bool → Nat
opaque linkStatus : Nat → Nat

/-- Output of the deterministic random bit generator (15_security.md R519): bits drawn, by draw. -/
opaque drbg : Nat → Nat

/-- The per-message secret of an ECDSA signature, by draw (FIPS 186-5 has it random). -/
opaque ecdsaNonce : Nat → Nat

/-- The public key that the leaf of a certificate chain certifies (15_security.md R542). -/
opaque leafKey : List Byte → Nat

/-- What is fused at manufacture: serial number, management MAC address, firmware key, signer digests,
voltage code of a forme's temperature band (15_security.md R524, R548, 16_dictionary.md R559,
17_boundary.md R598). -/
opaque serial : Nat
opaque mgtMac : Nat
opaque firmwareKey : Nat
opaque signerDigest : Nat → Nat
opaque fusedCode : Nat → Nat → Nat

/-- How the power manager moves the pulse ratios of the formes to hold the cap (01_architecture.md R50: which formes, and
how far, is not stated), by draw and forme. -/
opaque capChoice : Nat → Nat → Nat

/-- Digest of the boot ROM (15_security.md R543). -/
opaque romDigest : Nat

/-- Bytes of SPDM messages that the DMTF standard defines and the spec does not restate, by function, kind
of response and the facts it reports (15_security.md R541). -/
opaque spdmEncode : Nat → Nat → List Byte → List Byte

/-- The export master secret that the SPDM key schedule gives a session, by draw and KEY_EXCHANGE request (15_security.md
R541, R544). -/
opaque spdmSecret : Nat → List Byte → Nat

/-- Measurement block 5 in debug state, by the DIAG bits (15_security.md Table 15-15: their places are not stated). -/
opaque debugByte : Bool → Bool → Nat

/-- A revocation record: the signer revoked and the signer that signs, when its signature verifies (15_security.md
R548: its layout is not stated). -/
opaque revocation : List Byte → Option (Nat × Nat)

/-- A debug token: SERIAL, BOOT, DIAG_SRAM, DIAG_TRACE and the operator entry whose signature verifies under the key
given for each entry (15_security.md R539: its layout is not stated). -/
opaque debugToken : List Byte → List Nat → Option (Nat × Nat × Bool × Bool × Nat)

/-- Bytes of an INFO response, from the object's type, access, role, default, persistence and range (16_dictionary.md
R567: their layout is not stated). -/
opaque infoEncode : List Nat → List Byte → List Byte

/-- What the diagnostics range reads: SRAM by address and draw; an execution trace by control word and draw
(16_dictionary.md Table 16-12: the address map and the trace's form are not stated). -/
opaque diagByte : Nat → Nat → Byte
opaque traceBytes : Nat → Nat → List Byte

end Sys2Proof.Config
end

