-- ==== Sys2Proof/Machine/Ecc.lean ====
section
/-! DEFINITION. The stack's own code (08_memory.md R282 to R284): Reed-Solomon over GF(2^16), its decoding,
the poison syndrome; and the CRC-32 of the spec's structures. -/

namespace Sys2Proof.Machine

/-- Product in GF(2^16) with polynomial 0x1_100B (R282); `n` bits of b remain. -/
def gfMulAux : Nat → Nat → Nat → Nat → Nat
  | 0, _, _, acc => acc
  | n + 1, a, b, acc =>
    let acc' := if b % 2 = 1 then acc ^^^ a else acc
    let a2 := 2 * a
    gfMulAux n (if 0x10000 ≤ a2 then a2 ^^^ 0x1100B else a2) (b / 2) acc'

def gfMul (a b : Nat) : Nat := gfMulAux 16 a b 0

/-- a to the power n. -/
def gfPow (a : Nat) : Nat → Nat
  | 0 => 1
  | n + 1 => gfMul a (gfPow a n)

/-- The inverse: a^(2^16 − 2), as the product of a^(2^i) for i from 1 to 15. -/
def gfInvAux : Nat → Nat → Nat → Nat
  | 0, _, acc => acc
  | n + 1, a, acc => let b := gfMul a a; gfInvAux n b (gfMul acc b)

def gfInv (a : Nat) : Nat := gfInvAux 15 a 1

/-- The field element of symbol i of a codeword: α to the power of its coefficient, 35 − i (R282); data
symbols are 0 to 31 and check symbol k is 32 + k. -/
def symElem (i : Nat) : Nat := gfPow 2 (35 - i)

/-- Syndromes 0 to 3 of an error pattern, a list of symbol and value. -/
def syndromes (e : List (Nat × Nat)) : List Nat :=
  (List.range 4).map (fun m => e.foldl (fun x p => x ^^^ gfMul p.2 (gfPow (symElem p.1) m)) 0)

/-- R284: what a poisoned group's check symbols are XORed with. -/
def poisonPattern : List (Nat × Nat) := [(32, 0x0F0F), (33, 0xF0F0), (34, 0x3C3C), (35, 0xC3C3)]

/-- What the controller makes of a group (R283). -/
inductive Decoded
  | clean
  | corrected (fix : List (Nat × Nat))
  | poisoned
  | uncorrectable
  deriving DecidableEq, Repr

/-- A single symbol error with these syndromes. -/
def oneError (sy : List Nat) : Option (List (Nat × Nat)) :=
  let s0 := (sy[0]?).getD 0
  if s0 = 0 then none
  else ((List.range 36).find? (fun i => syndromes [(i, s0)] == sy)).map (fun i => [(i, s0)])

/-- The error in symbols i and j with these first two syndromes, when both values are nonzero and the other
syndromes agree. -/
def twoAt (sy : List Nat) (i j : Nat) : Option (List (Nat × Nat)) :=
  let s0 := (sy[0]?).getD 0
  let s1 := (sy[1]?).getD 0
  let x := symElem i
  let y := symElem j
  let e1 := gfMul (s1 ^^^ gfMul s0 y) (gfInv (x ^^^ y))
  let e2 := s0 ^^^ e1
  if e1 ≠ 0 ∧ e2 ≠ 0 ∧ syndromes [(i, e1), (j, e2)] = sy then some [(i, e1), (j, e2)] else none

def twoErrors (sy : List Nat) : Option (List (Nat × Nat)) :=
  ((List.range 36).flatMap (fun i => (List.range i).map (fun j => (j, i)))).findSome? (fun p => twoAt sy p.1 p.2)

/-- R283: decoding of an error pattern; at most two symbols are corrected, whatever the true error. -/
def eccDecode (e : List (Nat × Nat)) : Decoded :=
  let sy := syndromes e
  if sy = [0, 0, 0, 0] then .clean
  else if sy = syndromes poisonPattern then .poisoned
  else match oneError sy with
    | some f => .corrected f
    | none => match twoErrors sy with
      | some f => .corrected f
      | none => .uncorrectable

/-- Bit `beat` of data symbol j lies in byte 4 × beat + j / 8, bit j mod 8 (R282). -/
def flipSymbols (data : List Byte) (e : List (Nat × Nat)) : List Byte :=
  e.foldl (fun d p =>
    if p.1 < 32 then
      (List.range 16).foldl (fun d b =>
        if p.2 / 2 ^ b % 2 = 1 then
          let k := 4 * b + p.1 / 8
          d.set k (((d[k]?).getD 0) ^^^ BitVec.ofNat 8 (2 ^ (p.1 % 8)))
        else d) d
    else d) data

/-! ## CRC-32 -/

/-- One bit of the reflected CRC-32 with polynomial 0xEDB8_8320. -/
def crcBit (c : Nat) : Nat := if c % 2 = 1 then (c / 2) ^^^ 0xEDB88320 else c / 2

def crcByte (c : Nat) (b : Byte) : Nat :=
  crcBit (crcBit (crcBit (crcBit (crcBit (crcBit (crcBit (crcBit (c ^^^ b.toNat))))))))

/-- The CRC-32 of the spec's structures, taken to be that of IEEE 802.3. -/
def crc32 (l : List Byte) : Nat := (l.foldl crcByte 0xFFFFFFFF) ^^^ 0xFFFFFFFF

end Sys2Proof.Machine
end

