-- ==== Sys2Proof/Machine/StSort.lean ====
section
/-! DEFINITION. State of a sort: the architectural registers, the case, the asynchronous engines'
pending work and the slug bookkeeping (03_sort.md R90, R91, R117, R126; Tables 03-1, 03-16 to 03-18). -/

namespace Sys2Proof.Machine

/-- Which stream move (03_sort.md Table 03-11): C case, S stick store, G galley store, source first. -/
inductive StreamKind | cs | sc | cg | gc | sg | gs
  deriving DecidableEq, Repr

/-- A stream move that holds a tag (R111): byte addresses, length, and the source bytes as they stood
at issue (R95, R161). -/
structure StreamMove where
  kind : StreamKind
  src : Nat
  dst : Nat
  len : Nat
  old : List Byte
  seq : Nat
  deriving DecidableEq, Repr

/-- A lookup ticket (R112, R113, 06_platens.md R209, R214): the list as read at issue, the result area,
and what has been written of it. -/
structure Ticket where
  list : List Byte
  res : Nat
  issueTime : Nat
  checked : Bool
  /-- entries and bags of the checked list -/
  entries : Nat
  bags : Nat
  /-- outcome bytes and bag status words written so far -/
  entriesDone : Nat
  bagsDone : Nat
  /-- OR of the four result flags, and the two summary bits of Table 06-6 -/
  flags : BitVec 4
  anyLost : Bool
  anyShape : Bool
  /-- platens that have not yet reported their end mark complete -/
  waiting : List Nat
  /-- the result header is written -/
  done : Bool
  deriving DecidableEq, Repr

/-- A message with its retry tag (R115, R116). -/
structure Msg where
  sender : Nat
  slug : Nat
  send : Nat
  lo : W64
  hi : W64
  deriving DecidableEq, Repr

/-- The registers that a snapshot copies (R117 step 3), with the barrier generations and the slug-table
entry of the boundary, which the dispatch hardware records with it (R156). -/
structure Snapshot where
  s : Vector W64 32
  v : Vector W512 32
  a : Vector (BitVec 2048) 8
  xa : W64
  xb : W64
  ssr : W32
  pc : BitVec 13
  barS : Vector Nat 4
  barG : Vector Nat 4
  /-- slug-table entry of the boundary, none at sliver start -/
  entry : Option Nat
  deriving DecidableEq, Repr

/-- What a sort is doing: executing, stalled at a synchronisation (R114, R115), stopped at a slug
boundary by a pre-emption (R117, R156), ended by SDONE, waiting to be adopted after a hard mismatch
(R124), or stopped with its share (R158). -/
inductive SortStatus
  | running
  | waitBarS (b : Nat)
  | waitBarG (b : Nat)
  | waitRecv
  | waitSend
  | stopped (entry : Option Nat)
  | ended
  | adopting (injected : Bool)
  | killed
  deriving DecidableEq, Repr

/-- Slug bookkeeping and the read-only CSRs (Tables 03-16 and 03-18). -/
structure SortBook where
  /-- slugs begun in this LAUNCH (SLUGNUM, and the SLUG field of the position word) -/
  slugs : Nat
  /-- RSR instructions executed in this slug, modulo 2^24 -/
  rsrCount : BitVec 24
  /-- messages sent in this slug -/
  sends : Nat
  slugCyc : W32
  cycle : W64
  replays : BitVec 16
  retries : BitVec 8
  /-- an injection armed in this slug, persistent when true (R126) -/
  inj : Option Bool
  /-- an injection was armed in this slug already -/
  injUsed : Bool
  /-- this attempt of the slug is a retry after a hard mismatch (R124) -/
  retried : Bool
  /-- times the sliver has passed each barrier in this LAUNCH (R114) -/
  barS : Vector Nat 4
  barG : Vector Nat 4
  deriving DecidableEq, Repr

/-- The state of one sliver's sort (Table 03-1) and the sort's counters and checks. -/
structure SortSt where
  s : Vector W64 32
  v : Vector W512 32
  a : Vector (BitVec 2048) 8
  xa : W64
  xb : W64
  pc : BitVec 13
  ssr : W32
  dcase : Mem
  icase : Mem
  /-- 64-bit words of the data case with a double-bit error (R96) -/
  badWords : List Nat
  /-- stream tags 0 to 7: a listed tag is busy -/
  tags : Tab StreamMove
  /-- issue order of stream moves -/
  seq : Nat
  /-- lookup tickets 0 to 3: a listed ticket is held -/
  tickets : Tab Ticket
  /-- list generation of each ticket number (06_platens.md R215) -/
  tgen : Vector Nat 4
  inbox : List Msg
  /-- tag (slug count, send count) of the last message accepted from each sender (R116) -/
  lastMsg : Tab (Nat × Nat)
  snap : Snapshot
  status : SortStatus
  book : SortBook
  deriving DecidableEq, Repr

/-- A snapshot of zeroed registers. -/
def Snapshot.zero : Snapshot :=
  { s := Vector.replicate 32 0, v := Vector.replicate 32 0, a := Vector.replicate 8 0, xa := 0, xb := 0,
    ssr := 0, pc := 0, barS := Vector.replicate 4 0, barG := Vector.replicate 4 0, entry := none }

/-- Bookkeeping at sliver start. -/
def SortBook.zero : SortBook :=
  { slugs := 0, rsrCount := 0, sends := 0, slugCyc := 0, cycle := 0, replays := 0, retries := 0,
    inj := none, injUsed := false, retried := false,
    barS := Vector.replicate 4 0, barG := Vector.replicate 4 0 }

/-- R91: every register, tile, scale register and flag zero, nothing pending, the case zero. -/
def SortSt.zero : SortSt :=
  { s := Vector.replicate 32 0, v := Vector.replicate 32 0, a := Vector.replicate 8 0, xa := 0, xb := 0,
    pc := 0, ssr := 0, dcase := [], icase := [], badWords := [], tags := [], seq := 0, tickets := [],
    tgen := Vector.replicate 4 0, inbox := [], lastMsg := [], snap := Snapshot.zero,
    status := .running, book := SortBook.zero }

end Sys2Proof.Machine
end

