-- ==== Sys2Proof/Machine/StBoundary.lean ====
section
/-! DEFINITION. State of the boundary: start-up, rails and voltage requests, thermal and power control, the
flash port and the persistent store (17_boundary.md, 01_architecture.md R46, R50). -/

namespace Sys2Proof.Machine

inductive StartKind | cold | warm
  deriving DecidableEq, Repr

/-- Where the block stands (R586, R593, R602, R604 to R609): held in reset, waiting for REFCLK, starting
since a tick, waiting for TAMPER_N at the start's check, running, waiting to start again, in
management-only safe mode, or tripped. -/
inductive Power
  | inReset
  | noClock
  | starting (kind : StartKind) (since : Nat)
  | tamperWait
  | running
  | retry (kind : StartKind) (due : Nat)
  | safe
  | tripped
  deriving DecidableEq, Repr

/-- One voltage request channel (R597, R598): the code requested, the code wanted for the band in force, and the lower
band the island has stayed in, with the tick since which it has. -/
structure Vri where
  valid : Bool
  code : Nat
  req : Bool
  /-- the code whose voltage is in force -/
  volt : Nat
  reqTick : Nat
  want : Nat
  band : Nat
  quiet : Option (Nat × Nat)
  deriving DecidableEq, Repr

def Vri.boot : Vri :=
  { valid := false, code := 50, req := false, volt := 50, reqTick := 0, want := 50, band := 0, quiet := none }

/-- The flash port (Tables 17-17, 17-18): registers, the operation in progress with its parameters, one
pending start, and the device.  `flash` holds the complement of each byte, so that what is not listed
reads as erased. -/
structure FpSt where
  op : Nat
  pend : Bool
  busy : Option (Nat × Nat × Nat)
  began : Nat
  done : Bool
  code : Nat
  addr : Nat
  len : Nat
  buf : Mem
  deviceId : Nat
  flash : Mem
  /-- FP_TIMEOUT or FP_DEVICE results in succession (R617) -/
  fails : Nat
  deriving DecidableEq, Repr

def FpSt.reset : FpSt :=
  { op := 0, pend := false, busy := none, began := 0, done := false, code := 0, addr := 0, len := 0, buf := [],
    deviceId := 0, flash := [], fails := 0 }

/-- The persistent store's log (R618, R619). -/
structure StoreSt where
  /-- 0 for area A, 1 for area B -/
  area : Nat
  areaSeq : Nat
  /-- next record position in the governing area, and the next SEQ -/
  next : Nat
  seq : Nat
  compacting : Bool
  fault : Bool
  deriving DecidableEq, Repr

/-- Boundary, power and start state. -/
structure BndSt where
  power : Power
  warmFails : Nat
  coldFails : Nat
  startKind : Nat
  strap : Nat
  strapPins : Nat
  porLow : Bool
  tamperLow : Bool
  refclk : Bool
  /-- ALERT_N, FAULT_N, PWRCYC_REQ_N and THERMTRIP_N asserted -/
  alert : Bool
  fault : Bool
  pwrcyc : Bool
  trip : Bool
  capW : Nat
  /-- samples of the draw in mW, newest first, at most 100 (the last 1 ms), the tick of the last one, and the mean as it
  stood at the last 100 ms boundary -/
  draws : List Nat
  drawTick : Nat
  drawSnap : Nat
  /-- hottest sensor of each forme island; of the VDD_FAB units and memory controllers -/
  hot : Tab Int
  hotFab : Int
  /-- limit on k from the die temperature, by forme, with the tick it last moved (R601) -/
  tempK : Tab (Nat × Nat)
  fabHot : Bool
  /-- limit on k from the power cap, by forme -/
  capK : Tab Nat
  pacedByCap : Bool
  vri : Vector Vri 8
  fp : FpSt
  store : StoreSt
  deriving DecidableEq, Repr

def BndSt.zero : BndSt :=
  { power := .inReset, warmFails := 0, coldFails := 0, startKind := 0, strap := 0, strapPins := 0,
    porLow := true, tamperLow := false, refclk := true, alert := false, fault := false,
    pwrcyc := false, trip := false, capW := 1050, draws := [], drawTick := 0, drawSnap := 0, hot := [], hotFab := 0, tempK := [],
    fabHot := false, capK := [], pacedByCap := false, vri := Vector.replicate 8 Vri.boot,
    fp := FpSt.reset, store := ⟨0, 0, 64, 0, false, false⟩ }

end Sys2Proof.Machine
end

