-- ==== Sys2Proof/Machine/StFm.lean ====
section
/-! DEFINITION. State of the memory controllers (08_memory.md) and of the fault manager: records, the
ladder, spares and the rotating test (14_recovery.md, 01_architecture.md R28 to R33). -/

namespace Sys2Proof.Machine

/-- A stack: in service, in self-refresh, in full training, or out of service (R296). -/
inductive StackState | inService | selfRefresh | training | out
  deriving DecidableEq, Repr

/-- A training record copy (R294): its sequence number, the temperature at capture, whether its CRC is
good; the analogue values in it stand as one number. -/
structure TrainRec where
  seq : Nat
  temp : Nat
  values : Nat
  good : Bool
  deriving DecidableEq, Repr

/-- A write in the controller's queue of a pseudo-channel (R280): its sheet, and when it came. -/
structure QWrite where
  sheet : Nat
  tick : Nat
  deriving DecidableEq, Repr

/-- A frame retirement in progress (R288). -/
structure Retire where
  frame : Nat
  overs : Nat
  tick : Nat
  deriving DecidableEq, Repr

/-- An event that the controller has not reported to the fault manager yet: its group, the symbol positions
corrected (none: uncorrectable), and whose access met it (R283, R284, R291; 14_recovery.md R476). -/
structure MemEvent where
  group : Nat
  fix : List Nat
  /-- a partial write of a poisoned group was discarded -/
  write : Bool
  /-- context and instance of the transaction that met it -/
  tag : Option (Option Nat × Nat)
  deriving DecidableEq, Repr

/-- One stack and its controller. -/
structure StackSt where
  state : StackState
  /-- the content was declared lost and is refilled at the end of training (R299) -/
  lost : Bool
  /-- since when the stack is asked into self-refresh, until it confirms -/
  entering : Option Nat
  remap : Tab Nat
  /-- overs frames given out -/
  oversUsed : Nat
  retiring : Option Retire
  /-- frames that wait to be retired, and events not yet reported -/
  toRetire : List Nat
  news : List MemEvent
  /-- committed retirements not yet in the flash list, oldest first, with their tick -/
  toFlash : List (Nat × Nat × Nat)
  flashList : Tab Nat
  /-- corrected frames, most recent first: frame, count (R287) -/
  tracker : List (Nat × Nat)
  /-- symbol errors present in the stack's cells, by beat group: symbol position and value (R282) -/
  errors : Tab (List (Nat × Nat))
  /-- next sheet of the patrol, tick of its last read (R286) -/
  scrubAt : Nat
  scrubTick : Nat
  /-- corrected signals in the last second: channel key, signal, frames, window start (R291) -/
  lanes : List (Nat × Nat × List Nat × Nat)
  laneFaults : List (Nat × Nat)
  wq : Tab (List QWrite)
  refreshTick : Nat
  activity : Nat
  tempTick : Nat
  /-- temperature last read, and the band of Table 08-8, 0 to 3 -/
  temp : Nat
  band : Nat
  train : TrainRec
  train2 : TrainRec
  trainTick : Nat
  /-- recent-write bitmaps, the current one first (R276) -/
  recent : List (List Nat)
  /-- controller log, newest last: group address and kind (R275) -/
  log : List (Nat × Nat)
  deriving DecidableEq, Repr

def StackSt.zero : StackSt :=
  { state := .out, lost := false, entering := none, remap := [], oversUsed := 0,
    retiring := none, toRetire := [], news := [], toFlash := [], flashList := [], tracker := [], errors := [], scrubAt := 0,
    scrubTick := 0, lanes := [], laneFaults := [], wq := [], refreshTick := 0, activity := 0, tempTick := 0,
    temp := 0, band := 0, train := ⟨0, 0, 0, false⟩, train2 := ⟨0, 0, 0, false⟩, trainTick := 0,
    recent := [[], [], []], log := [] }

/-- A fault record (Table 14-1). -/
structure FaultRec where
  no : Nat
  boot : Nat
  code : Nat
  level : Nat
  ctx : Option Nat
  inst : Option Nat
  escalated : Bool
  unitType : Nat
  logical : Nat
  phys : Nat
  tick : Nat
  queue : Option Nat
  addr : Nat
  info0 : Nat
  info1 : Nat
  deriving DecidableEq, Repr

/-- What a ladder reset acts on (Table 14-7). -/
inductive Target
  | galley (g : Nat)
  | forme (f : Nat)
  | block
  deriving DecidableEq, Repr

/-- A reset in progress (R489, R492): since when, the record's code, the RESET commands that complete with
it, whether it is a reset in place (SCOPE 3), the spare chosen. -/
structure ResetSt where
  target : Target
  tick : Nat
  code : Nat
  waiting : List (Nat × Nat)
  inPlace : Bool
  spare : Option Nat
  deriving DecidableEq, Repr

/-- A sort under the rotating test (R508). -/
structure Ift where
  stick : Nat
  sort : Nat
  start : Nat
  galley : Nat
  sliver : Option Nat
  deriving DecidableEq, Repr

/-- The fault manager's state. -/
structure FmSt where
  records : List FaultRec
  recordNo : Nat
  boot : Nat
  /-- records not yet committed to the fault log, oldest first (R469) -/
  unlogged : List FaultRec
  suppressed : Tab Nat
  flashLog : List FaultRec
  /-- next position of the fault log's ring in flash -/
  logNext : Nat
  resets : List ResetSt
  /-- physical galley of each logical galley; free floating spares; standby galleys (R28, R490) -/
  galleyMap : Tab Nat
  freeSpares : List Nat
  standby : Tab Nat
  retired : List Nat
  badGalleys : List Nat
  /-- ticks of level-2 resets by forme, of level-3 resets by forme (R485) -/
  hist2 : Tab (List Nat)
  hist3 : Tab (List Nat)
  /-- fabric links with their spare lane group in use (R43) -/
  linkSpared : List Nat
  ift : List Ift
  iftOn : Bool
  /-- last test of each physical sort -/
  iftLast : Tab Nat
  /-- SRAM repair list: array and row (R506) -/
  rowMarks : List (Nat × Nat)
  /-- ladder settings of the reliability range -/
  retireLimit : Nat
  patrolHours : Nat
  /-- lock violations (00_scope.md R18) -/
  locks : Nat
  deriving DecidableEq, Repr

def FmSt.zero : FmSt :=
  { records := [], recordNo := 0, boot := 0, unlogged := [], suppressed := [], flashLog := [], logNext := 0, resets := [],
    galleyMap := [], freeSpares := [64, 65], standby := [], retired := [], badGalleys := [], hist2 := [],
    hist3 := [], linkSpared := [], ift := [], iftOn := true,
    iftLast := [], rowMarks := [], retireLimit := 4, patrolHours := 24, locks := 0 }

end Sys2Proof.Machine
end

