-- ==== Sys2Proof/Machine/StGalley.lean ====
section
/-! DEFINITION. State of a galley: stores, slivers, the compositor pair, the current and next LAUNCH,
moves, barriers and sparing (04_galleys.md R132 to R160). -/

namespace Sys2Proof.Machine

/-- What the image header declares (04_galleys.md Table 04-4). -/
structure ImageInfo where
  press : Bool
  test : Bool
  draft : Bool
  imageBytes : Nat
  shares : Nat
  slivers : Nat
  segs : Nat
  seedWord : Nat
  seed : W64
  compOff : Nat
  compLen : Nat
  compEntry : Nat
  codeOff : Nat
  planOff : Nat
  slugOff : Nat
  slugCount : Nat
  paramCount : Nat
  paramOff : Nat
  patchOff : Nat
  patchLen : Nat
  ptrMask : W64
  modelId : W64
  costOff : Nat
  costLen : Nat
  draftEntry : Nat
  deriving DecidableEq, Repr

/-- What the compositor pair is doing (R153, R154, R156). -/
inductive CompStatus | idle | running | stopped | halted
  deriving DecidableEq, Repr

/-- The compositor pair: the two run in lockstep, so one state serves both (R148). -/
structure CompSt where
  s : Vector W64 32
  pc : BitVec 15
  imem : Mem
  dmem : Mem
  status : CompStatus
  deriving DecidableEq, Repr

/-- A galley move (Table 04-8) that holds a tag; `started` is false for one saved as pending (R156). -/
structure GMove where
  srcGs : Bool
  src : Nat
  dstGs : Bool
  dst : Nat
  len : Nat
  rows : Nat
  srcStride : Nat
  dstStride : Nat
  started : Bool
  /-- a galley-store source as it stood at issue, row after row (R161) -/
  old : List Byte
  deriving DecidableEq, Repr

/-- A LAUNCH as the queue fetch unit hands it to the galley: its queue and place there, its context,
image, the shares this galley runs, the command copy and the patched window (R135, R145, R147). -/
structure Launch where
  queue : Nat
  pos : Nat
  ctx : Nat
  inst : Nat
  sealNo : Nat
  shares : List Nat
  cmd : List Byte
  patch : List Byte
  seed : W64
  /-- the pending step that the LAUNCH became (11_scheduling.md) -/
  step : Nat
  deriving DecidableEq, Repr

/-- The running share (R149, R158). -/
structure Share where
  index : Nat
  count : Nat
  deriving DecidableEq, Repr

/-- One barrier: generations already released, and the slivers that have arrived at the next (R114). -/
structure Bar where
  gen : Nat
  arrived : List Nat
  deriving DecidableEq, Repr

/-- One route-table entry (06_platens.md R210). -/
structure Route where
  table : Nat
  home : Nat
  mirror : Nat
  mirrorState : Nat
  deriving DecidableEq, Repr

/-- Sparing inside the galley (R124, R159): spare sorts and the spare stick in service. -/
structure Spares where
  /-- sticks whose spare sort serves a sliver, with that sliver -/
  sortSpare : Tab Nat
  /-- place of a sliver's sort in its stick when it is not its own, and of a stick's spare when it is not 16: the
  rotating test moves them (14_recovery.md R509) -/
  place : Tab Nat
  freeAt : Tab Nat
  /-- sorts retired, as stick × 17 + sort place -/
  retiredSorts : List Nat
  /-- the stick that the spare stick serves -/
  stickSpare : Option Nat
  /-- a stick replacement in progress -/
  replacing : Option Nat
  deriving DecidableEq, Repr

/-- One logical galley. -/
structure GalleySt where
  store : Mem
  sticks : Tab Mem
  slivers : Tab SortSt
  share : Option Share
  /-- result of the last ended share, for DWAIT -/
  lastShare : Nat
  comp : CompSt
  moves : Tab GMove
  cur : Option Launch
  next : Option Launch
  areaB : Bool
  image : Option (Nat × ImageInfo)
  ctx : Option Nat
  storesKept : Bool
  /-- the context the stores were last zeroed for (R137) -/
  storesCtx : Option Nat
  preempt : Bool
  barS : Tab Bar
  barG : Tab Bar
  msgs : List (Nat × Msg)
  routes : Tab (List Route)
  spares : Spares
  /-- the step that owns the galley (11_scheduling.md R393) -/
  owner : Option Nat
  /-- an image load whose tag is being recomputed (10_queues.md R351) -/
  loading : Bool
  deriving DecidableEq, Repr

def CompSt.zero : CompSt :=
  { s := Vector.replicate 32 0, pc := 0, imem := [], dmem := [], status := .idle }

def Spares.none_ : Spares :=
  { sortSpare := [], place := [], freeAt := [], retiredSorts := [], stickSpare := none, replacing := none }

/-- A galley with no program and clear stores. -/
def GalleySt.zero : GalleySt :=
  { store := [], sticks := [], slivers := [], share := none, lastShare := 0, comp := CompSt.zero,
    moves := [], cur := none, next := none, areaB := false, image := none, ctx := none,
    storesKept := false, storesCtx := none, preempt := false, barS := [], barG := [], msgs := [],
    routes := [], spares := Spares.none_, owner := none, loading := false }

end Sys2Proof.Machine
end

