-- ==== Sys2Proof/Machine/StQueue.lean ====
section
/-! DEFINITION. State of contexts and their friskets, queues and commands, fences, seal entries and steps
(10_queues.md R334 to R370, 11_scheduling.md R371 to R397, 12_host_port.md R410 to R412). -/

namespace Sys2Proof.Machine

/-- A frisket leaf (12_host_port.md Table 12-6): one page, 64 KiB or 2 MiB. -/
structure Leaf where
  big : Bool
  host : Bool
  table : Bool
  w : Bool
  r : Bool
  hdm : Bool
  /-- address of the page's first byte: device physical, or host bus with `host` -/
  target : Nat
  deriving DecidableEq, Repr

/-- Context states (Table 11-1); FREE is the absence of the context. -/
inductive CtxState | idle | resident | lost
  deriving DecidableEq, Repr

/-- Charges (R394 to R396): galley ticks owned, bytes, exact picojoules, stops and model switches. -/
structure Account where
  ticks : Nat
  hbm : Nat
  host : Nat
  net : Nat
  pj : Nat
  preempts : Nat
  switches : Nat
  deriving DecidableEq, Repr

def Account.zero : Account := ⟨0, 0, 0, 0, 0, 0, 0⟩

/-- A context (Table 11-2) with its frisket; `leaves` is keyed by the page's VA / 64 KiB. -/
structure CtxSt where
  inst : Nat
  state : CtxState
  domain : Nat
  pasid : Nat
  recordPA : Nat
  slot : Option Nat
  /-- order of last use, for the least recently used slot (R374) -/
  used : Nat
  lostCode : Nat
  lostTick : Nat
  createTick : Nat
  /-- charges; `snapPj` is the energy at the last 100 ms boundary (R398) -/
  acct : Account
  snapPj : Nat
  gen : Nat
  leaves : Tab Leaf
  /-- address of the level-1 table (Table 12-5); 0 when nothing is mapped -/
  l1 : Nat
  /-- save frames held, with the stopped step (R383) -/
  frames : Tab Nat
  /-- a teardown in progress since this tick (R488) -/
  teardown : Option Nat
  deriving DecidableEq, Repr

/-- Where a command stands. -/
inductive CmdSt
  | fetched
  | started
  | done (status detail : Nat)
  deriving DecidableEq, Repr

/-- A fetched command of a queue (R338, R343, R363).  `no` numbers the commands of a queue; `slot` is the
running index of its first slot, none for an injected batch (R317). -/
structure Cmd where
  no : Nat
  slot : Option Nat
  slots : Nat
  op : Nat
  cflags : Nat
  body : List Byte
  st : CmdSt
  start : Nat
  rflags : Nat
  us : Nat
  hbm : Nat
  host : Nat
  net : Nat
  /-- galley that claimed it in a spread queue (R361) -/
  claimant : Option Nat
  /-- the step builder's batch, for an injected LAUNCH -/
  batch : Option Nat
  deriving DecidableEq, Repr

/-- A registered memory-value wait (R356): its command and the device time of registration, and the next
reading with its back-off interval. -/
structure Wait where
  no : Nat
  tick : Nat
  next : Nat
  gap : Nat
  deriving DecidableEq, Repr

/-- A flush or destruction in progress (R366, R368): the commands that complete with it. -/
structure FlushSt where
  waiting : List (Nat × Nat)
  destroy : Bool
  deriving DecidableEq, Repr

/-- A queue (R337, R342, R361, Tables 10-8 to 10-12). -/
structure QueueSt where
  /-- 0 KERNEL, 1 GANG, 2 SPREAD -/
  kind : Nat
  ctx : Nat
  inst : Nat
  sqLog2 : Nat
  sqVA : Nat
  cqVA : Nat
  /-- galleys by rank (R145, R146) -/
  ranks : List Nat
  vector : Nat
  deadlineRel : Nat
  wdogMs : Nat
  epoch : Nat
  head : Nat
  tail : Nat
  cqWritten : Nat
  cqHead : Nat
  flushTail : Nat
  /-- next slot to fetch; the claim counter of a spread queue (R361) -/
  fetch : Nat
  flush : Option FlushSt
  /-- STALLED: when the command is read again, and the back-off interval (R339) -/
  stalled : Option (Nat × Nat)
  /-- the ring cannot be read at this slot: fetch stopped (R365) -/
  stopped : Bool
  cqFull : Bool
  dbDropped : Bool
  drops : Nat
  cmds : List Cmd
  nextNo : Nat
  arrivals : Nat
  wait : Option Wait
  /-- ticks the watchdog has counted (R481) -/
  wdog : Nat
  /-- created by FN_KQ_CTRL (R370) -/
  bootstrap : Bool
  deriving DecidableEq, Repr

/-- A fence (R358). -/
structure FenceSt where
  ctx : Nat
  inst : Nat
  counterVA : Nat
  vector : Nat
  signalled : Bool
  count : Nat
  deriving DecidableEq, Repr

/-- A seal entry (R350); the image's header as it was read when sealed. -/
structure SealSt where
  ctx : Nat
  gen : Nat
  imageVA : Nat
  bytes : Nat
  tag : Nat
  info : ImageInfo
  cost : List Byte
  deriving DecidableEq, Repr

/-- Step states (Table 11-3); `stopping` while its stop is in progress (R384). -/
inductive StepSt | pending | running | stopping | stopped
  deriving DecidableEq, Repr

/-- A step (R376 to R379): a LAUNCH or an injected batch until its completion entry. -/
structure StepRec where
  queue : Nat
  no : Nat
  ctx : Nat
  inst : Nat
  sealNo : Nat
  sealGen : Nat
  model : Nat
  deadline : Nat
  urgent : Bool
  arrival : Nat
  /-- galley set, by rank -/
  galleys : List Nat
  st : StepSt
  /-- save frame held while stopped -/
  frame : Option Nat
  /-- what a stopped galley keeps beside the bytes of Table 11-4 -/
  kept : Tab GalleySt
  ticks : Nat
  /-- galleys that executed QTAKE, and QDONE -/
  taken : List Nat
  doneBy : List Nat
  rflags : Nat
  preempted : Bool
  cmd : List Byte
  patch : List Byte
  seed : W64
  shares : Nat
  /-- the seal entry as it stood when the LAUNCH was checked (R351, R352) -/
  sealed_ : SealSt
  deriving DecidableEq, Repr

end Sys2Proof.Machine
end

