-- ==== Sys2Proof/Machine/StHost.lean ====
section
/-! DEFINITION. State of the host port, the instances and the bounce crypto engine (12_host_port.md), with
the function pages (10_queues.md R370, 14_recovery.md R471). -/

namespace Sys2Proof.Machine

/-- Instance states (Table 12-2); numbered as in the table. -/
inductive InstState | off | enabled | frozen | resetting
  deriving DecidableEq, Repr

def InstState.code (x : InstState) : Nat :=
  match x with | .off => 0 | .enabled => 1 | .frozen => 2 | .resetting => 3

/-- Function-page registers of a function (Tables 10-13 to 10-15, 12-12, 12-13, 14-3, 14-4); the ENABLE
bits are the fields of the control registers. -/
structure FnRegs where
  kqSq : Nat
  kqCq : Nat
  kqLog2 : Nat
  kqVector : Nat
  kqEnable : Bool
  kqId : Option Nat
  kqError : Bool
  restarted : Bool
  instReset : Bool
  ctxLost : Bool
  lockAdv : Bool
  ready : Bool
  lockAddr : Nat
  fltBase : Nat
  fltLog2 : Nat
  fltVector : Nat
  fltEnable : Bool
  fltOverflow : Bool
  fltError : Bool
  fltProd : Nat
  fltCons : Nat
  fltDrops : Nat
  bncIn : Nat
  bncOut : Nat
  bncLog2 : Nat
  bncEnable : Bool
  bncNoSession : Bool
  bncBroken : Bool
  bncCount : Nat
  deriving DecidableEq, Repr

def FnRegs.reset : FnRegs :=
  { kqSq := 0, kqCq := 0, kqLog2 := 0, kqVector := 0xFFFF, kqEnable := false, kqId := none,
    kqError := false, restarted := false, instReset := false, ctxLost := false, lockAdv := false,
    ready := false, lockAddr := 0,
    fltBase := 0, fltLog2 := 0, fltVector := 0xFFFF, fltEnable := false, fltOverflow := false,
    fltError := false, fltProd := 0, fltCons := 0, fltDrops := 0,
    bncIn := 0, bncOut := 0, bncLog2 := 0, bncEnable := false, bncNoSession := false, bncBroken := false,
    bncCount := 0 }

/-- MSI-X state of a function (R419): enabled, masked as a whole, the vectors not masked, the pending ones, and the bytes
of the table's entries. -/
structure Msix where
  enable : Bool
  allMasked : Bool
  unmasked : List Nat
  pend : List Nat
  entries : Mem
  deriving DecidableEq, Repr

/-- Disabled, with every vector masked. -/
def Msix.reset : Msix := ⟨false, false, [], [], []⟩

/-- Whether a raise of a vector is held pending. -/
def Msix.holds (m : Msix) (vec : Nat) : Bool := m.allMasked || !m.unmasked.contains vec

/-- Deadline budget (R378): none of the limits when unlimited. -/
structure Budget where
  limited : Bool
  value : Nat
  depth : Nat
  /-- count in galley-ticks (1/100 of a galley-microsecond) -/
  count : Int
  /-- setting accepted, applied at the next refill: VALUE and DEPTH, none for unlimited -/
  set : Option (Option (Nat × Nat))
  deriving DecidableEq, Repr

/-- An instance reset in progress (R420): its start, the commands that complete with it, whether the
function ceases to exist, whether host writes are drained (R421). -/
structure InstReset where
  tick : Nat
  waiting : List (Nat × Nat)
  gone : Bool
  writes : Bool
  deriving DecidableEq, Repr

/-- An instance (R406). -/
structure InstSt where
  state : InstState
  fn : FnRegs
  msix : Msix
  d3 : Bool
  aperture : Option Nat
  staging : Option (Nat × Nat)
  track : Bool
  weight : Nat
  /-- limits of quota KIND 1 to 6; a kind not listed is unlimited -/
  quotas : Tab Nat
  budget : Budget
  /-- charges since the ledger was first initialised, and of the open period (R397, R399) -/
  acct : Account
  period : Account
  snapPj : Nat
  freeze : Option (Nat × Nat × Nat)
  reset : Option InstReset
  deriving DecidableEq, Repr

def InstSt.fresh : InstSt :=
  { state := .off, fn := FnRegs.reset, msix := Msix.reset, d3 := false, aperture := none,
    staging := none, track := false, weight := 1, quotas := [], budget := ⟨false, 0, 0, 0, none⟩,
    acct := Account.zero, period := Account.zero, snapPj := 0, freeze := none, reset := none }

/-- A 64 KiB page's record (R412): its TABLE bit and how often it is mapped. -/
structure PageRec where
  table : Bool
  maps : Nat
  deriving DecidableEq, Repr

/-- A bounce stream pair (R434 to R437). -/
structure Pair where
  log2 : Nat
  keyIn : Nat
  keyOut : Nat
  inBase : Nat
  outBase : Nat
  inSeq : Nat
  outSeq : Nat
  inProd : Nat
  inNext : Nat
  inCons : Nat
  outProd : Nat
  count : Nat
  countOut : Nat
  broken : Bool
  /-- STREAM_CLOSE or a key rewrite waits for the messages in slots (R440) -/
  closing : Bool
  closeCmd : Option (Nat × Nat)
  polled : Nat
  deriving DecidableEq, Repr

/-- A message in a BCE slot, or waiting in the front end (R438, R439): its header, payload (ciphertext of
an inbound one, plaintext of an outbound one), tag, segments done. -/
structure BMsg where
  inst : Nat
  pair : Nat
  out : Bool
  hdr : List Byte
  data : List Byte
  tag : Nat
  segs : Nat
  inSlot : Bool
  no : Nat
  /-- inbound ring bytes it takes -/
  ringBytes : Nat
  deriving DecidableEq, Repr

/-- A parked READ (R438). -/
structure Parked where
  inst : Nat
  pair : Nat
  hdr : List Byte
  next : Nat
  gap : Nat
  deriving DecidableEq, Repr

/-- The bounce crypto engine. -/
structure BceSt where
  pairs : Tab Pair
  msgs : List BMsg
  parked : List Parked
  nextMsg : Nat
  /-- outbound messages that wait for ring space, oldest first -/
  outq : List BMsg
  /-- turns left of the instance served last, per direction (R439) -/
  turnIn : Nat × Nat
  turnOut : Nat × Nat
  deriving DecidableEq, Repr

def BceSt.zero : BceSt :=
  { pairs := [], msgs := [], parked := [], nextMsg := 0, outq := [], turnIn := (0, 0),
    turnOut := (0, 0) }

/-- The host link (R403, R404, R431). -/
inductive LinkSt | down (since : Nat) | cxl | pcie
  deriving DecidableEq, Repr

/-- The host port as a whole. -/
structure HostSt where
  link : LinkSt
  /-- protocol in force, kept over a short outage -/
  cxl : Bool
  numVFs : Nat
  vfEnable : Bool
  insts : Tab InstSt
  /-- granules of 2 MiB by number (address / 2 MiB): owner, and whether in the frisket pool (R408, R411) -/
  grants : Tab (Nat × Bool)
  pages : Tab PageRec
  /-- CXL.mem region: base and size (R417), and the host's decoder: base, size -/
  hdm : Option (Nat × Nat)
  decoder : Option (Nat × Nat)
  commitError : Bool
  /-- 64 KiB pages written while tracked (R426) -/
  dirty : List Nat
  timeout : Nat
  /-- 4 KiB host pages that refuse reads: an input of the model, and reads that time out -/
  refused : List Nat
  /-- posted writes held while the link is down (R431): host key and bytes -/
  held : List (Nat × List Byte)
  /-- vectors raised: function and vector -/
  bce : BceSt
  deriving DecidableEq, Repr

def HostSt.zero : HostSt :=
  { link := .down 0, cxl := false, numVFs := 0, vfEnable := false, insts := [], grants := [], pages := [],
    hdm := none, decoder := none, commitError := false, dirty := [], timeout := 1000000, refused := [],
    held := [], bce := BceSt.zero }

end Sys2Proof.Machine
end

