-- ==== Sys2Proof/Machine/StSec.lean ====
section
/-! DEFINITION. State of keys, attestation and firmware protection (15_security.md R512 to R557). -/

namespace Sys2Proof.Machine

/-- Who waits for a write to complete: nobody, a KEY command, a management request, the host mailbox. -/
inductive Waiter
  | nobody
  | cmd (queue no : Nat)
  | session (num op tag index sub : Nat)
  | mailbox (op tag index sub : Nat)
  deriving DecidableEq, Repr

/-- New content held for a PENDING slot (R533); `erase` empties it instead. -/
structure KPend where
  attr : Nat
  origin : Nat
  owner : Option Nat
  key : Nat
  erase : Bool
  waiter : Waiter
  deriving DecidableEq, Repr

/-- Slot states (Table 15-7). -/
inductive KState | empty | ready | pending | destroyed
  deriving DecidableEq, Repr

def KState.code (x : KState) : Nat :=
  match x with | .empty => 0 | .ready => 1 | .pending => 2 | .destroyed => 3

/-- A key slot (Table 15-7). -/
structure KSlot where
  attr : Nat
  typ : Nat
  origin : Nat
  state : KState
  owner : Option Nat
  test : Bool
  uses : Nat
  opens : Nat
  gen : Nat
  key : Nat
  created : Nat
  pend : Option KPend
  /-- the SPDM session that made a SESSION slot, by function, and its pair (R544) -/
  session : Option (Nat × Nat)
  deriving DecidableEq, Repr

def KSlot.zero : KSlot :=
  { attr := 0, typ := 0, origin := 0, state := .empty, owner := none, test := false, uses := 0, opens := 0,
    gen := 0, key := 0, created := 0, pend := none, session := none }

/-- The protection set-up registers (Tables 15-2, 15-3); `limits` are FORME_LIMIT0 to 63. -/
structure ProtRegs where
  lock : Bool
  stage : Nat
  frPolicy : Nat
  debugCtrl : Nat
  keyPolicy : Nat
  limits : Tab Nat
  deriving DecidableEq, Repr

/-- Their reset values; a limit not listed is 0xFFFFFFFF. -/
def ProtRegs.reset : ProtRegs :=
  { lock := false, stage := 0, frPolicy := 0, debugCtrl := 0, keyPolicy := 0x00100003, limits := [] }

/-- A function's SPDM responder: the version and algorithms negotiated, the session with its export master
secret and key-update count, and whether its handshake is complete (R541, R544). -/
structure SpdmSt where
  version : Nat
  caps : Bool
  algs : Bool
  session : Option (Nat × Nat × Bool)
  updates : Nat
  deriving DecidableEq, Repr

def SpdmSt.zero : SpdmSt := { version := 0, caps := false, algs := false, session := none, updates := 0 }

/-- A firmware image held or running: slot, release, security version, digest (Table 15-16). -/
structure FwImg where
  slot : Nat
  version : Nat
  svn : Nat
  digest : Nat
  /-- the digest of payload and SVN (Table 15-15) -/
  meas : Nat
  deriving DecidableEq, Repr

def FwImg.none_ : FwImg := ⟨0, 0, 0, 0, 0⟩

/-- A BOOTSEL record and the copy that holds it (R549). -/
structure Bootsel where
  copy : Nat
  seq : Nat
  fs1 : Nat
  trial : Nat
  main : Nat
  deriving DecidableEq, Repr

def Bootsel.zero : Bootsel := ⟨0, 0, 0, 0, 0⟩

/-- Firmware update states (0x9001:04). -/
inductive FwState | idle | programmed | verified | staged | trial | failed
  deriving DecidableEq, Repr

def FwState.code (x : FwState) : Nat :=
  match x with | .idle => 0 | .programmed => 1 | .verified => 2 | .staged => 3 | .trial => 4 | .failed => 5

/-- Firmware state (R546 to R553). -/
structure FwSt where
  sel : Bootsel
  fs1 : FwImg
  main : FwImg
  /-- the half of MC instruction memory that runs, and the image staged in the other -/
  half : Nat
  staged : Option FwImg
  /-- the image the trial may fall back to -/
  old : Option FwImg
  state : FwState
  target : Nat
  /-- tick at which a trial under way began; none once it has passed -/
  trial : Option Nat
  /-- an ACTIVATE that waits for a mode change to end (R580) -/
  activating : Option Waiter
  deriving DecidableEq, Repr

def FwSt.zero : FwSt :=
  { sel := Bootsel.zero, fs1 := FwImg.none_, main := FwImg.none_, half := 0, staged := none, old := none,
    state := .idle, target := 2, trial := none, activating := none }

/-- The key manager as a whole; `zone` is ROOT when the key zone is valid (R518, R519). -/
structure SecSt where
  slots : Tab KSlot
  spareCells : Nat
  retiredSlots : List Nat
  zone : Option Nat
  /-- the root used for derivation: ROOT, or the test root in debug state (R539) -/
  root : Nat
  tamperLatch : Bool
  tamperCount : Nat
  keyless : Bool
  prot : ProtRegs
  /-- warm starts since the last cold start (R524) -/
  warm : Nat
  spdm : Tab SpdmSt
  revoked : List Nat
  arb : Nat
  fw : FwSt
  deriving DecidableEq, Repr

def SecSt.zero : SecSt :=
  { slots := [], spareCells := 16, retiredSlots := [], zone := none, root := 0, tamperLatch := false,
    tamperCount := 0, keyless := false, prot := ProtRegs.reset, warm := 0, spdm := [], revoked := [], arb := 0,
    fw := FwSt.zero }

end Sys2Proof.Machine
end

