-- ==== Sys2Proof/Machine/StMgmt.lean ====
section
/-! DEFINITION. State of the management network, the object dictionary, mode changes (16_dictionary.md) and
the ledger (11_scheduling.md R399 to R401). -/

namespace Sys2Proof.Machine

/-- A BLOB_WRITE in progress: object, next offset, bytes so far. -/
structure BlobWr where
  index : Nat
  sub : Nat
  bytes : List Byte
  deriving DecidableEq, Repr

/-- A management session (R563 to R565): in handshake since a tick with its transcript digest, or open. -/
structure SessSt where
  opened : Bool
  entry : Nat
  role : Nat
  slot : Nat
  /-- T of R563, and the shared secret -/
  digest : Nat
  z : Nat
  since : Nat
  lastIn : Nat
  lastOut : Nat
  mask : Nat
  /-- responses to the last 16 TAGs: TAG, OP, INDEX, SUB and the response message -/
  replies : List (Nat × Nat × Nat × Nat × List Byte)
  blob : Option BlobWr
  deriving DecidableEq, Repr

/-- An operator key table entry (R562). -/
structure OpKey where
  pub : Nat
  role : Nat
  deriving DecidableEq, Repr

/-- MODE_STATE (0x2010:01). -/
inductive ModeState | idle | preparing | committed | aborted
  deriving DecidableEq, Repr

def ModeState.code (x : ModeState) : Nat :=
  match x with | .idle => 0 | .preparing => 1 | .committed => 2 | .aborted => 3

/-- A mode change in progress (R578): the object, its new value, PREPARE's tick, who waits. -/
structure ModeChange where
  index : Nat
  sub : Nat
  value : List Byte
  /-- the value before the change, until the store has committed the new one -/
  old : List Byte
  prepare : Nat
  applied : Bool
  waiter : Waiter
  deriving DecidableEq, Repr

/-- The host mailbox (Tables 16-5, 16-6). -/
structure MbxSt where
  busy : Bool
  done : Bool
  vector : Nat
  req : Mem
  rsp : List Byte
  blob : Option BlobWr
  deriving DecidableEq, Repr

def MbxSt.reset : MbxSt :=
  { busy := false, done := false, vector := 0xFFFF, req := [], rsp := [], blob := none }

/-- A billing period's label (Tables 11-10, 11-11). -/
structure Period where
  no : Nat
  start : Nat
  end_ : Nat
  wall : Nat
  flags : Nat
  deriving DecidableEq, Repr

/-- The ledger zone (Table 11-10) and the journal; a bank lists the instances' totals. -/
structure LedgerSt where
  valid : Bool
  seq : Nat
  bank : Nat
  open_ : Period
  lastFlush : Nat
  closed : Period
  openRec : Tab Account
  /-- the instances' totals since the ledger was first initialised, as of the last flush (R397) -/
  sums : Tab Account
  closedRec : Tab Account
  /-- closed periods appended to the journal, and one not yet appended with its closing tick -/
  journal : List (Period × Tab Account)
  toJournal : Option Nat
  /-- LEN of the open period -/
  len : Nat
  /-- wall time: base in ns at a tick; a step to mark on the next period -/
  wallBase : Option (Nat × Nat)
  wallStep : Bool
  deriving DecidableEq, Repr

def LedgerSt.zero : LedgerSt :=
  { valid := false, seq := 0, bank := 0, open_ := ⟨0, 0, 0, 0, 0⟩, lastFlush := 0, closed := ⟨0, 0, 0, 0, 0⟩,
    openRec := [], sums := [], closedRec := [], journal := [], toJournal := none, len := 360000000000, wallBase := none,
    wallStep := false }

/-- The management controller as a whole. -/
structure MgmtSt where
  /-- the MAC-PHY answers (R558); failed control transactions in succession; tick of the last retry -/
  macPhy : Bool
  phyFails : Nat
  phyRetry : Nat
  sessions : Tab SessSt
  /-- ticks of the HELLOs answered in the last second -/
  hellos : List Nat
  helloFails : Nat
  recordDrops : Nat
  opKeys : Tab OpKey
  /-- values of RW objects that differ from their Default, by INDEX × 256 + SUB -/
  objs : Tab (List Byte)
  /-- objects whose stored value is pending or failed: writes answer STORE_FAIL while the store fails -/
  modeState : ModeState
  change : Option ModeChange
  applied : Nat
  modeGen : Nat
  /-- units that use the object of the last committed change (Table 16-13) -/
  modeUse : Nat
  commitTick : Nat
  target : Nat
  missed : Nat
  nextProfile : Nat
  alert : Nat
  capEvents : Nat
  mbx : MbxSt
  ledger : LedgerSt
  lastTelemetry : Nat
  lastBeacon : Nat
  /-- CODE of the record that led to the power-cycle request, its tick -/
  beaconCode : Nat
  beaconTick : Nat
  /-- energy of the block since cold start, in pJ -/
  energy : Nat
  deriving DecidableEq, Repr

def MgmtSt.zero : MgmtSt :=
  { macPhy := true, phyFails := 0, phyRetry := 0, sessions := [], hellos := [], helloFails := 0, recordDrops := 0,
    opKeys := [], objs := [], modeState := .idle, change := none, applied := 0x00FFFFFF, modeGen := 0,
    modeUse := 0x00FFFFFF,
    commitTick := 0, target := 0, missed := 0, nextProfile := 0xFF, alert := 0, capEvents := 0,
    mbx := MbxSt.reset, ledger := LedgerSt.zero, lastTelemetry := 0, lastBeacon := 0, beaconCode := 0,
    beaconTick := 0, energy := 0 }

end Sys2Proof.Machine
end

