-- ==== Sys2Proof/Machine/StPlaten.lean ====
section
/-! DEFINITION. State of embedding tables (05_tables.md) and of the platens: intake, budgets, windows,
bags, codebooks, cache, insert queue, quarantine and updates (06_platens.md, 07_updates.md). -/

namespace Sys2Proof.Machine

/-- Table states (05_tables.md Table 05-1); FREE is the absence of a descriptor. -/
inductive TblState | defining | live | retiring | orphaned
  deriving DecidableEq, Repr

/-- Mirror states (R202). -/
inductive MirrorSt | inSync | stale | resync
  deriving DecidableEq, Repr

/-- Descriptor FLAGS (Table 05-3). -/
structure TblFlags where
  dynamic : Bool
  mapped : Bool
  mirrored : Bool
  missInsert : Bool
  defaultZero : Bool
  idleEvict : Bool
  kick : Bool
  preloaded : Bool
  deriving DecidableEq, Repr

/-- The fields of a descriptor that the block maintains while the table serves (Table 05-2). -/
structure TblDyn where
  clockRate : Nat
  clockHand : Nat
  freeCount : Nat
  fresh : Nat
  liveCount : Nat
  generation : Nat
  mirrorState : MirrorSt
  /-- the stack of the copy out of step while MIRROR_STATE is not IN_SYNC (R202) -/
  staleStack : Nat
  /-- granules of 2 MiB dirtied by the surviving platen (R202) -/
  dirty : List Nat
  deriving DecidableEq, Repr

/-- A table descriptor (Table 05-2). -/
structure TableDesc where
  owner : Nat
  flags : TblFlags
  rowFormat : Nat
  updSrc : Nat
  elems : Nat
  pqM : Nat
  rowBytes : Nat
  pitch : Nat
  rps : Nat
  spr : Nat
  rowBase : Nat
  slots : Nat
  defaultSlot : Nat
  auxBase : Nat
  indexLimit : Nat
  bucketsLog2 : Nat
  mirrorStack : Nat
  freqShift : Nat
  state : TblState
  seed : W64
  freeBase : Nat
  codebookBase : Nat
  dyn : TblDyn
  deriving DecidableEq, Repr

/-- Where an admitted entry stands in the three phases of a window (R222). -/
inductive LkStage
  | bucket1
  | bucket2
  | rowMap
  | row (slot : Nat) (outcome : Nat)
  | settled
  deriving DecidableEq, Repr

/-- What a bag descriptor gives a platen (06_platens.md Table 06-3), with the entries sent for it. -/
structure BagDesc where
  bag : Nat
  op : Nat
  rfmt : Nat
  elems : Nat
  resOff : Nat
  expected : Nat
  deriving DecidableEq, Repr

/-- A lookup entry on its way through a platen; `row` is its place among its bag's entries. -/
structure LkEntry where
  src : LkSrc
  idx : Nat
  rowNo : Nat
  bd : BagDesc
  key : Nat
  table : Nat
  weight : Nat
  ctx : Nat
  inst : Nat
  noInsert : Bool
  noAdmit : Bool
  /-- served by the mirror copy -/
  mirror : Bool
  /-- already sent once to the other copy (R211) -/
  resent : Bool
  stage : LkStage
  /-- every row sheet so far came from the cache (Table 06-7) -/
  cached : Bool
  /-- row sheets read so far: sheet number within the row, bytes -/
  got : Tab (List Byte)
  deriving DecidableEq, Repr

/-- A remote gather in execution (13_network.md R456): its progress is a ticket's, its result area a
buffer of the NP. -/
structure GatherSt where
  tk : Ticket
  buf : Mem
  conn : Nat
  seq : Nat
  nonce : Nat
  inst : Nat
  deriving DecidableEq, Repr

/-- What travels from a galley's port to a platen, in order (R210). -/
inductive LkMsg
  | entry (e : LkEntry)
  | endMark (src : LkSrc) (count : Nat)
  deriving DecidableEq, Repr

/-- Token bucket of an instance at a platen (R216); a bucket not listed is unlimited. -/
structure Bucket where
  rate : Nat
  depth : Nat
  count : Int
  /-- accepted in the current interval: the change waits for the next refill -/
  newRate : Option (Nat × Nat × Nat)
  limited : Bool
  deriving DecidableEq, Repr

/-- A bag at a platen (R229, R213). -/
structure BagSt where
  src : LkSrc
  table : Nat
  bd : BagDesc
  /-- accumulator positions held, none before the first entry is admitted -/
  acc : List PoolAcc
  held : Nat
  n : Nat
  lost : Nat
  /-- OUT_SAT of a ROWS bag's rows -/
  rowSat : Bool
  shape : Bool
  /-- entries already settled at this platen, kept for a resend after a reset (R211, R237) -/
  delivered : List LkEntry
  deriving DecidableEq, Repr

/-- A window in flight (R221). -/
structure Window where
  id : Nat
  entries : List LkEntry
  deriving DecidableEq, Repr

/-- A list's end mark at a platen: entries sent and entries settled (R210, R229). -/
structure EndSt where
  src : LkSrc
  count : Nat
  settled : Nat
  marked : Bool
  deriving DecidableEq, Repr

/-- A resident or loading codebook (R227, R228). -/
structure Codebook where
  table : Nat
  generation : Nat
  slots : Nat
  data : List Byte
  resident : Bool
  used : Nat
  deriving DecidableEq, Repr

/-- A line of the hot-row cache (R231): the sheet number held, the use count. -/
structure CacheLine where
  sheet : Nat
  use : Nat
  deriving DecidableEq, Repr

/-- A queued insert (R190): from a miss, or from an update record waiting on it (07_updates.md). -/
structure InsertReq where
  table : Nat
  id : Nat
  record : Option Nat
  deriving DecidableEq, Repr

/-- A slot in quarantine (R191): when it was freed, and the windows it waits for (platen, window). -/
structure QSlot where
  table : Nat
  slot : Nat
  tick : Nat
  windows : List (Nat × Nat)
  deriving DecidableEq, Repr

/-- Allocator state the home platen holds for a table (R191): the true FREE_COUNT and FRESH, of which the
descriptor holds the committed ones, and pushes since FREE_COUNT was last written. -/
structure AllocSt where
  top : Nat
  fresh : Nat
  pushes : Nat
  deriving DecidableEq, Repr

/-- The lookup side of a platen. -/
structure PlatenSt where
  intake : List LkEntry
  buckets : Tab Bucket
  collect : List LkEntry
  collectTick : Nat
  admitTick : Nat
  windows : List Window
  nextWindow : Nat
  bags : List BagSt
  accUsed : Nat
  ends : List EndSt
  codebooks : List Codebook
  /-- lines by set × 12 + way -/
  cache : Tab CacheLine
  sketch : Tab Nat
  inserts : List InsertReq
  quarantine : List QSlot
  freqQ : List (Nat × Nat)
  hits : Tab Nat
  alloc : Tab AllocSt
  dropped : Nat
  paced : Bool
  deriving DecidableEq, Repr

def PlatenSt.zero : PlatenSt :=
  { intake := [], buckets := [], collect := [], collectTick := 0, admitTick := 0, windows := [],
    nextWindow := 0, bags := [], accUsed := 0, ends := [], codebooks := [], cache := [], sketch := [],
    inserts := [], quarantine := [], freqQ := [], hits := [], alloc := [], dropped := 0,
    paced := false }

end Sys2Proof.Machine
end

