-- ==== Sys2Proof/Machine/StServe.lean ====
section
/-! DEFINITION. State of the update front end (07_updates.md) and of serving: the imposition table, step
models, batches and proofs (09_serving.md, 14_recovery.md R498 to R504). -/

namespace Sys2Proof.Machine

/-- An update record (Table 07-1) held between reading and result; `place` is where its bytes lie. -/
structure UpdRec where
  src : UpdSrc
  inst : Nat
  ctx : Nat
  place : Nat
  bytes : Nat
  key : Nat
  table : Nat
  op : Nat
  area : Nat
  verCheck : Bool
  version : Nat
  seq : Nat
  payload : List Byte
  noResult : Bool
  /-- platen it was sent to; none when the front end answered it -/
  platen : Option Nat
  /-- waiting for its insert to be placed (R251) -/
  inserting : Bool
  /-- its result, held until it can be written (R493) -/
  result : Option Nat
  deriving DecidableEq, Repr

/-- A record buffer or message being read by the front end (R247). -/
structure UpdBuf where
  src : UpdSrc
  inst : Nat
  ctx : Nat
  va : Nat
  len : Nat
  off : Nat
  noResult : Bool
  /-- message bytes, for a TABLE_UPDATE -/
  data : List Byte
  bad : Nat
  firstBad : Nat
  /-- stop status once reading ends early: FAULTED with its fault code -/
  fault : Option Nat
  deriving DecidableEq, Repr

/-- An update ring (R245). -/
structure UpdRing where
  inst : Nat
  log2 : Nat
  va : Nat
  ctrl : Nat
  prod : Nat
  /-- read position and CONS, as running byte counts -/
  next : Nat
  cons : Nat
  polled : Nat
  stopped : Bool
  /-- UPDATE_RING REMOVE that waits for the ring's last result -/
  removing : Option (Nat × Nat)
  deriving DecidableEq, Repr

/-- An EPOCH_FENCE in execution (R264, R265): covered records by number, covered inserts. -/
structure EpFence where
  queue : Nat
  no : Nat
  recs : List Nat
  inserts : List (Nat × Nat)
  deriving DecidableEq, Repr

/-- Sequence states (Table 09-2); FREE is the absence of the entry. -/
inductive SeqSt | idle | ready | running | closing | suspended
  deriving DecidableEq, Repr

/-- An imposition entry (Table 09-1). -/
structure SeqEntry where
  st : SeqSt
  proof : Bool
  periodic : Bool
  pend : Bool
  resumed : Bool
  late : Bool
  drafted : Bool
  model : Nat
  inst : Nat
  ctx : Nat
  overrun : Nat
  loc : Nat
  input : Nat
  steps : Nat
  deadlineRel : Nat
  deadline : Nat
  readyTime : Nat
  lastDone : Nat
  stateVA : Nat
  stateBytes : Nat
  proofStep : Nat
  lastStep : Nat
  pendDeadline : Nat
  /-- start of its reservation in the state pool of its proof stack, in bytes (R500) -/
  poolOff : Nat
  changed : Bool
  deriving DecidableEq, Repr

/-- A proof record (Table 14-14); the state halves lie in the pool. -/
structure ProofRec where
  entry : SeqEntry
  round : Nat
  half : Bool
  tick : Nat
  deriving DecidableEq, Repr

/-- A step-model slot (Table 09-4), with its cost model and counters (R320, R322, R326, R327). -/
structure StepModel where
  ctx : Nat
  queue : Nat
  imageVA : Nat
  sealNo : Nat
  batchMax : Nat
  maxBatches : Nat
  dlmMode : Nat
  margin : Int
  mbox : Nat
  wlBase : Nat
  wlLen : Nat
  templ : Nat
  cost : List Byte
  cal : Nat
  batches : Nat
  drafts : Nat
  late : Nat
  skipped : Nat
  wouldDraft : Nat
  reports : Nat
  /-- work-list runs in allocation order: batch, offset, bytes, freed; and where the last one ends -/
  runs : List (Nat × Nat × Nat × Bool)
  wlPos : Nat
  deriving DecidableEq, Repr

/-- A batch (R314 to R320) until it is retired; `verdicts` are decided once for each boundary (R325). -/
structure Batch where
  model : Nat
  domain : Nat
  stepNo : Nat
  stepTick : Nat
  number : Nat
  members : List Nat
  /-- the slot's fields as they stood at the build (R308) -/
  conf : StepModel
  deadline : Nat
  wlVA : Nat
  queue : Nat
  no : Nat
  verdicts : List Nat
  draftFrom : Option Nat
  wouldDraft : Bool
  predicted : Nat
  /-- tick of the first boundary-0 report, and k then (R327) -/
  zeroReport : Option (Nat × Nat)
  /-- last phase reported by each galley, and the highest answered -/
  reports : Tab Nat
  /-- galleys whose store to REPORT was forwarded and not answered yet -/
  fwd : List Nat
  /-- completion: status and tick of the entry -/
  done : Option (Nat × Nat)
  drafted : Bool
  preempted : Bool
  deriving DecidableEq, Repr

/-- The step configuration and grid (R310). -/
structure StepCfg where
  enable : Nat
  period : Nat
  proofPeriod : Nat
  origin : Option Nat
  /-- step number and tick from which the present period counts -/
  baseK : Nat
  baseTick : Nat
  /-- a period that takes effect after a step tick of domain 0 that is due: period, that step and its tick -/
  newPeriod : Option (Nat × Nat × Nat)
  /-- last step number built in each domain -/
  built : Tab Nat
  deriving DecidableEq, Repr

/-- Serving state as a whole. -/
structure ServeSt where
  cfg : StepCfg
  models : Tab StepModel
  seqs : Tab SeqEntry
  batches : Tab Batch
  nextBatch : Nat
  proofs : Tab ProofRec
  rounds : Nat
  /-- PROOF_PERIOD boundary last acted on, by slice -/
  lastRound : Tab Nat
  /-- slices lost and not yet restored, and slices whose proof area was lost and not rewritten yet (R504) -/
  lost : List Nat
  proofLost : List Nat
  /-- slices being served from their proofs, and slices whose write-back is in progress (R333) -/
  fromProof : List Nat
  writeBack : List Nat
  deriving DecidableEq, Repr

def StepCfg.zero : StepCfg :=
  { enable := 0, period := 100000, proofPeriod := 1000000, origin := none, baseK := 0, baseTick := 0,
    newPeriod := none, built := [] }

def ServeSt.zero : ServeSt :=
  { cfg := StepCfg.zero, models := [], seqs := [], batches := [], nextBatch := 0, proofs := [], rounds := 0,
    lastRound := [], lost := [], proofLost := [], fromProof := [], writeBack := [] }

/-- The update front end as a whole (R247): records by acceptance number. -/
structure UpdSt where
  recs : Tab UpdRec
  nextRec : Nat
  bufs : List UpdBuf
  rings : Tab UpdRing
  fences : List EpFence
  deriving DecidableEq, Repr

def UpdSt.zero : UpdSt := { recs := [], nextRec := 0, bufs := [], rings := [], fences := [] }

end Sys2Proof.Machine
end

