-- ==== Sys2Proof/Machine/StNet.lean ====
section
/-! DEFINITION. State of the network ports and the quire transport (13_network.md). -/

namespace Sys2Proof.Machine

/-- A logical port (R441 to R445, Table 13-6). -/
structure PortSt where
  mac : Nat
  ip : Nat
  quirePort : Nat
  maxFrame : Nat
  pfcEnable : Nat
  xoff : Nat
  xon : Nat
  headroom : Nat
  weights : List Nat
  up : Bool
  /-- receive-buffer bytes held by each priority -/
  occ : Tab Nat
  /-- priorities for which the block has sent XOFF, and the tick of the last pause frame -/
  xoffed : List Nat
  pfcTick : Nat
  /-- priorities paused by the peer, until a tick -/
  paused : Tab Nat
  /-- transmit queues by priority: frames waiting -/
  txq : Tab (List (List Byte))
  /-- priority served last, with turns left (R445) -/
  turn : Nat × Nat
  deriving DecidableEq, Repr

def PortSt.reset : PortSt :=
  { mac := 0, ip := 0, quirePort := 19793, maxFrame := 9216, pfcEnable := 8, xoff := 8, xon := 4,
    headroom := 16, weights := List.replicate 8 1, up := false, occ := [], xoffed := [], pfcTick := 0,
    paused := [], txq := [], turn := (0, 0) }

/-- Connection states (Table 13-6). -/
inductive ConnState | disabled | opened | broken
  deriving DecidableEq, Repr

/-- A message sent and not yet done (R453, R454, R457). -/
structure Outst where
  seq : Nat
  /-- ring position of its descriptor, and bytes it takes -/
  pos : Nat
  len : Nat
  type : Nat
  payLen : Nat
  resultVA : Nat
  doneVA : Nat
  doneValue : Nat
  tries : Nat
  sent : Nat
  acked : Bool
  /-- outcome once done: FAIL_COUNT, RESULT_WORD, OUTCOME -/
  outcome : Option (Nat × Nat × Nat)
  fail : Nat
  word : Nat
  /-- GATHER_REPLY reassembly: EXEC held, fragments by offset, first fragment kept for last -/
  exec : Option Nat
  frags : List Nat
  first : List Byte
  total : Nat
  deriving DecidableEq, Repr

/-- A message received past a gap, or being executed (R453). -/
structure Inmsg where
  seq : Nat
  type : Nat
  data : List Byte
  deriving DecidableEq, Repr

/-- What the receive state keeps of a message done (R453). -/
structure RxDone where
  fail : Nat
  word : Nat
  deriving DecidableEq, Repr

/-- A connection (R449, Table 13-6). -/
structure ConnSt where
  state : ConnState
  inst : Nat
  ctx : Nat
  port : Nat
  vid : Nat
  pcp : Nat
  dscp : Nat
  peerMac : Nat
  peerIp : Nat
  peerConn : Nat
  txEpoch : Nat
  rxEpoch : Nat
  types : Nat
  maxPayload : Nat
  window : Nat
  rto : Nat
  retryMax : Nat
  enc : Bool
  txKey : Nat
  rxKey : Nat
  sendVA : Nat
  sendLog2 : Nat
  sendCtrl : Nat
  ingestVA : Nat
  ingestLog2 : Nat
  ingestCtrl : Nat
  rxStateVA : Nat
  breakCode : Nat
  /-- send side -/
  seq : Nat
  frame : Nat
  nonce : Nat
  prod : Nat
  next : Nat
  cons : Nat
  outst : List Outst
  polled : Nat
  /-- receive side -/
  cum : Nat
  done : Tab RxDone
  waiting : List Inmsg
  /-- TABLE_UPDATE SEQ being applied -/
  applying : List Nat
  taken : Nat
  exec : Nat
  /-- bases of ACKs due, and reports due -/
  ackBases : List Nat
  ackDue : Option Nat
  reports : List (Nat × Nat × Nat)
  inProd : Nat
  inCons : Nat
  deriving DecidableEq, Repr

def ConnSt.fresh : ConnSt :=
  { state := .disabled, inst := 0, ctx := 0, port := 0, vid := 0, pcp := 0, dscp := 0, peerMac := 0,
    peerIp := 0, peerConn := 0, txEpoch := 1, rxEpoch := 1, types := 0, maxPayload := 8192,
    window := 16384, rto := 20000, retryMax := 16, enc := false, txKey := 0, rxKey := 0, sendVA := 0,
    sendLog2 := 16, sendCtrl := 0, ingestVA := 0, ingestLog2 := 0, ingestCtrl := 0, rxStateVA := 0,
    breakCode := 0, seq := 0, frame := 0, nonce := 0, prod := 0, next := 0, cons := 0, outst := [],
    polled := 0, cum := 0, done := [], waiting := [], applying := [], taken := 0,
    exec := 0, ackBases := [], ackDue := none, reports := [], inProd := 0, inCons := 0 }

/-- A raw ingest filter (R460). -/
structure RawFilter where
  port : Nat
  mac : Nat
  etherType : Nat
  vid : Nat
  conn : Nat
  deriving DecidableEq, Repr

/-- The network ports as a whole. -/
structure NetSt where
  /-- mode of each physical port in force, and as set for the next warm start (R441) -/
  mode : Tab Nat
  modeSet : Tab Nat
  ports : Vector PortSt 8
  conns : Tab ConnSt
  filters : Tab RawFilter
  nextGather : Nat
  deriving DecidableEq, Repr

def NetSt.zero : NetSt :=
  { mode := [], modeSet := [], ports := Vector.replicate 8 PortSt.reset, conns := [], filters := [],
    nextGather := 0 }

end Sys2Proof.Machine
end

