-- ==== Sys2Proof/Machine/State.lean ====
section
/-! DEFINITION. The machine's state. -/

namespace Sys2Proof.Machine

inductive FormeStatus | inService | resetting | held | outOfService
  deriving DecidableEq, Repr

structure FormeSt where
  status : FormeStatus
  k : Nat
  stackUp : Bool
  deriving DecidableEq, Repr

/-- What leaves the block where no state of the model receives it. -/
inductive Out
  | msix (fn vector : Nat)
  | frame (port : Nat) (bytes : List Byte)
  /-- an Apgus datagram: session (0 for a BEACON), KIND, body in clear as it is before encryption -/
  | datagram (session kind : Nat) (body : List Byte)
  /-- a frame on the management segment other than a datagram -/
  | mgt (bytes : List Byte)
  /-- a response on a function's DOE mailbox -/
  | doe (fn : Nat) (bytes : List Byte)
  /-- completion of a host or peer read: what it addressed, its data, whether it is poisoned -/
  | readData (kind addr : Nat) (bytes : List Byte) (poisoned : Bool)
  | event (code : Nat) (x y : Nat)
  deriving DecidableEq, Repr

structure State where
  now : Nat
  fresh : Nat
  lastRun : Tab Nat
  profile : Nat
  domains : Nat
  galleys : Vector GalleySt 64
  formes : Vector FormeSt 8
  platens : Vector PlatenSt 8
  hbm : Vector StackSt 8
  fabric : Tab (List LkMsg)
  answers : List (Nat × LkEntry)
  gathers : Tab GatherSt
  tables : Tab TableDesc
  generations : Tab Nat
  mem : Mem
  poison : List Nat
  /-- stacks whose context memory was filled with poison (08_memory.md R299), with the byte ranges written
  whole since, as start and end -/
  lostMem : Tab (List (Nat × Nat))
  hostMem : Mem
  corrected : Nat
  ctxs : Tab CtxSt
  queues : Tab QueueSt
  fences : Tab FenceSt
  seals : Tab SealSt
  sealCount : Nat
  steps : Tab StepRec
  nextStep : Nat
  useCount : Nat
  resident : Tab Nat
  switches : Tab (List (Nat × Nat))
  /-- a model switch being measured in a domain: model, start, galleys still to wait or take (R388) -/
  switching : Tab (Nat × Nat × List Nat)
  upd : UpdSt
  serve : ServeSt
  host : HostSt
  net : NetSt
  fm : FmSt
  bnd : BndSt
  sec : SecSt
  mgmt : MgmtSt
  /-- telemetry counters, by the INDEX × 256 + SUB of their dictionary objects (16_dictionary.md) -/
  tele : Tab Nat
  out : List Out
  /-- commands that wait, first in, first out -/
  pending : List Instr
  deriving DecidableEq, Repr

/-- No command of this block stops its step with a fault: every event the spec describes ends in a state. -/
inductive Fault
  deriving DecidableEq, Repr

/-- Why a command is not run. -/
inductive Refusal
  /-- a command whose meaning is not written; safe -/
  | notModelled (mnemonic : String)
  deriving DecidableEq, Repr

/-- Right after reset: the block is held in reset, POR_N low, nothing powered (17_boundary.md R586, R589). -/
def State.reset : State :=
  { now := 0, fresh := 0, lastRun := [], profile := 0, domains := 1,
    galleys := Vector.replicate 64 GalleySt.zero, formes := Vector.replicate 8 ⟨.resetting, 16, false⟩,
    platens := Vector.replicate 8 PlatenSt.zero, hbm := Vector.replicate 8 StackSt.zero,
    fabric := [], answers := [], gathers := [], tables := [], generations := [], mem := [], poison := [],
    lostMem := [], hostMem := [], corrected := 0, ctxs := [], queues := [], fences := [], seals := [],
    sealCount := 0, steps := [], nextStep := 0, useCount := 0, resident := [], switches := [], switching := [],
    upd := UpdSt.zero, serve := ServeSt.zero, host := HostSt.zero, net := NetSt.zero, fm := FmSt.zero,
    bnd := BndSt.zero, sec := SecSt.zero, mgmt := MgmtSt.zero, tele := [], out := [], pending := [] }

end Sys2Proof.Machine
end

