-- ==== Sys2Proof/Machine/Ops.lean ====
section
/-! DEFINITION. Shared operations over the whole state: units by number, domains, device memory through
the platens, budgets. -/

namespace Sys2Proof.Machine

/-- What a command answers. -/
abbrev Res := Host.Outcome State Fault Refusal

/-- Periods of device time (ticks of 10 ns) at which something happens, with a number for each. -/
inductive Periodic
  | tokens | sketch | clock | recent | trackerClear | budget | energy | wgm
  deriving DecidableEq, Repr

def Periodic.key (p : Periodic) : Nat :=
  match p with
  | .tokens => 0 | .sketch => 1 | .clock => 2 | .recent => 3 | .trackerClear => 4 | .budget => 5 | .energy => 6 | .wgm => 7

def Periodic.period (p : Periodic) : Nat :=
  match p with
  | .tokens => 10000 | .sketch => 100000 | .clock => 10000 | .recent => 50000
  | .trackerClear => 8640000000000 | .budget => 100000 | .energy => 10000000 | .wgm => 100000

/-- Whether the boundary of a period is now and has not been acted on yet. -/
def State.due (s : State) (p : Periodic) : Bool :=
  decide (0 < s.now) && s.now % p.period == 0 && tget s.lastRun p.key != some s.now

def State.ran (s : State) (p : Periodic) : State := { s with lastRun := tput s.lastRun p.key s.now }

/-! ## Units by number -/

def State.galley (s : State) (g : Nat) : GalleySt := vget s.galleys g GalleySt.zero
def State.setGalley (s : State) (g : Nat) (x : GalleySt) : State := { s with galleys := vset s.galleys g x }
def State.modGalley (s : State) (g : Nat) (f : GalleySt → GalleySt) : State := s.setGalley g (f (s.galley g))

def State.platen (s : State) (f : Nat) : PlatenSt := vget s.platens f PlatenSt.zero
def State.setPlaten (s : State) (f : Nat) (x : PlatenSt) : State := { s with platens := vset s.platens f x }
def State.modPlaten (s : State) (f : Nat) (h : PlatenSt → PlatenSt) : State := s.setPlaten f (h (s.platen f))

def State.mapPlatens (s : State) (h : PlatenSt → PlatenSt) : State := { s with platens := s.platens.map h }

def FormeSt.dflt : FormeSt := ⟨.inService, 16, true⟩
def State.forme (s : State) (f : Nat) : FormeSt := vget s.formes f FormeSt.dflt
def State.setForme (s : State) (f : Nat) (x : FormeSt) : State := { s with formes := vset s.formes f x }

/-- Forme of a logical galley (01_architecture.md R27). -/
def formeOf (g : Nat) : Nat := g / 8
/-- Scheduling domain of a forme (01_architecture.md R34). -/
def State.domainOf (s : State) (f : Nat) : Nat := f / (8 / s.domains)

/-- Whether forme f serves and its stack is in service. -/
def State.formeUp (s : State) (f : Nat) : Bool :=
  (s.forme f).status == .inService && (s.forme f).stackUp

/-- A telemetry counter goes up. -/
def State.count (s : State) (index sub n : Nat) : State :=
  { s with tele := tput s.tele (index * 256 + sub) ((tget s.tele (index * 256 + sub)).getD 0 + n) }

/-! ## Device memory -/

/-- Stack of a device physical address (R171: bits [39:36]). -/
def stackOf (a : Nat) : Nat := a / 2 ^ 36

/-- Context memory of a stack (08_memory.md R273): from 128 MiB to 60 GiB. -/
def contextByte (a : Nat) : Bool := decide (0x8000000 ≤ a % 2 ^ 36) && decide (a % 2 ^ 36 < 0xF00000000)

/-- Whether the content of a 64-byte group was lost with its stack and not written since (R299). -/
def State.groupLost (s : State) (g : Nat) : Bool :=
  match tget s.lostMem (stackOf (64 * g)) with
  | some l => contextByte (64 * g) && !l.any (fun r => decide (r.1 ≤ 64 * g) && decide (64 * g + 64 ≤ r.2))
  | none => false

/-- Whether a 64-byte group is poisoned (08_memory.md R284, R299). -/
def State.groupBad (s : State) (g : Nat) : Bool := s.poison.contains g || s.groupLost g

/-- Whether a 64-byte group of the range is poisoned. -/
def State.poisoned (s : State) (a n : Nat) : Bool :=
  s.poison.any (fun g => overlaps (64 * g) 64 a n)
  || ((tget s.lostMem (stackOf a)).isSome
      && (List.range ((a + n + 63) / 64 - a / 64)).any (fun i => s.groupLost (a / 64 + i)))

/-- The free floating spares, the lower first: the one a reset takes. -/
def inOrder (l : List Nat) : List Nat := [64, 65].filter (fun k => l.contains k)

/-- The groups that a range covers whole are written: their poison is gone (R284). -/
def State.heal (s : State) (a n : Nat) : State :=
  let lo := (a + 63) / 64
  let hi := (a + n) / 64
  if hi ≤ lo then s
  else { s with poison := s.poison.filter (fun g => !(decide (lo ≤ g) && decide (g < hi))),
                lostMem := tmod s.lostMem (stackOf a) (fun (l : List (Nat × Nat)) => (64 * lo, 64 * hi) :: l) }

/-- Drop the cache lines of the sheets a range covers (06_platens.md R234). -/
def dropLines (c : Tab CacheLine) (a n : Nat) : Tab CacheLine :=
  tkeep c (fun _ l => !overlaps (256 * l.sheet) 256 a n)

def State.stack (s : State) (f : Nat) : StackSt := vget s.hbm f StackSt.zero
def State.modStack (s : State) (f : Nat) (h : StackSt → StackSt) : State :=
  { s with hbm := vset s.hbm f (h (s.stack f)) }

/-! ## Instances and charges (11_scheduling.md R394 to R397) -/

def State.inst (s : State) (i : Nat) : InstSt := (tget s.host.insts i).getD InstSt.fresh
def State.setInst (s : State) (i : Nat) (x : InstSt) : State :=
  { s with host := { s.host with insts := tput s.host.insts i x } }
def State.modInst (s : State) (i : Nat) (f : InstSt → InstSt) : State := s.setInst i (f (s.inst i))
def State.modFn (s : State) (i : Nat) (f : FnRegs → FnRegs) : State :=
  s.modInst i (fun x => { x with fn := f x.fn })

/-- Whether a queue's instance lets new commands be fetched and started: ENABLED (12_host_port.md R406). -/
def State.instRuns (s : State) (i : Nat) : Bool := (s.inst i).state == .enabled

def State.modCtx (s : State) (c : Nat) (f : CtxSt → CtxSt) : State := { s with ctxs := tmod s.ctxs c f }

def Account.add (a b : Account) : Account :=
  ⟨a.ticks + b.ticks, a.hbm + b.hbm, a.host + b.host, a.net + b.net, a.pj + b.pj, a.preempts + b.preempts,
   a.switches + b.switches⟩

/-- n events of an energy class (R396). -/
def energyOf (cls n : Nat) : Nat := n * Config.energyCoef cls

/-- Charge an instance, and a context of it when the work carries one; a lost context's counters have
stopped (R375, R395, R397). -/
def State.account (s : State) (ctx : Option Nat) (inst : Nat) (a : Account) : State :=
  let s := match ctx with
    | some c => s.modCtx c (fun (x : CtxSt) => if x.state = CtxState.lost then x else { x with acct := x.acct.add a })
    | none => s
  s.modInst inst (fun x => { x with acct := x.acct.add a, period := x.period.add a })

/-- Bytes added to a command's own counts (10_queues.md R363, 11_scheduling.md R395). -/
def State.cmdBytes (s : State) (q no : Nat) (a : Account) : State :=
  { s with queues := tmod s.queues q (fun (x : QueueSt) => { x with cmds := x.cmds.map (fun (c : Cmd) =>
      if c.no = no then { c with hbm := c.hbm + a.hbm, host := c.host + a.host, net := c.net + a.net } else c) }) }

/-- The step that owns a galley. -/
def State.ownerOf (s : State) (g : Nat) : Option StepRec := (s.galley g).owner.bind (fun k => tget s.steps k)

/-- Charge an event in a galley to the context of its step, and bytes to the step's LAUNCH; a galley between
steps charges the context of its program. -/
def State.stepCharge (s : State) (g : Nat) (a : Account) : State :=
  match s.ownerOf g with
  | some p => (s.account (some p.ctx) p.inst a).cmdBytes p.queue p.no a
  | none =>
    match (s.galley g).ctx with
    | some c => match tget s.ctxs c with
      | some x => s.account (some c) x.inst a
      | none => s
    | none => s

/-- The physical galley of a logical galley (R28). -/
def State.physGalley (s : State) (g : Nat) : Nat := (tget s.fm.galleyMap g).getD g

/-- Bytes charged to the context of a galley's step since `before` are its LAUNCH's too. -/
def State.tagCmd (s before : State) (g : Nat) : State :=
  match s.ownerOf g with
  | some p =>
    match tget s.ctxs p.ctx, tget before.ctxs p.ctx with
    | some x, some y => s.cmdBytes p.queue p.no
        { Account.zero with hbm := x.acct.hbm - y.acct.hbm, host := x.acct.host - y.acct.host, net := x.acct.net - y.acct.net }
    | _, _ => s
  | none => s

/-- Charge n sheets at platen f: tokens of the instance's bucket, bytes and energy (06_platens.md R217,
R395). -/
def State.chargeTo (s : State) (f : Nat) (ctx : Option Nat) (inst n : Nat) : State :=
  let s := (s.count (0x8400 + f) 2 n).modStack f (fun x => { x with
    news := x.news.map (fun (e : MemEvent) => if e.tag = none then { e with tag := some (ctx, inst) } else e) })
  (s.modPlaten f (fun p => { p with buckets := tmod p.buckets inst (fun b =>
    if b.limited then { b with count := b.count - n } else b) })).account ctx inst
    { Account.zero with hbm := 256 * n, pj := energyOf 5 n }

/-- Charge an instance only, for n sheets at platen f. -/
def State.charge (s : State) (f inst n : Nat) : State := s.chargeTo f none inst n

/-! ## Errors in the stacks (08_memory.md R283, R284, R286, R287) -/

/-- An event of the controller log: the last 4,096 (R275). -/
def State.memLog (s : State) (f group kind : Nat) : State :=
  s.modStack f (fun x => { x with log := (x.log ++ [(group, kind)]).drop ((x.log.length + 1) - 4096) })

/-- An event for the fault manager. -/
def State.memNews (s : State) (f : Nat) (e : MemEvent) : State :=
  (s.memLog f e.group (if e.fix = [] then 1 else 0)).modStack f (fun x => { x with news := x.news ++ [e] })

/-- R283: the controller decodes one beat group that a read meets, and writes back what it corrected or
found uncorrectable. -/
def State.decodeGroup (s : State) (group : Nat) : State :=
  let f := group / 2 ^ 30
  match tget (s.stack f).errors group with
  | none => s
  | some e =>
    let a := 64 * group
    let clear (s : State) := s.modStack f (fun x => { x with errors := tdel x.errors group })
    let asRead := flipSymbols (mread s.mem a 64) e
    match eccDecode e with
    | .clean => clear { s with mem := mwrite s.mem a asRead }
    | .corrected fix =>
      let s := clear { s with mem := mwrite s.mem a (flipSymbols asRead fix) }
      s.memNews f ⟨group, fix.map (·.1), false, none⟩
    | .poisoned => clear { s with mem := mwrite s.mem a asRead, poison := s.poison.insert group }
    | .uncorrectable =>
      (clear { s with mem := mwrite s.mem a asRead, poison := s.poison.insert group }).memNews f ⟨group, [], false, none⟩

/-- Decode the groups of every sheet that a range touches, as its reading does. -/
def State.decodeRange (s : State) (a n : Nat) : State :=
  let lo := a / 256 * 4
  let hi := (a + n + 255) / 256 * 4
  let errs := ((s.stack (stackOf a)).errors.map (·.1)).filter (fun g => decide (lo ≤ g) && decide (g < hi))
  errs.foldl State.decodeGroup s

/-! ## Writing device memory -/

/-- R426: pages written while their owner is tracked. -/
def State.noteDirty (s : State) (a n : Nat) : State :=
  let pages := (List.range ((a + n - 1) / 65536 - a / 65536 + 1)).map (fun i => a / 65536 + i)
  let hit := pages.filter (fun p => match tget s.host.grants (p / 32) with
    | some (i, _) => (s.inst i).track && !s.host.dirty.contains p
    | none => false)
  if hit.isEmpty then s else { s with host := { s.host with dirty := hit ++ s.host.dirty } }

/-- The bytes of a write with those that fall in a poisoned group it does not cover taken out (R284): what
is left, as address and byte. -/
def keptBytes (bad : List Nat) (a : Nat) (bytes : List Byte) : List (Nat × Byte) :=
  (bytes.zipIdx.map (fun p => (a + p.2, p.1))).filter (fun p => !bad.contains (p.1 / 64))

/-- Sheets that a byte range touches. -/
def sheetsOf (a n : Nat) : Nat := if n = 0 then 0 else (a + n - 1) / 256 - a / 256 + 1

/-- Pseudo-channel of a stack offset: channel and PC bit (08_memory.md R277). -/
def pseudoOf (off : Nat) : Nat := (off / 2 ^ 8 % 32 ^^^ off / 2 ^ 22 % 32) * 2 + off / 2 ^ 13 % 2

/-- R280: the sheets of a write enter the write queues of their pseudo-channels, of 256 sheets each. -/
def queueWrites (wq : Tab (List QWrite)) (now a n : Nat) : Tab (List QWrite) :=
  (List.range (sheetsOf a n)).foldl (fun (t : Tab (List QWrite)) i =>
    let sh := a / 256 + i
    let k := pseudoOf (sh * 256 % 2 ^ 36)
    let l := (tget t k).getD []
    if l.any (fun w => w.sheet == sh) then t else tput t k ((l ++ [(⟨sh, now⟩ : QWrite)]).drop (l.length + 1 - 256))) wq

/-- A write at the platen's ordering point: the bytes; errors and poison of groups written whole cleared; a
partial write of a poisoned group discarded and logged (R284); and the cache kept consistent: an
update-path write keeps the line, any other drops it (06_platens.md R234). -/
def State.devWrite (s : State) (a : Nat) (bytes : List Byte) (keepLine : Bool) : State :=
  let n := bytes.length
  if n = 0 then s
  else
    let f := stackOf a
    let whole (g : Nat) := decide (a ≤ 64 * g) && decide (64 * g + 64 ≤ a + n)
    let ends := [a / 64, (a + n - 1) / 64].dedup.filter (fun g => !whole g)
    let s := ends.foldl State.decodeGroup s
    let bad := ends.filter (fun g => s.groupBad g)
    let s := s.modStack f (fun x => { x with errors := tkeep x.errors (fun g _ => !whole g) })
    let mem := if bad.isEmpty then mwrite s.mem a bytes
      else (keptBytes bad a bytes).foldl (fun m p => mput m p.1 p.2) s.mem
    let s := State.heal { s with mem := mem } a n
    let s := (bad.foldl (fun s g => s.memNews f ⟨g, [], true, none⟩) s).noteDirty a n
    let s := s.modStack f (fun x => { x with wq := queueWrites x.wq s.now a n })
    if keepLine then s
    else s.modPlaten f (fun p => { p with cache := dropLines p.cache a n })

/-- Whether an instance may take sheets at platen f (R218). -/
def State.hasTokens (s : State) (f inst : Nat) : Bool :=
  match tget (s.platen f).buckets inst with
  | none => true
  | some b => !b.limited || decide (0 < b.count)


end Sys2Proof.Machine
end

