-- ==== Sys2Proof/Machine/SortCore.lean ====
section
/-! DEFINITION. The sort core's own operations (03_sort.md): registers, the case with its alignment,
range and interlock rules, scalar, vector, conversion, MX and matrix results, CSRs and the residue
checker, as functions of the sort's state. -/

namespace Sys2Proof.Machine

/-! ## The hash mix (05_tables.md R184) -/

/-- mix of R184, modulo 2^64. -/
def mix (x : W64) : W64 :=
  let a := x ^^^ (x >>> 32)
  let b := a * 0x8F4B2D61A7C395E7#64
  let c := b ^^^ (b >>> 29)
  let d := c * 0xB36E0F195CD47A2B#64
  d ^^^ (d >>> 32)

/-! ## Results of an instruction -/

/-- Exception causes of sorts and compositors (03_sort.md Table 03-19, 04_galleys.md Table 04-9). -/
inductive Cause
  | illegalInstr | pcRange | caseRange | misaligned | streamRange | lookupRange | msgDest | slugIndex
  | slugOverrun | residueExhausted | eccUncorr
  | compIllegal | compRange | moveFormat | shareIndex | lockstepMismatch
  deriving DecidableEq, Repr

/-- The cause values of the two tables. -/
def Cause.value : Cause → Nat
  | .illegalInstr => 0x01 | .pcRange => 0x02 | .caseRange => 0x03 | .misaligned => 0x04
  | .streamRange => 0x05 | .lookupRange => 0x06 | .msgDest => 0x07 | .slugIndex => 0x08
  | .slugOverrun => 0x09 | .residueExhausted => 0x0A | .eccUncorr => 0x0B
  | .compIllegal => 0x11 | .compRange => 0x12 | .moveFormat => 0x13 | .shareIndex => 0x14
  | .lockstepMismatch => 0x15

/-- What one instruction does to its sort: completes in sequence (and whether a replay was counted),
completes with a new PC, stalls, raises a cause, or meets a hard residue mismatch (R122, R124). -/
inductive SortRes
  | next (t : SortSt) (corrected : Bool)
  | jump (t : SortSt)
  | stall (t : SortSt)
  | exc (c : Cause)
  | hard (t : SortSt)
  deriving DecidableEq, Repr

/-- What an instruction sees outside its sort. -/
structure SortEnv where
  now : Nat
  share : Nat
  sliver : Nat
  slivers : Nat
  seed : W64
  test : Bool
  slugCount : Nat
  preempt : Bool
  deriving DecidableEq, Repr

/-! ## Registers -/

/-- Scalar register r; s0 reads as zero (R90). -/
def SortSt.gs (t : SortSt) (r : Reg) : W64 := if r = 0 then 0 else vget t.s r.toNat 0

/-- Write scalar register r; s0 ignores writes (R90). -/
def SortSt.ss (t : SortSt) (r : Reg) (x : W64) : SortSt :=
  if r = 0 then t else { t with s := vset t.s r.toNat x }

/-- Vector register r. -/
def SortSt.gv (t : SortSt) (r : Reg) : W512 := vget t.v r.toNat 0

def SortSt.sv (t : SortSt) (r : Reg) (x : Nat) : SortSt :=
  { t with v := vset t.v r.toNat (BitVec.ofNat 512 x) }

/-- Tile r. -/
def SortSt.ga (t : SortSt) (r : Nat) : BitVec 2048 := vget t.a r 0

def SortSt.sa (t : SortSt) (r : Nat) (x : Nat) : SortSt :=
  { t with a := vset t.a r (BitVec.ofNat 2048 x) }

/-- The register after r, of a register pair. -/
def Reg.succ (r : Reg) : Reg := r + 1

/-- Whether a register number is odd. -/
def Reg.odd (r : Reg) : Bool := r.toNat % 2 == 1

/-- The 1,024-bit value of a register pair. -/
def SortSt.gvPair (t : SortSt) (r : Reg) : Nat := (t.gv r).toNat + 2 ^ 512 * (t.gv (Reg.succ r)).toNat

/-- Set the sticky arithmetic flags (R71). -/
def SortSt.flag (t : SortSt) (f : Flags) : SortSt := { t with ssr := t.ssr ||| f.setWidth 32 }

/-- imm12 sign-extended to 64 bits (R97). -/
def imm64 (i : BitVec 12) : W64 := i.signExtend 64

/-! ## Scalar results (R101, R102) -/

def aluOp (op : AluOp) (x y : W64) : W64 :=
  match op with
  | .add => x + y
  | .sub => x - y
  | .and => x &&& y
  | .or => x ||| y
  | .xor => x ^^^ y
  | .shl => x <<< (y.toNat % 64)
  | .shr => x >>> (y.toNat % 64)
  | .sar => x.sshiftRight (y.toNat % 64)

def mulOp (op : MulOp) (x y : W64) : W64 :=
  match op with
  | .mul => x * y
  | .mulhu => BitVec.ofNat 64 (x.toNat * y.toNat / 2 ^ 64)
  | .mulhs => BitVec.ofInt 64 (x.toInt * y.toInt / 2 ^ 64)

/-- R102: no trap; x ÷ 0 gives all ones and remainder x; −2^63 ÷ −1 gives −2^63 and remainder 0. -/
def divOp (op : DivOp) (x y : W64) : W64 :=
  match op with
  | .divu => if y = 0 then BitVec.allOnes 64 else BitVec.ofNat 64 (x.toNat / y.toNat)
  | .remu => if y = 0 then x else BitVec.ofNat 64 (x.toNat % y.toNat)
  | .divs => if y = 0 then BitVec.allOnes 64 else BitVec.ofInt 64 (x.toInt.tdiv y.toInt)
  | .rems => if y = 0 then x else BitVec.ofInt 64 (x.toInt.tmod y.toInt)

def cmpOp (op : CmpOp) (x y : W64) : W64 :=
  match op with
  | .slt => if x.toInt < y.toInt then 1 else 0
  | .sltu => if x.toNat < y.toNat then 1 else 0
  | .min => if x.toInt < y.toInt then x else y
  | .max => if x.toInt < y.toInt then y else x
  | .minu => if x.toNat < y.toNat then x else y
  | .maxu => if x.toNat < y.toNat then y else x

/-- Number of ones among the low n bits. -/
def popCount : Nat → Nat → Nat
  | 0, _ => 0
  | n + 1, x => x % 2 + popCount n (x / 2)

def countOp (op : CountOp) (x : W64) : W64 :=
  match op with
  | .popc => BitVec.ofNat 64 (popCount 64 x.toNat)
  | .clz => if x = 0 then 64 else BitVec.ofNat 64 (63 - Nat.log2 x.toNat)

/-- Whether a shift immediate breaks the rule that imm12[11:6] is 0 (R101). -/
def immIllegal (op : ImmOp) (i : BitVec 12) : Bool :=
  match op with
  | .shli | .shri | .sari => decide (64 ≤ i.toNat)
  | _ => false

def immOp (op : ImmOp) (x : W64) (i : BitVec 12) : W64 :=
  match op with
  | .addi => x + imm64 i
  | .andi => x &&& imm64 i
  | .ori => x ||| imm64 i
  | .xori => x ^^^ imm64 i
  | .shli => x <<< (i.toNat % 64)
  | .shri => x >>> (i.toNat % 64)
  | .sari => x.sshiftRight (i.toNat % 64)
  | .slti => if x.toInt < (imm64 i).toInt then 1 else 0

/-- LUI's result (Table 03-6). -/
def luiVal (i : BitVec 20) : W64 := (i ++ (0 : BitVec 12)).signExtend 64

def brTaken (op : BrOp) (x y : W64) : Bool :=
  match op with
  | .beq => x == y
  | .bne => x != y
  | .blt => decide (x.toInt < y.toInt)
  | .bge => decide (y.toInt ≤ x.toInt)
  | .bltu => decide (x.toNat < y.toNat)
  | .bgeu => decide (y.toNat ≤ x.toNat)

/-- The target of a branch or jump with an instruction offset (R97), modulo 2^64. -/
def relTarget (pc : Nat) (off : Int) : Nat := (BitVec.ofInt 64 ((pc : Int) + 4 * off)).toNat

/-- Bytes of a load and whether it sign-extends (Table 03-7). -/
def loadShape : LoadOp → Nat × Bool
  | .lb => (1, true) | .lh => (2, true) | .lw => (4, true) | .ld => (8, false)
  | .lbu => (1, false) | .lhu => (2, false) | .lwu => (4, false)

def loadVal (op : LoadOp) (x : Nat) : W64 :=
  let sh := loadShape op
  if sh.2 then BitVec.ofInt 64 (toSigned (8 * sh.1) x) else BitVec.ofNat 64 x

def storeBytes : StoreOp → Nat
  | .sb => 1 | .sh => 2 | .sw => 4 | .sd => 8

/-! ## Checked instructions (R121, R122, R126) -/

/-- One more, saturating at all ones. -/
def satInc {w : Nat} (x : BitVec w) : BitVec w := if x = BitVec.allOnes w then x else x + 1

/-- An instruction whose result is checked: an armed transient injection costs a replay that is counted,
an armed persistent one is a hard mismatch before anything is written. -/
def SortSt.checked (t : SortSt) (f : SortSt → SortSt) : SortRes :=
  match t.book.inj with
  | none => .next (f t) false
  | some false =>
    .next (f { t with book := { t.book with inj := none, replays := satInc t.book.replays } }) true
  | some true => .hard { t with book := { t.book with inj := none } }

/-- Whether an ALU operation is among the checked results (R121: add and subtract). -/
def aluChecked : AluOp → Bool
  | .add => true
  | .sub => true
  | _ => false

def SortSt.maybeChecked (t : SortSt) (c : Bool) (f : SortSt → SortSt) : SortRes :=
  if c then t.checked f else .next (f t) false

/-! ## The data case (R93 to R96) -/

/-- The case's size (Table 03-2). -/
def caseBytes : Nat := 0x6000

/-- Whether a stream writes the case. -/
def StreamKind.inbound : StreamKind → Bool
  | .sc => true
  | .gc => true
  | _ => false

/-- Whether an incomplete inbound stream covers a byte of the range (R95). -/
def SortSt.inboundBusy (t : SortSt) (a n : Nat) : Bool :=
  t.tags.any (fun p => p.2.kind.inbound && overlaps p.2.dst p.2.len a n)

/-- Whether a word of the range has a double-bit error (R96). -/
def SortSt.eccBad (t : SortSt) (a n : Nat) : Bool := t.badWords.any (fun w => overlaps (8 * w) 8 a n)

/-- R130 order for a case access of n bytes: MISALIGNED, CASE_RANGE, then the interlock, then ECC. -/
def caseCheck (a n : Nat) : Option Cause :=
  if a % n ≠ 0 then some .misaligned
  else if caseBytes < a + n then some .caseRange
  else none

/-- A case load of n bytes at an address, the value used by `k` (R94, R95, R96). -/
def SortSt.caseLoad (t : SortSt) (a n : Nat) (k : Nat → SortSt) : SortRes :=
  match caseCheck a n with
  | some c => .exc c
  | none =>
    if t.inboundBusy a n then .stall t
    else if t.eccBad a n then .exc .eccUncorr
    else .next (k (mload t.dcase a n)) false

/-- A case store of n bytes (R94, R95). Words written whole lose their error. -/
def SortSt.caseStore (t : SortSt) (a n x : Nat) : SortRes :=
  match caseCheck a n with
  | some c => .exc c
  | none =>
    if t.inboundBusy a n then .stall t
    else .next { t with dcase := mstore t.dcase a n x,
                        badWords := t.badWords.filter (fun w => !(decide (a ≤ 8 * w) && decide (8 * w + 8 ≤ a + n))) } false

/-- The address rs + imm12 (Table 03-7). -/
def SortSt.ea (t : SortSt) (rs : Reg) (i : BitVec 12) : Nat := (t.gs rs + imm64 i).toNat

/-! ## Vector results -/

/-- The vector floating-point type field (Table 03-8): format and lane count. -/
def fpType (ty : BitVec 2) : Option (FFmt × Nat) :=
  match ty.toNat with
  | 0 => some (fp32, 16)
  | 1 => some (bf16, 32)
  | 2 => some (fp16, 32)
  | _ => none

/-- The vector integer type field (R106): lane width and lane count. -/
def intType (ty : BitVec 2) : Option (Nat × Nat) :=
  match ty.toNat with
  | 0 => some (32, 16)
  | 1 => some (16, 32)
  | 2 => some (8, 64)
  | _ => none

/-- A legal RM of an instruction other than the conversions: RSR is illegal (R64, R100). -/
def arithRm (rm : BitVec 3) : Option RM :=
  match RM.ofField rm.toNat with
  | some .rsr => none
  | r => r

/-- OR of flag sets. -/
def orFlags (l : List Flags) : Flags := l.foldl (· ||| ·) 0

/-- A lane-wise result of two vectors with flags. -/
def lanes2 (w n : Nat) (f : Nat → Nat → Nat × Flags) (x y : Nat) : Nat × Flags :=
  let l := (List.range n).map (fun i => f (lane w x i) (lane w y i))
  (packLanes w (l.map (·.1)), orFlags (l.map (·.2)))

/-- A vector floating-point instruction of a type and mode: illegal fields raise, otherwise the
result and flags of `f` are written through the residue check when `chk`. -/
def SortSt.vfp (t : SortSt) (ty : BitVec 2) (rm : BitVec 3) (chk : Bool) (vd : Reg)
    (f : FFmt → Nat → RM → Nat × Flags) : SortRes :=
  match fpType ty, arithRm rm with
  | some (fmt, n), some r =>
    t.maybeChecked chk (fun u => let q := f fmt n r; (u.sv vd q.1).flag q.2)
  | _, _ => .exc .illegalInstr

/-- A vector integer instruction of a type. -/
def SortSt.vint (t : SortSt) (ty : BitVec 2) (vd : Reg) (f : Nat → Nat → Nat) : SortRes :=
  match intType ty with
  | some (w, n) => t.checked (fun u => u.sv vd (f w n))
  | none => .exc .illegalInstr

/-- Lane-wise integer result. -/
def ilanes (w n : Nat) (f : Nat → Nat → Nat) (x y : Nat) : Nat :=
  packLanes w ((List.range n).map (fun i => f (lane w x i) (lane w y i)))

/-! ## Stochastic rounding words (R72 to R74) -/

/-- The position word of Table 02-9 for an element of the instruction's result. -/
def posWord (t : SortSt) (e : SortEnv) (elem : Nat) : W64 :=
  BitVec.ofNat 64 (t.book.slugs % 2 ^ 16 * 2 ^ 48 + e.share % 64 * 2 ^ 42 + e.sliver % 256 * 2 ^ 34
    + t.book.rsrCount.toNat * 2 ^ 10 + elem % 1024)

/-- The low 32 bits of the random word of an element (R73). -/
def rsrWord (t : SortSt) (e : SortEnv) (elem : Nat) : Nat := (mix (e.seed ^^^ posWord t e elem)).toNat % 2 ^ 32

/-- An RSR instruction counts once (Table 02-9 COUNT). -/
def SortSt.countRsr (t : SortSt) (rm : RM) : SortSt :=
  if rm = .rsr then { t with book := { t.book with rsrCount := t.book.rsrCount + 1 } } else t

/-! ## Conversions (R107, R108) -/

/-- VCVT: the fields of Table 03-3 format VC; none for an illegal one (R100). -/
def vcvt (t : SortSt) (e : SortEnv) (tgt src ctl : BitVec 4) (rm : BitVec 3) (vd va : Reg) : Option SortSt :=
  match Elem.ofCode src.toNat, Elem.ofCode tgt.toNat, RM.ofField rm.toNat with
  | some es, some et, some r =>
    if !cvtListed src.toNat tgt.toNat then none
    else
      let n := min es.perReg et.perReg
      let ratio := max es.perReg et.perReg / n
      let fp8 := tgt.toNat == 3 || tgt.toNat == 4
      let p := if fp8 then ctl.toNat % 4 else ctl.toNat % 8
      if !fp8 && decide (ratio ≤ 4) && decide (4 ≤ ctl.toNat) then none
      else if ratio ≤ p then none
      else
        let o : CvtOpt := ⟨fp8 && !bit ctl.toNat 3, fp8 && bit ctl.toNat 2⟩
        let narrowing := decide (et.width < es.width)
        let base := if narrowing then 0 else p * n
        let x := (t.gv va).toNat
        let q := (List.range n).map (fun i => cvtElem es et r (rsrWord t e i) o (lane es.width x (base + i)))
        let out := packLanes et.width (q.map (·.1))
        let u := if narrowing then
            t.sv vd (setBits (t.gv vd).toNat (p * n * et.width) (n * et.width) out)
          else t.sv vd out
        some ((u.flag (orFlags (q.map (·.2)))).countRsr r)
  | _, _, _ => none

/-- The source or result format of VMX and VDQMX. -/
def mxFmt (fmt : BitVec 2) : Option FFmt :=
  match fmt.toNat with
  | 0 => some fp32
  | 1 => some bf16
  | 2 => some fp16
  | _ => none

/-- Block positions of an element width in a register (R108). -/
def mxPositions (w : Nat) : Nat := if w = 4 then 4 else 2

/-- VMX (R108, R59). -/
def vmx (t : SortSt) (e : SortEnv) (mxe : BitVec 3) (fmt pos : BitVec 2) (rm : BitVec 3) (vd va sd : Reg) :
    Option SortSt :=
  match MxElem.ofCode mxe.toNat, mxFmt fmt, RM.ofField rm.toNat with
  | some el, some f, some r =>
    if mxPositions el.width ≤ pos.toNat then none
    else if f = fp32 ∧ Reg.odd va then none
    else
      let x := if f = fp32 then t.gvPair va else (t.gv va).toNat
      let vs := (lanes f.width 32 x).map f.decode
      let q := mxQuantise el r ((List.range 32).map (rsrWord t e)) vs
      let w := el.width
      let u := t.sv vd (setBits (t.gv vd).toNat (32 * w * pos.toNat) (32 * w) (packLanes w q.2.1))
      let u := u.ss sd (BitVec.ofNat 64 (setBits (t.gs sd).toNat (8 * pos.toNat) 8 q.1))
      some ((u.flag q.2.2).countRsr r)
  | _, _, _ => none

/-- VDQMX (R108, R66). -/
def vdqmx (t : SortSt) (e : SortEnv) (mxe : BitVec 3) (fmt pos : BitVec 2) (rm : BitVec 3) (vd va rs : Reg) :
    Option SortSt :=
  match MxElem.ofCode mxe.toNat, mxFmt fmt, RM.ofField rm.toNat with
  | some el, some f, some r =>
    if mxPositions el.width ≤ pos.toNat then none
    else if f = fp32 ∧ Reg.odd vd then none
    else
      let w := el.width
      let x := (t.gv va).toNat / 2 ^ (32 * w * pos.toNat)
      let sc := lane 8 (t.gs rs).toNat pos.toNat
      let q := (List.range 32).map (fun i =>
        f.encode r (rsrWord t e i) ⟨false, false⟩ (el.decode sc (lane w x i)))
      let out := packLanes f.width (q.map (·.1))
      let u := if f = fp32 then (t.sv vd (out % 2 ^ 512)).sv (Reg.succ vd) (out / 2 ^ 512) else t.sv vd out
      some ((u.flag (orFlags (q.map (·.2)))).countRsr r)
  | _, _, _ => none

/-- MMA (R109, R110). -/
def mma (t : SortSt) (afmt bfmt : BitVec 4) (mx : Bool) (ad : BitVec 3) (va vb : Reg) :
    Option (SortSt → SortSt) :=
  match mmaKind afmt.toNat bfmt.toNat mx, Elem.ofCode afmt.toNat, Elem.ofCode bfmt.toNat with
  | some kd, some ea, some eb =>
    if kd.pair && (Reg.odd va || Reg.odd vb) then none
    else
      let x := if kd.pair then t.gvPair va else (t.gv va).toNat
      let y := if kd.pair then t.gvPair vb else (t.gv vb).toNat
      some (fun u =>
        let q := mmaTile kd ea eb mx t.xa.toNat t.xb.toNat x y (t.ga ad.toNat).toNat
        (u.sa ad.toNat q.1).flag q.2)
  | _, _, _ => none

/-! ## CSRs (R127, Table 03-16) -/

/-- SRD's value; none for a CSR that is not listed. -/
def csrRead (t : SortSt) (e : SortEnv) (csr : BitVec 12) : Option W64 :=
  match csr.toNat with
  | 0 => some (t.ssr.setWidth 64)
  | 1 => some (BitVec.ofNat 64 (e.share % 64 * 256 + e.sliver % 256))
  | 2 => some (BitVec.ofNat 64 (t.book.slugs % 2 ^ 32))
  | 3 => some (t.book.slugCyc.setWidth 64)
  | 4 => some t.book.cycle
  | 5 => some (BitVec.ofNat 64 (e.now / 100 * 100))
  | 6 => some t.xa
  | 7 => some t.xb
  | 8 => some (BitVec.ofNat 64 (t.book.replays.toNat * 65536 + t.book.retries.toNat * 256
      + b2n t.book.inj.isSome))
  | _ => none

/-- SWR's effect: SSR write-one-to-clear, XA and XB read-write, the read-only ones drop the write. -/
def csrWrite (t : SortSt) (csr : BitVec 12) (x : W64) : Option SortSt :=
  match csr.toNat with
  | 0 => some { t with ssr := t.ssr &&& ~~~ (x.setWidth 32 &&& 0x3F) }
  | 6 => some { t with xa := x }
  | 7 => some { t with xb := x }
  | n => if n ≤ 8 then some t else none

/-! ## Slug boundaries (R117) -/

/-- The state a snapshot holds, with the PC of the next instruction. -/
def SortSt.snapshot (t : SortSt) (pc : BitVec 13) (entry : Option Nat) : Snapshot :=
  { s := t.s, v := t.v, a := t.a, xa := t.xa, xb := t.xb, ssr := t.ssr, pc := pc,
    barS := t.book.barS, barG := t.book.barG, entry := entry }

/-- Abandon the pending engine work of the slug: tags freed, ticket generations raised (R215). -/
def SortSt.abandon (t : SortSt) : SortSt :=
  { t with tags := [], tickets := [],
           tgen := Vector.ofFn (fun (i : Fin 4) => t.tgen[i] + b2n (thas t.tickets i)) }

/-- Return to the start of the current slug from the snapshot (R124, R156): registers, flags and barrier
generations restored, counts restarted, pending work abandoned.  The slug has still used its injection
(R126: at most one per slug). -/
def SortSt.rollback (t : SortSt) : SortSt :=
  let u := t.abandon
  { u with s := t.snap.s, v := t.snap.v, a := t.snap.a, xa := t.snap.xa, xb := t.snap.xb,
           ssr := t.snap.ssr, pc := t.snap.pc,
           book := { t.book with rsrCount := 0, sends := 0, slugCyc := 0, inj := none,
                                 barS := t.snap.barS, barG := t.snap.barG } }

/-- RETRIES counts one more retry, saturating (Table 03-18). -/
def SortSt.countRetry (t : SortSt) : SortSt :=
  { t with book := { t.book with retries := satInc t.book.retries } }

/-- R117 steps 2 to 4: the next slug begins and the state is copied into the snapshot. -/
def SortSt.boundary (t : SortSt) (pc : BitVec 13) (entry : Nat) : SortSt :=
  let u := { t with book := { t.book with slugs := t.book.slugs + 1, rsrCount := 0, sends := 0, slugCyc := 0,
                                          inj := none, injUsed := false, retried := false } }
  { u with snap := u.snapshot pc (some entry) }

end Sys2Proof.Machine
end

