-- ==== Sys2Proof/Machine/TableOps.lean ====
section
/-! DEFINITION. Embedding tables (05_tables.md): geometry, hash, buckets, copies, the slot allocator,
quarantine, eviction and the placing of an insert. -/

namespace Sys2Proof.Machine

/-! ## Geometry (R60, R61, R63, R179 to R181) -/

/-- Content length L of Table 02-5. -/
def rowLen (fmt d m : Nat) : Nat :=
  match fmt with
  | 0 => 4 * d
  | 1 | 2 => 2 * d
  | 3 | 4 => d
  | 5 | 6 | 10 => d / 32 + d
  | 7 | 8 => d / 32 + 3 * d / 4
  | 9 => d / 32 + d / 2
  | 11 => 4 + d
  | 12 => 4 + (d + 1) / 2
  | 13 => 4 + (d + 3) / 4
  | _ => m

/-- R61 and R63: whether a format, d and m are allowed. -/
def rowShapeOk (fmt d m : Nat) : Bool :=
  decide (1 ≤ d) && decide (d ≤ 2048) && decide (rowLen fmt d m ≤ 4096)
  && (if 5 ≤ fmt ∧ fmt ≤ 10 then d % 32 == 0 else true)
  && (if 14 ≤ fmt then decide (1 ≤ m) && decide (m ≤ 256) && d % m == 0 else m == 0)

/-- R179: PITCH, RPS and SPR of a content length. -/
def slotPitch (l : Nat) : Nat := if l ≤ 256 then roundUp l 4 else roundUp l 256
def slotRps (l : Nat) : Nat := if l ≤ 256 then 256 / roundUp l 4 else 0
def slotSpr (l : Nat) : Nat := if l ≤ 256 then 1 else roundUp l 256 / 256

/-- R180: the address of slot k in the home copy. -/
def TableDesc.slotAddr (d : TableDesc) (k : Nat) : Nat :=
  if d.rps ≠ 0 then d.rowBase + k / d.rps * 256 + k % d.rps * d.pitch else d.rowBase + k * d.spr * 256

def TableDesc.home (d : TableDesc) : Nat := stackOf d.rowBase

/-- R199: the address in a copy of a home address. -/
def TableDesc.copyAddr (d : TableDesc) (mirror : Bool) (a : Nat) : Nat :=
  if mirror then a % 2 ^ 36 + d.mirrorStack * 2 ^ 36 else a

/-- The stack of a copy. -/
def TableDesc.copyStack (d : TableDesc) (mirror : Bool) : Nat := if mirror then d.mirrorStack else d.home

/-- Whether a slot is one the allocator may hand out or a free may keep (R182, R191). -/
def TableDesc.slotOk (d : TableDesc) (k : Nat) : Bool :=
  decide (k < d.slots) && (d.flags.defaultZero || k != d.defaultSlot)

/-- R181: bytes of the codebook. -/
def TableDesc.codebookLen (d : TableDesc) : Nat := if 14 ≤ d.rowFormat then 512 * d.elems else 0

/-- Table 05-4: the areas, as base and length; the free-slot list is the one not mirrored. -/
def TableDesc.areas (d : TableDesc) : List (Nat × Nat × Bool) :=
  [(d.rowBase, (if d.rps ≠ 0 then (d.slots + d.rps - 1) / d.rps * 256 else d.slots * d.spr * 256), true)]
  ++ (if d.flags.mapped then [(d.auxBase, roundUp (d.indexLimit * 4) 65536, true)] else [])
  ++ (if d.flags.dynamic then [(d.auxBase, 2 ^ d.bucketsLog2 * 256, true)] else [])
  ++ (if d.flags.dynamic || d.flags.mapped then [(d.freeBase, roundUp (d.slots * 4) 65536, false)] else [])
  ++ (if 14 ≤ d.rowFormat then [(d.codebookBase, d.codebookLen, true)] else [])

/-- The areas of every copy. -/
def TableDesc.allAreas (d : TableDesc) : List (Nat × Nat) :=
  d.areas.map (fun a => (a.1, a.2.1))
  ++ (if d.flags.mirrored then (d.areas.filter (·.2.2)).map (fun a => (d.copyAddr true a.1, a.2.1)) else [])

/-! ## Hash and buckets (R185, R186) -/

def hash1 (d : TableDesc) (v : Nat) : Nat := (mix (BitVec.ofNat 64 v ^^^ d.seed)).toNat / 2 ^ (64 - d.bucketsLog2)
def hash2 (d : TableDesc) (v : Nat) : Nat :=
  (mix (BitVec.ofNat 64 v ^^^ d.seed.rotateLeft 32)).toNat / 2 ^ (64 - d.bucketsLog2)

/-- Home address of bucket i. -/
def TableDesc.bucketAddr (d : TableDesc) (i : Nat) : Nat := d.auxBase + 256 * i

/-- A bucket entry (Table 05-6). -/
structure BEntry where
  id : Nat
  slot : Nat
  freq : Nat
  valid : Bool
  alt : Bool
  pin : Bool
  ver : Nat
  deriving DecidableEq, Repr

def BEntry.empty : BEntry := ⟨0, 0, 0, false, false, false, 0⟩

/-- A bucket: its 16 entries and its overflow count (R186). -/
structure BucketSheet where
  entries : List BEntry
  ovf : Nat
  deriving DecidableEq, Repr

def decodeBucket (l : List Byte) : BucketSheet :=
  let fv (k : Nat) := field l (16 * k + 14) 2
  { entries := (List.range 16).map (fun k =>
      ⟨field l (16 * k) 8, field l (16 * k + 8) 4, field l (16 * k + 12) 2,
       bit (fv k) 15, bit (fv k) 14, bit (fv k) 13, fv k % 4096⟩),
    ovf := packLanes 1 ((List.range 16).map (fun k => b2n (bit (fv k) 12))) }

def encodeBucket (b : BucketSheet) : List Byte :=
  (List.range 16).flatMap (fun k =>
    let e := (b.entries[k]?).getD BEntry.empty
    toLE 8 e.id ++ toLE 4 e.slot ++ toLE 2 e.freq
    ++ toLE 2 (b2n e.valid * 32768 + b2n e.alt * 16384 + b2n e.pin * 8192 + b2n (bit b.ovf k) * 4096
        + e.ver % 4096))

/-- R186: counts of 0xFFFF stay there. -/
def ovfInc (n : Nat) : Nat := if n = 0xFFFF then n else n + 1
def ovfDec (n : Nat) : Nat := if n = 0xFFFF then n else n - 1

/-- Position of the valid entry that holds an ID. -/
def BucketSheet.find (b : BucketSheet) (v : Nat) : Option Nat :=
  b.entries.findIdx? (fun e => e.valid && e.id == v)

/-- Lowest free position. -/
def BucketSheet.free (b : BucketSheet) : Option Nat := b.entries.findIdx? (fun e => !e.valid)

def BucketSheet.get (b : BucketSheet) (k : Nat) : BEntry := (b.entries[k]?).getD BEntry.empty
def BucketSheet.set (b : BucketSheet) (k : Nat) (e : BEntry) : BucketSheet := { b with entries := b.entries.set k e }

/-- Lowest-FREQ position among entries that meet a condition, the lower position on a tie. -/
def BucketSheet.coldest (b : BucketSheet) (p : BEntry → Bool) : Option (Nat × Nat) :=
  (List.range 16).foldl (fun best k =>
    let e := b.get k
    if e.valid && !e.pin && p e then
      match best with
      | none => some (k, e.freq)
      | some x => if e.freq < x.2 then some (k, e.freq) else some x
    else best) none

/-! ## Copies (R199 to R203) -/

/-- Whether a copy of the table is in service and in step. -/
def State.copyUp (s : State) (d : TableDesc) (mirror : Bool) : Bool :=
  let st := d.copyStack mirror
  (!mirror || d.flags.mirrored) && s.formeUp st
  && !(d.flags.mirrored && d.dyn.mirrorState != .inSync && d.dyn.staleStack == st)

/-- R200: the copy a galley's list reads, by the copies in service. -/
def State.chooseCopy (s : State) (d : TableDesc) (g : Nat) : Bool :=
  if !d.flags.mirrored then false
  else
    let want := if formeOf g = d.home then false else if formeOf g = d.mirrorStack then true else g % 2 == 1
    if d.dyn.mirrorState = .inSync then want
    else d.dyn.staleStack == d.home

/-- The sheet at a home address as a copy holds it; none when it reads poisoned or the copy is down. -/
def State.copySheet (s : State) (d : TableDesc) (mirror : Bool) (a : Nat) : Option (List Byte) :=
  let x := d.copyAddr mirror (a / 256 * 256)
  if s.copyUp d mirror && !s.poisoned x 256 then some (mread s.mem x 256) else none

/-- R201: the sheet from a copy, or from the other one while both are in step; the good sheet is written
back over the poisoned one. -/
def State.readSheet (s : State) (d : TableDesc) (mirror : Bool) (a : Nat) : Option (List Byte) × State :=
  let s := s.decodeRange (d.copyAddr mirror (a / 256 * 256)) 256
  match s.copySheet d mirror a with
  | some l => (some l, s.charge (d.copyStack mirror) d.owner 1)
  | none =>
    if d.flags.mirrored && d.dyn.mirrorState == .inSync then
      match s.copySheet d (!mirror) a with
      | some l =>
        let x := d.copyAddr mirror (a / 256 * 256)
        (some l, (s.charge (d.copyStack (!mirror)) d.owner 1).devWrite x l true)
      | none => (none, s)
    else (none, s)

/-- R260, R276: the granule of a mirrored write enters the current bitmap of each stack that wrote it. -/
def State.noteRecent (s : State) (d : TableDesc) (a : Nat) : State :=
  let gr := a % 2 ^ 36 / 2 ^ 21
  let mark (s : State) (m : Bool) : State :=
    if s.copyUp d m then s.modStack (d.copyStack m) (fun (x : StackSt) => { x with
      recent := match x.recent with
        | l :: r => (if l.contains gr then l else gr :: l) :: r
        | [] => [[gr]] })
    else s
  mark (mark s false) true

/-- Write bytes at a home address on every copy in step (R199), with the dirty granule noted while one is
not (R202); the lines are kept (R234). -/
def State.tableWrite (s : State) (t : Nat) (d : TableDesc) (a : Nat) (l : List Byte) : State :=
  let w (s : State) (m : Bool) : State :=
    if s.copyUp d m then
      (s.devWrite (d.copyAddr m a) l true).charge (d.copyStack m) d.owner (sheetsOf a l.length)
    else s
  let s := w s false
  let s := if d.flags.mirrored then (w s true).noteRecent d a else s
  if d.flags.mirrored && d.dyn.mirrorState != .inSync then
    let gr := a % 2 ^ 36 / 2 ^ 21
    { s with tables := tmod s.tables t (fun d => { d with dyn := { d.dyn with
        dirty := if d.dyn.dirty.contains gr then d.dyn.dirty else d.dyn.dirty ++ [gr] } }) }
  else s

def State.modTable (s : State) (t : Nat) (f : TableDesc → TableDesc) : State :=
  { s with tables := tmod s.tables t f }

def State.modDyn (s : State) (t : Nat) (f : TblDyn → TblDyn) : State :=
  s.modTable t (fun d => { d with dyn := f d.dyn })

/-! ## The slot allocator and quarantine (R191) -/

/-- The true allocator counts of a table at its home platen. -/
def State.allocOf (s : State) (t : Nat) (d : TableDesc) : AllocSt :=
  (tget (s.platen d.home).alloc t).getD ⟨d.dyn.freeCount, d.dyn.fresh, 0⟩

def State.setAlloc (s : State) (t : Nat) (d : TableDesc) (x : AllocSt) : State :=
  s.modPlaten d.home (fun p => { p with alloc := tput p.alloc t x })

/-- Pop the free-slot list: the slot on top that may be handed out, passing over the others and over the
entries of a poisoned sheet; the new true count. -/
def popFree (s : State) (d : TableDesc) : Nat → Option Nat × Nat × State
  | 0 => (none, 0, s)
  | n + 1 =>
    let a := d.freeBase + 4 * n
    let s := s.decodeRange (a / 256 * 256) 256
    let k := mload s.mem a 4
    if s.poisoned (a / 256 * 256) 256 || !d.slotOk k then popFree s d n else (some k, n, s)

/-- The next never-allocated slot from `i` on, skipping DEFAULT_SLOT. -/
def nextFresh (d : TableDesc) (i : Nat) : Option Nat × Nat :=
  let j := if !d.flags.defaultZero && i = d.defaultSlot then i + 1 else i
  if j < d.slots then (some j, j + 1) else (none, j)

/-- R191: take a slot, committing FREE_COUNT or FRESH in blocks of 64 before one is handed out. -/
def State.takeSlot (s : State) (t : Nat) (d : TableDesc) : Option Nat × State :=
  let d := (tget s.tables t).getD d
  let al := s.allocOf t d
  match popFree s d al.top with
  | (some k, n, s) =>
    let s := s.setAlloc t d { al with top := n, pushes := if n < d.dyn.freeCount then 0 else al.pushes }
    (some k, s.modDyn t (fun y => if n < y.freeCount then { y with freeCount := n + 1 - 64 } else y))
  | (none, n, s) =>
    match nextFresh d al.fresh with
    | (some k, j) =>
      let commit := d.dyn.fresh < j
      let s := s.setAlloc t d { top := n, fresh := j, pushes := if commit then 0 else al.pushes }
      (some k, s.modDyn t (fun y => if commit then
        { y with fresh := min d.slots (j + 63), freeCount := n } else { y with freeCount := min y.freeCount n }))
    | (none, j) => (none, s.setAlloc t d { al with top := n, fresh := j })

/-- The windows collecting or in flight at a platen. -/
def State.windowsOf (s : State) (f : Nat) : List (Nat × Nat) :=
  let p := s.platen f
  p.windows.map (fun w => (f, w.id)) ++ (if p.collect.isEmpty then [] else [(f, p.nextWindow)])

/-- R191: a freed slot enters quarantine; one that was never the table's to free is dropped. -/
def State.freeSlot (s : State) (t : Nat) (d : TableDesc) (k : Nat) : State :=
  if !d.slotOk k then s
  else
    let ws := s.windowsOf d.home ++ (if d.flags.mirrored then s.windowsOf d.mirrorStack else [])
    s.modPlaten d.home (fun p => { p with quarantine := p.quarantine ++ [⟨t, k, s.now, ws⟩] })

/-- Whether a free at the table's home platen would wait (R191). -/
def State.quarantineFull (s : State) (d : TableDesc) : Bool :=
  decide (65536 ≤ (s.platen d.home).quarantine.length)

/-! ## Eviction and inserts (R192, R193) -/

/-- R192: clear an entry of a bucket, free its slot, lower LIVE_COUNT and, for an ALT entry, the overflow
count of its first-choice bucket. -/
def State.evict (s : State) (t : Nat) (d : TableDesc) (b : Nat) (k : Nat) : State :=
  match s.readSheet d false (d.bucketAddr b) with
  | (none, s) => s
  | (some l, s) =>
    let sh := decodeBucket l
    let e := sh.get k
    let s := s.tableWrite t d (d.bucketAddr b) (encodeBucket (sh.set k BEntry.empty))
    let s := (s.freeSlot t d e.slot).modDyn t (fun y => { y with liveCount := y.liveCount - 1 })
    if e.alt then
      match s.readSheet d false (d.bucketAddr (hash1 d e.id)) with
      | (none, s) => s
      | (some l1, s) =>
        let h := decodeBucket l1
        s.tableWrite t d (d.bucketAddr (hash1 d e.id)) (encodeBucket { h with ovf := ovfDec h.ovf })
    else s

/-- A victim among two buckets: the coldest unpinned entry, the first bucket on a tie. -/
def victim (i1 i2 : Nat) (b1 b2 : BucketSheet) : Option (Nat × Nat) :=
  match b1.coldest (fun _ => true), (if i1 = i2 then none else b2.coldest (fun _ => true)) with
  | none, none => none
  | some x, none => some (i1, x.1)
  | none, some y => some (i2, y.1)
  | some x, some y => if y.2 < x.2 then some (i2, y.1) else some (i1, x.1)

/-- Write a row's content into a slot, its padding zero (R180); a row that shares its sheet is merged.
false when the sheet to merge reads poisoned on every copy; `mirror` names the copy that resolves. -/
def State.writeSlot (s : State) (t : Nat) (d : TableDesc) (mirror : Bool) (k : Nat) (row : List Byte) : Bool × State :=
  let a := d.slotAddr k
  let full := (row.take d.rowBytes) ++ List.replicate (d.pitch - (row.take d.rowBytes).length) 0
  if d.rps = 0 then (true, s.tableWrite t d a full)
  else if d.rps = 1 then (true, s.tableWrite t d a (full ++ List.replicate (256 - d.pitch) 0))
  else
    match s.readSheet d mirror a with
    | (none, s) => (false, s)
    | (some l, s) =>
      let off := a % 256
      let sheet := l.take off ++ full ++ (l.drop (off + d.pitch))
      let sheet := sheet.take (d.rps * d.pitch) ++ List.replicate (256 - d.rps * d.pitch) 0
      (true, s.tableWrite t d (a / 256 * 256) sheet)

/-- The default row's content bytes (R182); none when a sheet of it reads poisoned on every copy. -/
def State.defaultRow (s : State) (d : TableDesc) : Option (List Byte) × State :=
  if d.flags.defaultZero then (some (List.replicate d.rowBytes 0), s)
  else
    let a := d.slotAddr d.defaultSlot
    let r : Option (List Byte) × State := (List.range d.spr).foldl (fun r i =>
      match r.1, r.2.readSheet d false (a / 256 * 256 + 256 * i) with
      | some l, (some x, s) => (some (l ++ x), s)
      | _, (_, s) => (none, s)) (some [], s)
    (r.1.map (fun (l : List Byte) => (l.drop (a % 256)).take d.rowBytes), r.2)

/-- What placing an insert did. -/
inductive Placed | present (bucket pos : Nat) | placed (bucket pos : Nat) | dropped (poison : Bool)
  deriving DecidableEq, Repr

/-- R192 step 4: allocate a slot and write the row; a slot whose sheet cannot be merged leaks and one more
is tried once.  The error says whether poison was the cause. -/
def State.slotWithRow (s : State) (t : Nat) (d : TableDesc) (row : List Byte) :
    Nat → Except Bool Nat × State
  | 0 => (.error true, s)
  | n + 1 =>
    match s.takeSlot t d with
    | (none, s) => (.error false, s)
    | (some k, s) =>
      match s.writeSlot t d false k row with
      | (true, s) => (.ok k, s)
      | (false, s) => s.slotWithRow t d row n

/-- R192 step 5 and 6: put ID v with its slot in a bucket; `v`'s new entry. -/
def State.placeEntry (s : State) (t : Nat) (d : TableDesc) (v k ver : Nat) : Placed × State :=
  let i1 := hash1 d v
  let i2 := hash2 d v
  let new (alt : Bool) : BEntry := ⟨v, k, min 0xFFFF (2 ^ d.freqShift), true, alt, false, ver⟩
  let live (s : State) := s.modDyn t (fun y => { y with liveCount := y.liveCount + 1 })
  match s.readSheet d false (d.bucketAddr i1) with
  | (none, s) => (.dropped true, s.freeSlot t d k)
  | (some l1, s) =>
    let b1 := decodeBucket l1
    match b1.free with
    | some p =>
      (.placed i1 p, live (s.tableWrite t d (d.bucketAddr i1) (encodeBucket (b1.set p (new false)))))
    | none =>
      match (if i1 = i2 then (none, s) else s.readSheet d false (d.bucketAddr i2)) with
      | (l2, s) =>
        let b2 := match l2 with
          | some l => decodeBucket l
          | none => ⟨List.replicate 16 { BEntry.empty with valid := true, pin := true }, 0⟩
        let bump (s : State) (b : BucketSheet) := s.tableWrite t d (d.bucketAddr i1)
          (encodeBucket { b with ovf := ovfInc b.ovf })
        match b2.free with
        | some p =>
          let s := bump s b1
          (.placed i2 p, live (s.tableWrite t d (d.bucketAddr i2) (encodeBucket (b2.set p (new true)))))
        | none =>
          let kick : Option (Nat × BEntry × Nat × BucketSheet) × State :=
            if d.flags.kick then
              match b1.coldest (fun e => !e.alt) with
              | none => (none, s)
              | some (p, _) =>
                let e := b1.get p
                let i3 := hash2 d e.id
                if i3 = i1 then (none, s)
                else match s.readSheet d false (d.bucketAddr i3) with
                  | (none, s) => (none, s)
                  | (some l3, s) =>
                    let b3 := decodeBucket l3
                    match b3.free with
                    | none => (none, s)
                    | some _ => (some (p, e, i3, b3), s)
            else (none, s)
          match kick with
          | (some (p, e, i3, b3), s) =>
            let q := (b3.free).getD 0
            let s := s.tableWrite t d (d.bucketAddr i3) (encodeBucket (b3.set q { e with alt := true }))
            let b1' := b1.set p (new false)
            (.placed i1 p, live (bump s b1'))
          | (none, s) =>
            match victim i1 i2 b1 b2 with
            | none => (.dropped false, s.freeSlot t d k)
            | some (iv, p) =>
              let s := s.evict t d iv p
              match s.readSheet d false (d.bucketAddr iv) with
              | (none, s) => (.dropped true, s.freeSlot t d k)
              | (some lv, s) =>
                let alt := iv != i1
                let s := if alt then
                    match s.readSheet d false (d.bucketAddr i1) with
                    | (some l, s) => bump s (decodeBucket l)
                    | (none, s) => s
                  else s
                (.placed iv p, live (s.tableWrite t d (d.bucketAddr iv)
                  (encodeBucket ((decodeBucket lv).set p (new alt)))))

/-- R192: place ID v of table t; `payload` replaces the default row, with its VER (WRITE_INSERT, R251). -/
def State.placeInsert (s : State) (t : Nat) (d : TableDesc) (v : Nat) (payload : Option (List Byte × Nat)) :
    Placed × State :=
  let i1 := hash1 d v
  let i2 := hash2 d v
  match s.readSheet d false (d.bucketAddr i1) with
  | (none, s) => (.dropped true, s)
  | (some l1, s) =>
    let b1 := decodeBucket l1
    match b1.find v with
    | some p => (.present i1 p, s)
    | none =>
      match (if i1 ≠ i2 ∧ b1.ovf ≠ 0 then
          match s.readSheet d false (d.bucketAddr i2) with
          | (some l, s) => ((decodeBucket l).find v, true, s)
          | (none, s) => (none, false, s)
        else (none, true, s)) with
      | (some p, _, s) => (.present i2 p, s)
      | (none, false, s) => (.dropped true, s)
      | (none, true, s) =>
        let full := d.dyn.liveCount = d.indexLimit
        let two : Option (List Byte) × State := if full then s.readSheet d false (d.bucketAddr i2) else (none, s)
        let s := two.2
        let b2 : BucketSheet := (two.1.map decodeBucket).getD ⟨[], 0⟩
        let out := if full then victim i1 i2 b1 b2 else none
        if full && out.isNone then (.dropped false, s)
        else
          let s := match out with
            | some (b, p) => s.evict t d b p
            | none => s
          match (match payload with | some r => (some r.1, s) | none => s.defaultRow d) with
          | (none, s) =>
            match s.takeSlot t d with
            | (some k, s) => (.dropped true, s.freeSlot t d k)
            | (none, s) => (.dropped false, s)
          | (some row, s) =>
            match s.slotWithRow t d row 2 with
            | (.error p, s) => (.dropped p, s)
            | (.ok k, s) => s.placeEntry t d v k ((payload.map (·.2)).getD 0)

end Sys2Proof.Machine
end

