-- ==== Sys2Proof/Machine/LookupOps.lean ====
section
/-! DEFINITION. Lookup lists, routing, results, the hot-row cache, decode and pooling
(06_platens.md R206 to R239). -/

namespace Sys2Proof.Machine

/-! ## Lists (R206 to R209, R212) -/

/-- The fields of a list that the port reads. -/
structure ListHdr where
  entries : Nat
  bags : Nat
  resBytes : Nat
  lflags : Nat
  resv : Bool
  tag : Nat
  deriving DecidableEq, Repr

def listHdr (l : List Byte) : ListHdr :=
  { entries := field l 0 2, bags := field l 2 2, resBytes := field l 4 4, lflags := field l 8 2,
    resv := field l 0xA 6 != 0 || field l 0x18 40 != 0, tag := field l 0x10 8 }

def clampTo (lo hi x : Nat) : Nat := max lo (min hi x)

/-- Bytes of a list with these counts (R206). -/
def listBytes (entries bags : Nat) : Nat := 64 + roundUp (8 * bags) 64 + 16 * entries

/-- Result element width of an RFMT (R212). -/
def resWidth (rfmt : Nat) : Nat := match rfmt % 4 with | 0 => 4 | 1 => 2 | _ => 1

/-- Bag descriptor b of a list: RES_OFF, ELEMS, OP byte, RFMT byte. -/
def bagRaw (l : List Byte) (b : Nat) : Nat × Nat × Nat × Nat :=
  let o := 64 + 8 * b
  (field l o 4, field l (o + 4) 2 + 1, field l (o + 6) 1, field l (o + 7) 1)

/-- Entry e of a list with `bags` bags: KEY, TABLE, WEIGHT, BAG field, reserved. -/
def entryRaw (l : List Byte) (bags e : Nat) : Nat × Nat × Nat × Nat × Nat :=
  let o := 64 + roundUp (8 * bags) 64 + 16 * e
  (field l o 8, field l (o + 8) 2, field l (o + 10) 2, field l (o + 12) 2, field l (o + 14) 2)

/-- Entries of bag b, in list order. -/
def bagEntries (l : List Byte) (h : ListHdr) (b : Nat) : List Nat :=
  (List.range h.entries).filter (fun e => (entryRaw l h.bags e).2.2.2.1 == b)

/-- P of a ROWS bag: the padded bytes of one row (R212). -/
def rowPitch (elems rfmt : Nat) : Nat := roundUp (elems * resWidth rfmt) 64

/-- Bytes of a bag's value region (R212). -/
def bagRegion (elems op rfmt count : Nat) : Nat :=
  if op = 4 then count * rowPitch elems rfmt else rowPitch elems rfmt

/-- Where the bag status array starts and ends (Table 06-5). -/
def statusOff (entries : Nat) : Nat := 64 + roundUp entries 64
def valuesOff (entries bags : Nat) : Nat := statusOff entries + roundUp (8 * bags) 64

/-- R209: whether a list is accepted. -/
def listOk (l : List Byte) : Bool :=
  let h := listHdr l
  decide (1 ≤ h.entries) && decide (h.entries ≤ 1024) && decide (1 ≤ h.bags) && decide (h.bags ≤ 512)
  && !h.resv && decide (h.lflags < 4) && h.resBytes % 64 == 0
  && (List.range h.bags).all (fun b =>
    let r := bagRaw l b
    let es := bagEntries l h b
    decide (r.2.2.1 ≤ 4) && decide (r.2.2.2 < 16) && r.1 % 64 == 0 && decide (r.2.1 ≤ 2048)
    && decide (r.1 + bagRegion r.2.1 r.2.2.1 r.2.2.2 es.length ≤ h.resBytes)
    && decide (valuesOff h.entries h.bags ≤ r.1)
    && (match es with
        | [] => true
        | e0 :: _ => es.all (fun e => (entryRaw l h.bags e).2.1 == (entryRaw l h.bags e0).2.1)))
  && (List.range h.entries).all (fun e =>
    let r := entryRaw l h.bags e
    decide (r.2.2.2.1 < h.bags) && r.2.2.2.2 == 0)

/-! ## Tickets and their result area (R212 to R215) -/

/-- The ticket an entry's results belong to; none once its generation is older (R215). -/
def State.srcTicket (s : State) (src : LkSrc) : Option Ticket :=
  match src with
  | .sliver g sl tk gen =>
    match tget (s.galley g).slivers sl with
    | some t => if vget t.tgen tk 0 = gen then tget t.tickets tk else none
    | none => none
  | .gather id => (tget s.gathers id).map (·.tk)

def State.modTicket (s : State) (src : LkSrc) (f : Ticket → Ticket) : State :=
  match src with
  | .sliver g sl tk _ =>
    s.modGalley g (fun y => { y with slivers := tmod y.slivers sl (fun t =>
      { t with tickets := tmod t.tickets tk f }) })
  | .gather id => { s with gathers := tmod s.gathers id (fun y => { y with tk := f y.tk }) }

/-- Write result bytes at an offset of the result area; an older generation writes nothing (R215). -/
def State.resWrite (s : State) (src : LkSrc) (off : Nat) (l : List Byte) : State :=
  match s.srcTicket src with
  | none => s
  | some tk =>
    match src with
    | .sliver g _ _ _ => (s.modGalley g (fun y => { y with store := mwrite y.store (tk.res + off) l })).stepCharge g
        { Account.zero with pj := energyOf 4 (l.length / 64) }
    | .gather id => { s with gathers := tmod s.gathers id (fun y => { y with buf := mwrite y.buf off l }) }

/-- R214 and Table 06-6: the result header, written last; the ticket is then done. -/
def State.writeHeader (s : State) (src : LkSrc) (status : Nat) : State :=
  match s.srcTicket src with
  | none => s
  | some tk =>
    let h := listHdr tk.list
    let fl := tk.flags.toNat + 16 * b2n tk.anyLost + 32 * b2n tk.anyShape
    let hdr := toLE 4 status ++ toLE 2 tk.entriesDone ++ toLE 2 tk.bagsDone ++ toLE 4 fl ++ toLE 4 0
      ++ toLE 8 h.tag ++ toLE 8 (tk.issueTime / 100 * 100) ++ toLE 8 (s.now / 100 * 100) ++ toLE 24 0
    (s.resWrite src 0 hdr).modTicket src (fun k => { k with done := true })

/-! ## Bags (R213, R229) -/

def BagSt.new (src : LkSrc) (table : Nat) (bd : BagDesc) : BagSt :=
  ⟨src, table, bd, [], 0, 0, 0, false, false, []⟩

def bagAt (src : LkSrc) (bag : Nat) (b : BagSt) : Bool := b.src == src && b.bd.bag == bag

/-- The platen that holds a bag's record. -/
def State.bagHome (s : State) (src : LkSrc) (bag : Nat) : Option Nat :=
  (List.range 8).find? (fun f => (s.platen f).bags.any (bagAt src bag))

def State.findBag (s : State) (f : Nat) (src : LkSrc) (bag : Nat) : Option BagSt :=
  (s.platen f).bags.find? (bagAt src bag)

/-- Change a bag's record at a platen, opening it when it is new. -/
def State.modBag (s : State) (f : Nat) (e : LkEntry) (h : BagSt → BagSt) : State :=
  let s := match s.bagHome e.src e.bd.bag with
    | some _ => s
    | none => s.modPlaten f (fun p => { p with bags := p.bags ++ [BagSt.new e.src e.table e.bd] })
  let home := (s.bagHome e.src e.bd.bag).getD f
  s.modPlaten home (fun p => { p with bags := p.bags.map (fun b => if bagAt e.src e.bd.bag b then h b else b) })

/-- One more entry of a list settled at a platen (R210, R229). -/
def State.endSettled (s : State) (f : Nat) (src : LkSrc) : State :=
  s.modPlaten f (fun p =>
    if p.ends.any (fun x => x.src == src) then
      { p with ends := p.ends.map (fun x => if x.src = src then { x with settled := x.settled + 1 } else x) }
    else { p with ends := p.ends ++ [⟨src, 0, 1, false⟩] })

/-! ## Decode (R60 to R63, R181, R225, R226) -/

/-- The resident codebook of a table's present definition at a platen (R227). -/
def State.codebook (s : State) (f t : Nat) (d : TableDesc) : Option Codebook :=
  (s.platen f).codebooks.find? (fun c => c.table == t && c.generation == d.dyn.generation && c.resident)

/-- The exact elements of a row's content bytes; `cb` is the codebook of a PQ row. -/
def decodeRow (d : TableDesc) (cb : List Byte) (row : List Byte) : List FVal :=
  let x := leNat row
  let n := d.elems
  let plain (f : FFmt) := (List.range n).map (fun i => f.decode (lane f.width x i))
  let mx (e : MxElem) := (List.range n).map (fun i =>
    e.decode (lane 8 x (i / 32)) (lane e.width (x / 2 ^ (8 * (n / 32))) i))
  let sq (w : Nat) := (List.range n).map (fun i =>
    sqElem (lane 16 x 0) (lane 16 x 1) (lane w (x / 2 ^ 32) i))
  let pq (f : FFmt) :=
    let t := n / d.pqM
    (List.range n).map (fun i => f.decode (field cb (((i / t * 256 + lane 8 x (i / t)) * t + i % t) * 2) 2))
  match d.rowFormat with
  | 0 => plain fp32
  | 1 => plain bf16
  | 2 => plain fp16
  | 3 => plain e4m3
  | 4 => plain e5m2
  | 5 => mx (.f e4m3)
  | 6 => mx (.f e5m2)
  | 7 => mx (.f e2m3)
  | 8 => mx (.f e3m2)
  | 9 => mx (.f e2m1)
  | 10 => mx .int8
  | 11 => sq 8
  | 12 => sq 4
  | 13 => sq 2
  | 14 => pq fp16
  | _ => pq bf16

/-- The result format and options of an RFMT: NSAT and FZ8 act on FP8 only (R207). -/
def resFmt (rfmt : Nat) : FFmt × CvtOpt :=
  match rfmt % 4 with
  | 0 => (fp32, ⟨false, false⟩)
  | 1 => (bf16, ⟨false, false⟩)
  | 2 => (e4m3, ⟨!bit rfmt 2, bit rfmt 3⟩)
  | _ => (e5m2, ⟨!bit rfmt 2, bit rfmt 3⟩)

/-- The bytes of encoded elements, padded with zeros to 64 (R212). -/
def elemBytes (rfmt : Nat) (xs : List Nat) : List Byte :=
  let l := xs.flatMap (fun x => toLE (resWidth rfmt) x)
  l ++ List.replicate (roundUp l.length 64 - l.length) 0

def poolOpOf (op : Nat) : PoolOp := match op with | 0 => .sum | 1 => .mean | 2 => .max | _ => .wsum

/-! ## Outcomes (Table 05-7, Table 06-7) -/

/-- An entry settles with an outcome: its byte is written, its bag counts it, and when it has a row its
terms are pooled or its row is written (R79, R212, R213, R226, R229). -/
def State.settleEntry (s : State) (f : Nat) (e : LkEntry) (code : Nat) (terms : Option (List FVal)) : State :=
  let w := e.bd.elems
  let bad := decide (8 ≤ code)
  let fo := resFmt e.bd.rfmt
  let isRows := e.bd.op == 4
  let shape := match tget s.tables e.table with
    | some d => d.state == .live && d.elems != w
    | none => false
  let row : List (Nat × Bool) := match terms with
    | some ts => if shape then List.replicate w (0, false) else ts.map (fun t => poolRound fo.1 fo.2 t)
    | none => List.replicate w (0, false)
  let sat := isRows && !bad && !shape && row.any (·.2)
  let s := if code = 0xC then s.count (0x8400 + f) 3 1 else s
  let byte := code + 16 * b2n sat + 32 * b2n (e.cached && !bad && !e.got.isEmpty) + 64 * b2n e.mirror
  let s := s.resWrite e.src (0x40 + e.idx) [BitVec.ofNat 8 byte]
  let s := if isRows then
      s.resWrite e.src (e.bd.resOff + e.rowNo * rowPitch w e.bd.rfmt) (elemBytes e.bd.rfmt (row.map (·.1)))
    else s
  let s := s.modBag f e (fun b =>
    let acc := match terms with
      | some ts =>
        if isRows || shape then b.acc
        else (b.acc.zip ts).map (fun p =>
          if e.bd.op = 2 then p.1.addMax p.2
          else if e.bd.op = 3 then p.1.add (weighted p.2 e.weight) else p.1.add p.2)
      | none => b.acc
    { b with acc := acc, n := if bad then b.n else b.n + 1, lost := if bad then b.lost + 1 else b.lost,
             rowSat := b.rowSat || sat, shape := b.shape || shape,
             delivered := b.delivered ++ [{ e with stage := .settled }] })
  (s.endSettled f e.src).modTicket e.src (fun k =>
    { k with entriesDone := k.entriesDone + 1, anyLost := k.anyLost || bad })

/-! ## The hot-row cache (R231 to R234) -/

def cacheSet (sheet : Nat) : Nat := (sheet % 4096) ^^^ (sheet / 4096 % 4096)

/-- The way that holds a sheet. -/
def cacheWay (c : Tab CacheLine) (sheet : Nat) : Option Nat :=
  (List.range 12).find? (fun w =>
    match tget c (cacheSet sheet * 12 + w) with
    | some l => l.sheet == sheet
    | none => false)

/-- The way to fill: the lowest invalid one, else the lowest with use count 0, else all counts fall by one
and the choice is made again, at most three times (R233). -/
def chooseWay : Nat → Tab CacheLine → Nat → Option (Nat × Tab CacheLine)
  | 0, _, _ => none
  | n + 1, c, set =>
    match (List.range 12).find? (fun w => (tget c (set * 12 + w)).isNone) with
    | some w => some (w, c)
    | none =>
      match (List.range 12).find? (fun w =>
        match tget c (set * 12 + w) with
        | some l => l.use == 0
        | none => false) with
      | some w => some (w, c)
      | none => chooseWay n (tmap c (fun k l => if k / 12 = set then { l with use := l.use - 1 } else l)) set

def fillLine (c : Tab CacheLine) (sheet : Nat) : Tab CacheLine :=
  match chooseWay 4 c (cacheSet sheet) with
  | some (w, c) => tput c (cacheSet sheet * 12 + w) ⟨sheet, 0⟩
  | none => c

/-- A sheet read of a window at platen f: on a cache hit the use count rises and nothing is charged; a
stack read charges the owner, counts in the sketch and may be admitted (R232, R233). -/
def State.windowRead (s : State) (f sheet : Nat) (ctx : Option Nat) (owner : Nat) (keep : Bool) : Bool × State :=
  let s := s.decodeRange (256 * sheet) 256
  let p := s.platen f
  match cacheWay p.cache sheet with
  | some w =>
    (true, ((s.count (0x8400 + f) 1 1).account ctx owner { Account.zero with pj := energyOf 6 1 }).setPlaten f { p with cache := tmod p.cache (cacheSet sheet * 12 + w) (fun l => { l with use := min 3 (l.use + 1) }) })
  | none =>
    let i := (mix (BitVec.ofNat 64 sheet)).toNat % 65536
    let n := min 15 (((tget p.sketch i).getD 0) + 1)
    let p := { p with sketch := tput p.sketch i n }
    let p := if keep && decide (2 ≤ n) && !s.poisoned (256 * sheet) 256 then
        { p with cache := fillLine p.cache sheet } else p
    (false, (s.setPlaten f p).chargeTo f ctx owner 1)

/-! ## Resolution at a sheet read (R183, R187, R190, R195) -/

/-- The sheets an entry still waits for, at its copy. -/
def needs (d : TableDesc) (e : LkEntry) : List Nat :=
  let at_ (a : Nat) := d.copyAddr e.mirror a / 256
  match e.stage with
  | .bucket1 => [at_ (d.bucketAddr (hash1 d e.key))]
  | .bucket2 => [at_ (d.bucketAddr (hash2 d e.key))]
  | .rowMap => [at_ (d.auxBase + 4 * e.key)]
  | .row slot _ =>
    ((List.range d.spr).filter (fun i => (tget e.got i).isNone)).map (fun i => at_ (d.slotAddr slot + 256 * i))
  | .settled => []

/-- R190: queue an insert at the home platen; whether it is queued or merged. -/
def State.queueInsert (s : State) (t : Nat) (d : TableDesc) (v : Nat) (rec : Option Nat) : Bool × State :=
  if !s.copyUp d false then (false, s)
  else
    let p := s.platen d.home
    let same (i : InsertReq) : Bool := i.table == t && i.id == v && (rec.isNone || i.record.isNone)
    if p.inserts.any same then
      (true, s.setPlaten d.home { p with inserts := p.inserts.map (fun i => if same i && rec.isSome then { i with record := rec } else i) })
    else if 1024 ≤ p.inserts.length then
      (false, s.setPlaten d.home { p with dropped := p.dropped + 1 })
    else (true, s.setPlaten d.home { p with inserts := p.inserts ++ [⟨t, v, rec⟩] })

/-- R195: a HIT of a dynamic table counts; every 2^FREQ_SHIFT-th sends an increment to the home platen. -/
def State.countHit (s : State) (f t : Nat) (d : TableDesc) (v : Nat) : State :=
  let n := ((tget (s.platen f).hits t).getD 0) + 1
  let s := s.modPlaten f (fun p => { p with hits := tput p.hits t n })
  if n % 2 ^ d.freqShift = 0 && s.copyUp d false && decide ((s.platen d.home).freqQ.length < 256) then
    s.modPlaten d.home (fun p => { p with freqQ := p.freqQ ++ [(t, v)] })
  else s

/-- An entry that misses: the outcome, then the default row (R182, R187, R188, R203). -/
def State.missEntry (s : State) (f : Nat) (d : TableDesc) (e : LkEntry) (insert : Bool) : LkEntry × State :=
  let q := if insert && d.flags.missInsert && !e.noInsert then
      let r := s.queueInsert e.table d e.key none
      ((if r.1 then 2 else 3), r.2)
    else (1, s)
  if d.flags.defaultZero then
    ({ e with stage := .settled }, q.2.settleEntry f e q.1 (some (List.replicate d.elems (.fin false 0 0))))
  else ({ e with stage := .row d.defaultSlot q.1 }, q.2)

/-- The bytes of one entry's sheet have arrived (none: poisoned in every copy that can be read). -/
def State.onSheet (s : State) (f : Nat) (d : TableDesc) (e : LkEntry) (sheet : Nat) (data : Option (List Byte))
    (hit : Bool) : LkEntry × State :=
  match data with
  | none => ({ e with stage := .settled }, s.settleEntry f e 0xB none)
  | some l =>
    let found (slot : Nat) : LkEntry × State :=
      if d.slots ≤ slot then ({ e with stage := .settled }, s.settleEntry f e 0xA none)
      else ({ e with stage := .row slot 0 }, s)
    match e.stage with
    | .settled => (e, s)
    | .bucket1 =>
      let b := decodeBucket l
      match b.find e.key with
      | some k => found (b.get k).slot
      | none =>
        if hash1 d e.key ≠ hash2 d e.key ∧ b.ovf ≠ 0 then ({ e with stage := .bucket2 }, s)
        else s.missEntry f d e true
    | .bucket2 =>
      let b := decodeBucket l
      match b.find e.key with
      | some k => found (b.get k).slot
      | none => s.missEntry f d e true
    | .rowMap =>
      let k := field l ((d.auxBase + 4 * e.key) % 256) 4
      if k = 0xFFFFFFFF then s.missEntry f d e false else found k
    | .row slot code =>
      let base := d.copyAddr e.mirror (d.slotAddr slot) / 256
      let e := { e with got := tput e.got (sheet - base) l, cached := e.cached && hit }
      if e.got.length < d.spr then (e, s)
      else
        let off := d.slotAddr slot % 256
        let row := ((e.got.flatMap (·.2)).drop off).take d.rowBytes
        let cb := match s.codebook f e.table d with
          | some c => c.data
          | none => []
        let s := if code = 0 && d.flags.dynamic then s.countHit f e.table d e.key else s
        ({ e with stage := .settled }, s.settleEntry f e code (some (decodeRow d cb row)))

/-- The entries of a window that wait for a sheet. -/
def State.waitsFor (s : State) (sheet : Nat) (e : LkEntry) : Bool :=
  match tget s.tables e.table with
  | some d => (needs d e).contains sheet
  | none => false

/-! ## Routing and admission (R210, R218, R220, R228) -/

/-- Stream number of a galley's port to a platen; 64 is the NP's. -/
def streamKey (g f : Nat) : Nat := g * 8 + f

/-- R210: where an entry of a table goes for a requester at galley g (64 and above: the NP, which reads
the home copy's side): platen and whether it is the mirror copy. -/
def State.routeTo (s : State) (g t : Nat) : Nat × Bool :=
  let own := if g < 64 then formeOf g else 0
  match tget s.tables t with
  | none => (own, false)
  | some d =>
    if d.state ≠ .live then (own, false)
    else
      let m := s.chooseCopy d g
      let inDom (st : Nat) := s.domains = 1 || s.domainOf st == s.domainOf own || decide (64 ≤ g)
      if inDom (d.copyStack m) then (d.copyStack m, m)
      else if d.flags.mirrored && inDom (d.copyStack !m) && s.copyUp d !m then (d.copyStack !m, !m)
      else (own, false)

/-- What acceptance at a platen refuses at once: NO_TABLE, NOT_PERMITTED, OVER_BUDGET (R169, R188, R210,
R218); none for an entry that enters the intake. -/
def State.acceptCode (s : State) (f : Nat) (e : LkEntry) : Option Nat :=
  match tget s.tables e.table with
  | none => some 8
  | some d =>
    if d.state ≠ .live then some 8
    else if d.owner ≠ e.inst then some 9
    else if d.copyStack e.mirror ≠ f then some 9
    else if !s.hasTokens f e.inst && decide (128 ≤ ((s.platen f).intake.filter (fun x => x.inst == e.inst)).length) then some 12
    else none

/-- Stream of an entry's source. -/
def lkStream : LkSrc → Nat
  | .sliver g _ _ _ => g
  | .gather _ => 64

/-- First stage of an admitted entry; an index beyond the limit is ROW_RANGE at once (R183). -/
def firstStage (d : TableDesc) (e : LkEntry) : Option LkStage :=
  if d.flags.dynamic then some .bucket1
  else if d.indexLimit ≤ e.key then none
  else if d.flags.mapped then some .rowMap
  else some (.row e.key 0)

/-- 64 KiB slots a codebook takes (R227). -/
def codebookSlots (elems : Nat) : Nat := (elems + 127) / 128

/-- Free codebook slots by dropping the least recently used resident codebooks no admitted entry needs
(R228). -/
def makeRoom (needed : Nat → Bool) : Nat → Nat → List Codebook → Option (List Codebook)
  | 0, want, cs => if (cs.map (·.slots)).sum + want ≤ 32 then some cs else none
  | n + 1, want, cs =>
    if (cs.map (·.slots)).sum + want ≤ 32 then some cs
    else
      match (cs.filter (fun c => c.resident && !needed c.table)).foldl
          (fun b c => match b with | none => some c | some x => if c.used < x.used then some c else some x) none with
      | none => none
      | some v => makeRoom needed n want (cs.filter (fun c => !(c.table == v.table && c.generation == v.generation)))

end Sys2Proof.Machine
end

