-- ==== Sys2Proof/Machine/GalleyOps.lean ====
section
/-! DEFINITION. Galley operations (04_galleys.md): plan and slug-table entries, windows, starting and
stopping shares, stream moves and barriers. -/

namespace Sys2Proof.Machine

/-! ## Store map and plan (R135, R136, R140 to R143) -/

def galleyBytes : Nat := 0x400000
def codeBase : Nat := 0x1000
def planBase : Nat := 0x21000
def slugBase : Nat := 0x23000
def paramBase : Nat := 0x33000
def generalBase : Nat := 0x51000

/-- A sliver-plan entry (Table 04-5). -/
structure PlanEntry where
  entryPc : Nat
  seg : Nat
  patchRead : Bool
  barS : Nat
  barG : Nat
  param : Nat
  ssBase : Nat
  ssLen : Nat
  gsBase : Nat
  gsLen : Nat
  deriving DecidableEq, Repr

def planOf (l : List Byte) : PlanEntry :=
  { entryPc := field l 0 2, seg := field l 2 1, patchRead := bit (field l 3 1) 0, barS := field l 4 1 % 16,
    barG := field l 5 1 % 16, param := field l 6 2, ssBase := field l 8 2, ssLen := field l 10 2,
    gsBase := field l 12 2, gsLen := field l 14 2 }

def GalleySt.plan (y : GalleySt) (sl : Nat) : PlanEntry := planOf (mread y.store (planBase + 32 * sl) 32)

/-- A slug-table entry (Table 04-6). -/
structure SlugEntry where
  smask : Nat
  vmask : Nat
  tmask : Nat
  gsBase : Nat
  gsLen : Nat
  ranges : List (Nat × Nat)
  deriving DecidableEq, Repr

def slugOf (l : List Byte) : SlugEntry :=
  { smask := field l 0 4, vmask := field l 4 4, tmask := field l 8 1, gsBase := field l 10 2,
    gsLen := field l 12 2,
    ranges := (List.range 4).map (fun i => let x := field l (16 + 4 * i) 4; (x / 65536, x % 65536)) }

def GalleySt.slug (y : GalleySt) (i : Nat) : SlugEntry := slugOf (mread y.store (slugBase + 32 * i) 32)

/-- R143: the declared state of one sliver, in bytes. -/
def SlugEntry.size (e : SlugEntry) : Nat :=
  320 + 8 * popCount 31 (e.smask / 2) + 64 * popCount 32 e.vmask + 256 * popCount 8 e.tmask
  + 64 * (e.ranges.map (·.2)).sum

/-- Where a sliver's galley-store offset lies: offsets below 0x800 name the active LAUNCH area (R135). -/
def GalleySt.storeAddr (y : GalleySt) (a : Nat) : Nat := if a < 0x800 ∧ y.areaB then a + 0x800 else a

/-- Whether a galley-store range lies in one window of the sliver (R136). -/
def inGalleyWindow (p : PlanEntry) (a n : Nat) (write : Bool) : Bool :=
  (decide (p.gsBase * 4096 ≤ a) && decide (a + n ≤ (p.gsBase + p.gsLen) * 4096) && decide (0 < p.gsLen))
  || (p.patchRead && !write && decide (0x200 ≤ a) && decide (a + n ≤ 0x400))

/-- Whether a stick-store range lies in the sliver's window (R136). -/
def inStickWindow (p : PlanEntry) (a n : Nat) : Bool :=
  decide (p.ssBase * 1024 ≤ a) && decide (a + n ≤ (p.ssBase + p.ssLen) * 1024) && decide (0 < p.ssLen)

/-- Stick of a sliver (R133). -/
def stickOf (sl : Nat) : Nat := sl / 16

def GalleySt.stick (y : GalleySt) (j : Nat) : Mem := (tget y.sticks j).getD []

def GalleySt.sliver (y : GalleySt) (sl : Nat) : Option SortSt := tget y.slivers sl
def State.setSliver (s : State) (g sl : Nat) (t : SortSt) : State :=
  s.modGalley g (fun y => { y with slivers := tput y.slivers sl t })

/-! ## Starting and ending a share (R91, R137, R149, R158) -/

/-- R91: a sliver's sort at its start. -/
def GalleySt.startSliver (y : GalleySt) (sl : Nat) : SortSt :=
  let p := y.plan sl
  let block := if p.param = 0xFFFF then [] else mread y.store (paramBase + 256 * p.param) 256
  let code := (mslice y.store (codeBase + 8192 * p.seg) 8192).map (fun q => (q.1 - (codeBase + 8192 * p.seg), q.2))
  let t := { SortSt.zero with pc := BitVec.ofNat 13 p.entryPc, dcase := mwrite [] 0x5F00 block, icase := code }
  { t with snap := t.snapshot t.pc none }

/-- R137: at the first share start after the context changed, zero the stick stores and general area. -/
def GalleySt.zeroStores (y : GalleySt) : GalleySt :=
  if y.storesCtx = y.ctx then y
  else { y with sticks := [], store := mclear y.store generalBase (galleyBytes - generalBase),
                storesCtx := y.ctx }

/-- Start a share: its slivers begin, its barriers and messages are empty. -/
def GalleySt.startShare (y : GalleySt) (index count : Nat) : GalleySt :=
  let y := y.zeroStores
  { y with share := some ⟨index, count⟩,
           slivers := (List.range count).map (fun sl => (sl, y.startSliver sl)),
           barS := [], barG := [], msgs := [] }

/-- The running share has ended: DWAIT reads 0, or 2 after an exception (R149). -/
def GalleySt.endShare (y : GalleySt) (outcome : Nat) : GalleySt :=
  { y with share := none, lastShare := outcome, msgs := [], barS := [], barG := [] }

/-- R158: stop every sliver of the share without snapshot, abandoning moves and lookups. -/
def GalleySt.killShare (y : GalleySt) : GalleySt :=
  match y.share with
  | none => y
  | some _ =>
    let y := { y with slivers := tmap y.slivers (fun _ t => { t.abandon with status := .killed, inbox := [] }) }
    y.endShare 2

/-- The share ends when every sliver has executed SDONE. -/
def GalleySt.shareEndCheck (y : GalleySt) : GalleySt :=
  match y.share with
  | none => y
  | some sh =>
    if (List.range sh.count).all (fun sl => match tget y.slivers sl with
      | some t => t.status == .ended
      | none => false) then y.endShare 0 else y

/-! ## What a sliver sees -/

def State.sortEnv (s : State) (g sl : Nat) : SortEnv :=
  let y := s.galley g
  { now := s.now, sliver := sl,
    share := (y.share.map (·.index)).getD 0,
    slivers := (y.share.map (·.count)).getD 0,
    seed := (y.cur.map (·.seed)).getD 0,
    test := (y.image.map (fun i => i.2.test)).getD false,
    slugCount := (y.image.map (fun i => i.2.slugCount)).getD 0,
    preempt := y.preempt }

/-! ## Stream moves (R111, R136) -/

/-- Whether a kind's source or destination is the case, the stick store or the galley store. -/
inductive StoreKind | case | stick | galley
  deriving DecidableEq, Repr

def StreamKind.ends : StreamKind → StoreKind × StoreKind
  | .cs => (.case, .stick)
  | .sc => (.stick, .case)
  | .cg => (.case, .galley)
  | .gc => (.galley, .case)
  | .sg => (.stick, .galley)
  | .gs => (.galley, .stick)

/-- Whether a range of a store is open to the sliver (R111, R136). -/
def streamRangeOk (p : PlanEntry) (k : StoreKind) (a n : Nat) (write : Bool) : Bool :=
  match k with
  | .case => decide (a + n ≤ caseBytes)
  | .stick => inStickWindow p a n
  | .galley => inGalleyWindow p a n write

/-- The bytes of a range of a store, as the sliver sees it. -/
def GalleySt.streamRead (y : GalleySt) (sl : Nat) (t : SortSt) (k : StoreKind) (a n : Nat) : List Byte :=
  match k with
  | .case => mread t.dcase a n
  | .stick => mread (y.stick (stickOf sl)) a n
  | .galley => mread y.store (y.storeAddr a) n

/-- Issue of a stream move by sliver sl: registers hold the two byte addresses. -/
def GalleySt.smov (y : GalleySt) (sl : Nat) (k : StreamKind) (rd rs rt : Reg) (len7 : Nat) (t : SortSt) : SortRes :=
  let n := (len7 + 1) * 64
  let p := y.plan sl
  let ends := k.ends
  let rsIsSrc := decide (k = .cs ∨ k = .cg ∨ k = .sg)
  let x := (t.gs rs).toNat
  let z := (t.gs rt).toNat
  let src := if rsIsSrc then x else z
  let dst := if rsIsSrc then z else x
  if src % 64 ≠ 0 ∨ dst % 64 ≠ 0 then .exc .misaligned
  else if !streamRangeOk p ends.1 src n false || !streamRangeOk p ends.2 dst n true then .exc .streamRange
  else
    match lowestFree t.tags 8 0 with
    | none => .stall t
    | some tag =>
      if ends.1 = .case ∧ t.eccBad src n then .exc .eccUncorr
      else
        let m : StreamMove := ⟨k, src, dst, n, y.streamRead sl t ends.1 src n, t.seq⟩
        .next ({ t with tags := tput t.tags tag m, seq := t.seq + 1 }.ss rd (BitVec.ofNat 64 tag)) false

/-- The bytes a finished stream writes: a case source as it stood at issue, a store source chunk by chunk
old or new (R95, R161). -/
def GalleySt.streamData (y : GalleySt) (sl : Nat) (t : SortSt) (m : StreamMove) (fresh : Nat) : List Byte :=
  if m.kind.ends.1 = .case then m.old
  else raceChunks (fun i => Config.raceNew fresh i) (m.len / 64) 0 m.old (y.streamRead sl t m.kind.ends.1 m.src m.len)

/-- The last byte of a stream is written and its tag released. -/
def GalleySt.streamWrite (y : GalleySt) (sl tag : Nat) (t : SortSt) (m : StreamMove) (data : List Byte) : GalleySt :=
  let t' := { t with tags := tdel t.tags tag }
  match m.kind.ends.2 with
  | .case => { y with slivers := tput y.slivers sl { t' with dcase := mwrite t.dcase m.dst data } }
  | .stick => { y with slivers := tput y.slivers sl t',
                       sticks := tput y.sticks (stickOf sl) (mwrite (y.stick (stickOf sl)) m.dst data) }
  | .galley => { y with slivers := tput y.slivers sl t', store := mwrite y.store m.dst data }

/-- An earlier-issued inbound stream still covers bytes of this one: it writes first (R95). -/
def SortSt.olderInbound (t : SortSt) (m : StreamMove) : Bool :=
  m.kind.inbound && t.tags.any (fun p => p.2.kind.inbound && decide (p.2.seq < m.seq)
    && overlaps p.2.dst p.2.len m.dst m.len)

/-! ## Pre-emption of the slivers (R156) -/

/-- A request reaches a sort: one stalled at a barrier, MRECV or MSEND rolls back and stops at once. -/
def SortSt.preemptStop (t : SortSt) : SortSt :=
  match t.status with
  | .waitBarS _ => { t.rollback with status := .stopped t.snap.entry }
  | .waitBarG _ => { t.rollback with status := .stopped t.snap.entry }
  | .waitRecv => { t.rollback with status := .stopped t.snap.entry }
  | .waitSend => { t.rollback with status := .stopped t.snap.entry }
  | _ => t

/-- The request reaches the galley's sorts and compositors. -/
def GalleySt.preemptNow (y : GalleySt) : GalleySt :=
  let st := if y.comp.status = .running then CompStatus.stopped else y.comp.status
  { y with preempt := true, slivers := tmap y.slivers (fun _ t => t.preemptStop),
           comp := { y.comp with status := st } }

/-- Whether every part of the galley has stopped. -/
def GalleySt.allStopped (y : GalleySt) : Bool :=
  y.comp.status != .running && y.moves.all (fun m => !m.2.started)
  && (y.share.isNone || y.slivers.all (fun p => match p.2.status with
    | .stopped _ => true
    | .ended => true
    | _ => false))

/-- Keep only what the slug-table entry of the stop declares live (R92, R157). -/
def SortSt.keepLive (t : SortSt) (e : Option SlugEntry) : SortSt :=
  match e with
  | none => { SortSt.zero with pc := t.pc, dcase := mslice t.dcase 0x5F00 256, icase := t.icase, snap := t.snap,
                               book := t.book, inbox := t.inbox, lastMsg := t.lastMsg, status := t.status, tgen := t.tgen }
  | some e =>
    let u := { t with
      s := Vector.ofFn (fun (i : Fin 32) => if bit e.smask i then t.s[i] else 0),
      v := Vector.ofFn (fun (i : Fin 32) => if bit e.vmask i then t.v[i] else 0),
      a := Vector.ofFn (fun (i : Fin 8) => if bit e.tmask i then t.a[i] else 0),
      dcase := t.dcase.filter (fun q => e.ranges.any (fun r => decide (64 * r.1 ≤ q.1) && decide (q.1 < 64 * (r.1 + r.2)))) }
    { u with snap := u.snapshot t.pc t.snap.entry }

end Sys2Proof.Machine
end

