-- ==== Sys2Proof/Machine/HostOps.lean ====
section
/-! DEFINITION. Shared operations of the host port and the fault manager: host reads and writes, MSI-X,
the frisket and accesses through it (12_host_port.md R410 to R419), fault records and their delivery
(14_recovery.md R465 to R475). -/

namespace Sys2Proof.Machine

/-! ## The host bus -/

/-- Whether the Exclusive profile is in force (12_host_port.md R433). -/
def State.exclusive (s : State) : Bool := s.profile == 2

def State.linkUp (s : State) : Bool :=
  match s.host.link with
  | .down _ => false
  | _ => true

/-- A read of host memory; none when the host or its IOMMU refuses it or lets it time out (R413, R414). -/
def State.hostRead (s : State) (a n : Nat) : Option (List Byte) :=
  if s.linkUp && !s.host.refused.any (fun p => overlaps (4096 * p) 4096 a n) then some (mread s.hostMem a n) else none

/-- A posted write to host memory; held while the link is down (R414, R431). -/
def State.hostWrite (s : State) (a : Nat) (bytes : List Byte) : State :=
  if s.linkUp then { s with hostMem := mwrite s.hostMem a bytes }
  else { s with host := { s.host with held := s.host.held ++ [(a, bytes)] } }

/-- The device address of a staging offset; none beyond the staging area (R433). -/
def State.stagingAddr (s : State) (inst a n : Nat) : Option Nat :=
  match (s.inst inst).staging with
  | some (base, size) => if a + n ≤ size then some (base + a) else none
  | none => none

/-- A read at an address of a kernel queue: host bus, or staging in the Exclusive profile (R335, R433). -/
def State.kernelRead (s : State) (inst a n : Nat) : Option (List Byte) :=
  if s.exclusive then
    match s.stagingAddr inst a n with
    | some x => if s.poisoned (x / 256 * 256) (n + 255) || !s.formeUp (stackOf x) then none else some (mread s.mem x n)
    | none => none
  else s.hostRead a n

/-- A write at an address of a kernel queue; false when it fails at the block (R414). -/
def State.kernelWrite (s : State) (inst a : Nat) (bytes : List Byte) : Bool × State :=
  if s.exclusive then
    match s.stagingAddr inst a bytes.length with
    | some x => (true, (s.devWrite x bytes false).charge (stackOf x) inst (sheetsOf x bytes.length))
    | none => (false, s)
  else (true, (s.hostWrite a bytes).account none inst
    { Account.zero with host := bytes.length, pj := energyOf 7 ((bytes.length + 63) / 64) })

/-- R419: raise an MSI-X vector of a function. -/
def State.raise (s : State) (fn vec : Nat) : State :=
  if vec = 0xFFFF then s
  else
    let m := (s.inst fn).msix
    if !m.enable then s
    else if m.holds vec then s.modInst fn (fun x => { x with msix := { m with pend := m.pend.insert vec } })
    else { s with out := s.out ++ [.msix fn vec] }

/-! ## The frisket -/

/-- The valid leaf that translates a context virtual address, and the address it gives (R410). -/
def CtxSt.leafAt (x : CtxSt) (va : Nat) : Option (Leaf × Nat) :=
  let k := va / 65536
  if 2 ^ 48 ≤ va then none
  else match tget x.leaves k with
    | some l => some (l, l.target + (if l.big then va % 2 ^ 21 else va % 65536))
    | none => match tget x.leaves (k / 32 * 32) with
      | some l => if l.big then some (l, l.target + va % 2 ^ 21) else none
      | none => none

/-- Why an access ended: a fault code with the virtual address and what INFO0 holds beside it (14_recovery.md Table 14-5), or
the unit-reset response of a forme in reset (14_recovery.md R493). -/
inductive AccErr
  | fault (code va info : Nat)
  | unitReset
  deriving DecidableEq, Repr

/-- R413, checks 1 and 2: where an access of a context goes: host or device, and the address. -/
def CtxSt.translate (x : CtxSt) (va : Nat) (write : Bool) : Except Nat (Bool × Nat) :=
  match x.leafAt va with
  | none => .error 0x2001
  | some (l, a) =>
    if (if write then l.w && !l.table else l.r) then .ok (l.host, a) else .error 0x2002

/-- The parts of a range that lie in one 64 KiB page each. -/
def pagePieces : Nat → Nat → Nat → List (Nat × Nat)
  | 0, _, _ => []
  | fuel + 1, va, n =>
    if n = 0 then []
    else
      let m := min n (65536 - va % 65536)
      (va, m) :: pagePieces fuel (va + m) (n - m)

def rangePieces (va n : Nat) : List (Nat × Nat) := pagePieces (n / 65536 + 2) va n

/-- Charge a context's host traffic (R395). -/
def State.chargeHost (s : State) (ctx : Option Nat) (inst n : Nat) : State :=
  s.account ctx inst { Account.zero with host := n, pj := energyOf 7 ((n + 63) / 64) }

/-- The first byte of a range, sheet by sheet, whose sheet is poisoned. -/
def State.firstPoison (s : State) (a n : Nat) : Nat :=
  let bad := (List.range (sheetsOf a n)).find? (fun i => s.poisoned (a / 256 * 256 + 256 * i) 256)
  max a (a / 256 * 256 + 256 * bad.getD 0)

/-- The first byte of a host range, page by page, that the host refuses. -/
def State.firstRefused (s : State) (a n : Nat) : Nat :=
  let bad := (List.range ((a % 4096 + n + 4095) / 4096)).find? (fun i => s.host.refused.contains (a / 4096 + i))
  max a ((a / 4096 + bad.getD 0) * 4096)

/-- One page's part of a read through a context's frisket. -/
def State.ctxReadPiece (s : State) (c : Nat) (x : CtxSt) (va n : Nat) : Except AccErr (List Byte) × State :=
  match x.translate va false with
  | .error code => (.error (.fault code va (Config.accessKind false)), s)
  | .ok (true, a) =>
    match s.hostRead a n with
    | some l => (.ok l, s.chargeHost (some c) x.inst n)
    | none => (.error (.fault 0x2003 (va + (s.firstRefused a n - a)) (Config.linkStatus (s.firstRefused a n))), s)
  | .ok (false, a) =>
    if !s.formeUp (stackOf a) then (.error .unitReset, s)
    else
      let s := (s.decodeRange a n).chargeTo (stackOf a) (some c) x.inst (sheetsOf a n)
      if s.poisoned (a / 256 * 256) (a % 256 + n) then (.error (.fault 0x2004 (va + (s.firstPoison a n - a)) (s.firstPoison a n)), s)
      else (.ok (mread s.mem a n), s)

/-- A read of n bytes at a context virtual address; no data is used unless all of it is good (R414). -/
def State.ctxRead (s : State) (c va n : Nat) : Except AccErr (List Byte) × State :=
  match tget s.ctxs c with
  | none => (.error (.fault 0x2001 va (Config.accessKind false)), s)
  | some x =>
    (rangePieces va n).foldl (fun r p =>
      match r.1 with
      | .error e => (.error e, r.2)
      | .ok l =>
        match r.2.ctxReadPiece c x p.1 p.2 with
        | (.ok m, s) => (.ok (l ++ m), s)
        | (.error e, s) => (.error e, s)) (.ok [], s)

/-- One page's part of a write through a context's frisket. -/
def State.ctxWritePiece (s : State) (c : Nat) (x : CtxSt) (va : Nat) (l : List Byte) : Option AccErr × State :=
  match x.translate va true with
  | .error code => (some (.fault code va (Config.accessKind true)), s)
  | .ok (true, a) => (none, (s.hostWrite a l).chargeHost (some c) x.inst l.length)
  | .ok (false, a) =>
    if !s.formeUp (stackOf a) then (some .unitReset, s)
    else (none, (s.devWrite a l false).chargeTo (stackOf a) (some c) x.inst (sheetsOf a l.length))

/-- A write at a context virtual address; the part before the first failing page stays written (R414). -/
def State.ctxWrite (s : State) (c va : Nat) (l : List Byte) : Option AccErr × State :=
  match tget s.ctxs c with
  | none => (some (.fault 0x2001 va (Config.accessKind true)), s)
  | some x =>
    (rangePieces va l.length).foldl (fun r p =>
      match r.1 with
      | some e => (some e, r.2)
      | none => r.2.ctxWritePiece c x p.1 ((l.drop (p.1 - va)).take p.2)) (none, s)

/-- Whether every page of a range is mapped with the access asked. -/
def CtxSt.mapped (x : CtxSt) (va n : Nat) (rd wr : Bool) : Bool :=
  (rangePieces va n).all (fun p => match x.leafAt p.1 with
    | some (l, _) => (!rd || l.r) && (!wr || l.w)
    | none => false)

/-! ## Fault records (14_recovery.md R465 to R475) -/

/-- Default ladder level of a code: its class's, unless Table 14-5 gives another (R473, R474). -/
def codeLevel (code : Nat) : Nat :=
  if [0x2006, 0x3006, 0x3007, 0x3008, 0x4003, 0x8006, 0xB001].contains code then 0
  else if code = 0xA006 ∨ code = 0xD004 then 5
  else match code / 4096 with
    | 1 | 2 | 3 | 4 => 1
    | 7 => 2
    | 8 => 3
    | 10 | 11 => 4
    | _ => 0

/-- A record of a code with no context, instance or unit named yet. -/
def faultOf (code : Nat) : FaultRec :=
  { no := 0, boot := 0, code := code, level := codeLevel code, ctx := none, inst := none, escalated := false,
    unitType := 0, logical := 0, phys := 0, tick := 0, queue := none, addr := 0, info0 := 0, info1 := 0 }

/-- Bytes of a record (Table 14-1); `coarse` for a copy delivered to a VF (R470). -/
def FaultRec.bytes (r : FaultRec) (coarse : Bool) : List Byte :=
  let flags := b2n r.ctx.isSome * 128 + b2n r.inst.isSome * 64 + b2n r.escalated * 32 + b2n coarse * 16
  let l := toLE 2 r.code ++ toLE 1 r.level ++ toLE 1 flags ++ toLE 2 (r.ctx.getD 0) ++ toLE 1 (r.inst.getD 0)
    ++ toLE 1 r.unitType ++ toLE 8 (if coarse then r.tick / 100 * 100 else r.tick) ++ toLE 4 r.no
    ++ toLE 4 r.boot ++ toLE 2 r.logical ++ toLE 2 (if coarse then 0xFFFF else r.phys)
    ++ toLE 2 (match r.queue with | some q => 32768 + q | none => 0) ++ toLE 2 0 ++ toLE 8 r.addr
    ++ toLE 8 r.info0 ++ toLE 8 r.info1 ++ toLE 4 0
  l ++ toLE 4 (crc32 l)

/-- R472: deliver a record to a function's fault ring. -/
def State.deliver (s : State) (fn : Nat) (r : FaultRec) (coarse : Bool) : State :=
  let x := (s.inst fn).fn
  if !x.fltEnable then s
  else if (x.fltProd + 2 ^ 32 - x.fltCons) % 2 ^ 32 = 2 ^ x.fltLog2 then
    s.modFn fn (fun y => { y with fltDrops := (y.fltDrops + 1) % 2 ^ 32, fltOverflow := true })
  else
    let s := (s.kernelWrite fn (x.fltBase + x.fltProd % 2 ^ x.fltLog2 * 64) (r.bytes coarse)).2
    (s.modFn fn (fun y => { y with fltProd := (y.fltProd + 1) % 2 ^ 32 })).raise fn x.fltVector

/-- R465, R468, R469: the fault manager writes a record; `also` names the instances that a reset's record
is copied to (R470). -/
def State.record (s : State) (r : FaultRec) (also : List Nat) : State :=
  let r := { r with no := s.fm.recordNo, boot := s.fm.boot, tick := s.now }
  let m := s.fm
  let m := { m with records := (m.records ++ [r]).drop (m.records.length + 1 - 4096),
                    recordNo := (m.recordNo + 1) % 2 ^ 32,
                    unlogged := if m.unlogged.length < 32 then m.unlogged ++ [r] else m.unlogged,
                    suppressed := if m.unlogged.length < 32 then m.suppressed
                      else tput m.suppressed r.code (((tget m.suppressed r.code).getD 0) + 1) }
  let s := State.deliver { s with fm := m } 0 r false
  let s := match r.inst with
    | some i => if i = 0 then s else s.deliver i r true
    | none => s
  (also.filter (fun i => i != 0 && r.inst != some i)).foldl (fun s i =>
    s.deliver i { r with ctx := none, inst := some i } true) s

end Sys2Proof.Machine
end

