-- ==== Sys2Proof/Machine/QueueOps.lean ====
section
/-! DEFINITION. Losing a context (11_scheduling.md R375, 14_recovery.md R488), commands and their
completion (10_queues.md R343, R358, R363 to R366). -/

namespace Sys2Proof.Machine

def State.modQueue (s : State) (q : Nat) (f : QueueSt → QueueSt) : State := { s with queues := tmod s.queues q f }

def QueueSt.modCmd (x : QueueSt) (no : Nat) (f : Cmd → Cmd) : QueueSt :=
  { x with cmds := x.cmds.map (fun c => if c.no = no then f c else c) }

def State.modCmd (s : State) (q no : Nat) (f : Cmd → Cmd) : State := s.modQueue q (fun x => x.modCmd no f)

def QueueSt.cmd (x : QueueSt) (no : Nat) : Option Cmd := x.cmds.find? (fun c => c.no == no)

def State.cmd (s : State) (q no : Nat) : Option Cmd := (tget s.queues q).bind (fun x => x.cmd no)

/-- Slots of a ring. -/
def QueueSt.size (x : QueueSt) : Nat := 2 ^ x.sqLog2

/-- A command ends with a status; its completion entry is written in its turn (R343). -/
def Cmd.finish (c : Cmd) (status detail : Nat) : Cmd :=
  match c.st with
  | .done _ _ => c
  | _ => { c with st := .done status detail }

def State.finish (s : State) (q no status detail : Nat) : State :=
  s.modQueue q (fun x => { x.modCmd no (fun c => c.finish status detail) with wdog := 0 })

def State.modStep (s : State) (k : Nat) (f : StepRec → StepRec) : State := { s with steps := tmod s.steps k f }

/-! ## Galleys and steps -/

/-- A galley is taken from its step without save (R158): its share stops, its program ends, its moves are
abandoned. -/
def GalleySt.cutOff (y : GalleySt) : GalleySt :=
  let y := y.killShare
  { y with comp := { y.comp with status := .idle }, moves := [], cur := none, next := none, owner := none,
           preempt := false, loading := false, lastShare := 0 }

/-- A step ends: its engine time and result flags go to its command, DRAFTED set for a drafted batch
(09_serving.md R329); its galleys and frame are free (R393, R394). -/
def State.endStep (s : State) (k : Nat) (cut : Bool) : State :=
  match tget s.steps k with
  | none => s
  | some p =>
    let drafted := b2n (s.serve.batches.any (fun b => b.2.queue == p.queue && b.2.no == p.no && b.2.draftFrom.isSome))
    let s := s.modCmd p.queue p.no (fun c => { c with us := min 0xFFFFFFFF (p.ticks / 100), rflags := p.rflags ||| drafted })
    let s := { s with serve := { s.serve with batches := tmap s.serve.batches (fun _ (b : Batch) =>
      if b.queue = p.queue ∧ b.no = p.no then { b with drafted := b.draftFrom.isSome || bit p.rflags 0, preempted := p.preempted } else b) } }
    let s := p.galleys.foldl (fun s g => s.modGalley g (fun y =>
      if y.owner = some k then (if cut then y.cutOff else { y with owner := none, cur := none, next := none, preempt := false })
      else y)) s
    let s := s.modCtx p.ctx (fun x => { x with frames := x.frames.filter (fun f => f.2 != k) })
    { s with steps := tdel s.steps k }

/-! ## Losing a context -/

/-- The connections of a lost context break, and nothing more is written to its memory (13_network.md
R463). -/
def State.breakLost (s : State) (c : Nat) : State :=
  s.net.conns.foldl (fun s p =>
    if p.2.ctx = c ∧ p.2.state = .opened then
      let s := { s with net := { s.net with conns := tmod s.net.conns p.1 (fun y =>
        { y with state := .broken, breakCode := 7, outst := [], waiting := [], ackBases := [], ackDue := none }) } }
      s.record { faultOf 0x3006 with inst := some p.2.inst, unitType := 0x0A, logical := p.2.port,
                                     phys := p.1, info0 := p.1, info1 := 7 } []
    else s) s

/-- A context is lost: the record, its steps stopped, its slot and frames released, its waits removed, its
rings and buffers no longer read; `culprit` is the LAUNCH or command whose own execution caused the loss
(R365, R375).  Its other commands complete when the teardown ends. -/
def State.loseContext (s : State) (c : Nat) (r : FaultRec) (culprit : Option (Nat × Nat)) : State :=
  match tget s.ctxs c with
  | none => s
  | some x =>
    if x.state = .lost then s
    else
      let s := s.record { r with ctx := some c, inst := some x.inst } []
      let s := match culprit with
        | some (q, no) => s.finish q no 0x22 r.code
        | none => s
      let s := (s.steps.filter (fun p => p.2.ctx == c)).foldl (fun s p => s.endStep p.1 true) s
      let s := { s with galleys := s.galleys.map (fun (y : GalleySt) => if y.ctx = some c ∧ y.owner = none then y.cutOff else y) }
      let s := s.modCtx c (fun x => { x with state := .lost, lostCode := r.code, lostTick := s.now,
                                             slot := none, frames := [], teardown := some s.now })
      let s := { s with queues := tmap s.queues (fun _ y => if y.kind ≠ 0 ∧ y.ctx = c then { y with wait := none } else y),
                        upd := { s.upd with
                          rings := tmap s.upd.rings (fun k y => if k / 4 = c then { y with stopped := true } else y),
                          bufs := s.upd.bufs.map (fun (b : UpdBuf) => if b.ctx = c ∧ b.data = [] then { b with off := b.len } else b) } }
      s.breakLost c

/-- What a failed access does to the context it was made for. -/
def State.accFault (s : State) (c : Nat) (e : AccErr) (culprit : Option (Nat × Nat)) : State :=
  match e with
  | .fault code va info =>
    s.loseContext c { faultOf code with unitType := 0x08, logical := ((tget s.ctxs c).map (·.inst)).getD 0, addr := va, info0 := info } culprit
  | .unitReset => s

/-! ## Completion entries and fences -/

/-- The context that a completion entry names (Table 10-5 CTX). -/
def State.entryCtx (s : State) (x : QueueSt) (c : Cmd) : Option Nat :=
  if x.kind ≠ 0 then some x.ctx
  else
    let named (off : Nat) : Option Nat := some (field c.body off 2 % 4096)
    match c.op with
    | 0x10 => named 0x10 | 0x18 => named 0x10 | 0x19 => named 0x10 | 0x1A => named 0x10
    | 0x20 =>
      -- CONTEXT chosen by the block is the one in DETAIL
      match c.st with
      | .done 0 d => if bit (field c.body 0x10 2) 15 then some (d % 4096) else named 0x10
      | _ => named 0x10
    | 0x21 => named 0x10
    | 0x24 => if field c.body 0x12 1 = 0 then none else named 0x14
    | 0x28 => named 0x12 | 0x50 => named 0x12 | 0x52 => named 0x14
    | 0x55 => named 0x12 | 0x58 => named 0x12
    | _ => none

/-- Statuses that refuse a command before it executes (Table 10-6). -/
def isRefusal (status : Nat) : Bool :=
  (decide (0x10 ≤ status) && decide (status ≤ 0x18)) || decide (0x24 ≤ status)

def coarse (t : Nat) : Nat := t / 100 * 100

/-- Where a virtual address of a context lies: on the host or the device, and the address there. -/
def State.transCtx (s : State) (c va : Nat) : Option (Bool × Nat) :=
  ((tget s.ctxs c).bind (fun x => x.leafAt va)).map (fun r => (r.1.host, r.2))

/-- Where an address of a queue's commands lies (R335, 12_host_port.md R433). -/
def State.transQueue (s : State) (x : QueueSt) (a : Nat) : Option (Bool × Nat) :=
  if x.kind ≠ 0 then s.transCtx x.ctx a
  else if s.exclusive then (s.stagingAddr x.inst a 1).map (fun y => (false, y))
  else some (true, a)

/-- The 64 bytes of a completion entry (Table 10-5): its counts take in its own writing (R363). -/
def State.entryBytes (s : State) (q : Nat) (x : QueueSt) (c : Cmd) (status detail : Nat) : List Byte :=
  let phase := 1 - x.cqWritten / x.size % 2
  let cx := s.entryCtx x c
  let ctxWord := phase * 32768 + b2n cx.isSome * 16384 + cx.getD 0
  let no := isRefusal status
  let fin := if no then c.start else s.now
  let own : Nat × Nat := match s.transQueue x (x.cqVA + x.cqWritten % x.size * 64) with
    | some (true, _) => (0, 64)
    | some (false, _) => (256, 0)
    | none => (0, 0)
  toLE 8 (field c.body 0 8) ++ toLE 1 status ++ toLE 1 c.op ++ toLE 2 c.rflags ++ toLE 2 ctxWord ++ toLE 2 q
    ++ toLE 4 detail ++ toLE 4 (if no then 0 else c.us) ++ toLE 8 (coarse c.start) ++ toLE 8 (coarse fin)
    ++ toLE 8 (if no then 0 else c.hbm + own.1) ++ toLE 8 (if no then 0 else c.host + own.2) ++ toLE 8 (if no then 0 else c.net)

/-- The fence that a completing command signals (R358): it exists and the command may name it. -/
def State.fenceOf (s : State) (x : QueueSt) (c : Cmd) (status detail : Nat) : Option Nat :=
  let w := field c.body 8 2
  let id := w % 8192
  if !bit w 15 then none
  else if detail = 8 ∧ (status = 0x12 ∨ status = 0x16 ∨ status = 0x17) then none
  else match tget s.fences id with
    | some f => if f.inst = x.inst ∧ (x.kind = 0 ∨ f.ctx = x.ctx) then some id
                else if x.kind = 0 ∧ x.inst = 0 then some id else none
    | none => none

/-- Whether the device page under a virtual address is on a forme in reset: the write is held (14_recovery.md
R493). -/
def State.pageDown (s : State) (c va : Nat) : Bool :=
  match (tget s.ctxs c).bind (fun x => x.leafAt va) with
  | some (l, a) => !l.host && !s.formeUp (stackOf a)
  | none => false

/-- The address of a queue's registered wait. -/
def State.waitAddr (s : State) (x : QueueSt) : Option (Bool × Nat) :=
  match x.wait.bind (fun w => x.cmd w.no) with
  | some c => s.transQueue x (field c.body 0x10 8)
  | none => none

/-- R356: a write of the QFE makes the waits on its 64-byte chunk due. -/
def State.wake (s : State) (w : Option (Bool × Nat)) : State :=
  match w with
  | none => s
  | some (h, a) => { s with queues := tmap s.queues (fun _ y =>
      match s.waitAddr y with
      | some (h', a') => if h' = h ∧ a' / 64 = a / 64 then { y with wait := y.wait.map (fun (z : Wait) => { z with next := min z.next s.now }) } else y
      | none => y) }

/-- R358: signal a fence: count, counter write, bit, vector. -/
def State.signal (s : State) (id : Nat) : State :=
  match tget s.fences id with
  | none => s
  | some f =>
    let n := (f.count + 1) % 2 ^ 64
    let s := { s with fences := tput s.fences id { f with count := n } }
    let s := if f.counterVA = 0 then s
      else match s.ctxWrite f.ctx f.counterVA (toLE 8 n) with
        | (some e, s) => s.accFault f.ctx e none
        | (none, s) => s.wake (s.transCtx f.ctx f.counterVA)
    let s := { s with fences := tmod s.fences id (fun f => { f with signalled := true }) }
    s.raise f.inst f.vector

/-- Whether the entry or counter of a command must be held because its page is on a forme in reset, or
is squashed by a reset that writes nothing more for the instance (12_host_port.md R421). -/
def State.entryHeld (s : State) (x : QueueSt) (c : Cmd) (status detail : Nat) : Bool :=
  ((s.inst x.inst).reset.map (fun (r : InstReset) => !r.writes)).getD false
  || (x.kind != 0 && s.pageDown x.ctx (x.cqVA + x.cqWritten % x.size * 64))
  || (match s.fenceOf x c status detail with
      | some id => match tget s.fences id with
        | some f => f.counterVA != 0 && s.pageDown f.ctx f.counterVA
        | none => false
      | none => false)

/-- Entries written and not yet consumed. -/
def QueueSt.unconsumed (x : QueueSt) : Nat := (x.cqWritten + 2 ^ 32 - x.cqHead) % 2 ^ 32

/-- COMPLETION_ENTRY_WRITE and FENCE_SIGNAL (R363, R358, R365): write the entry of a queue's first command,
which has ended, signal its fence, raise the queue's vector, and pass its slots. -/
def State.writeEntry (s : State) (q : Nat) (x : QueueSt) (c : Cmd) (status detail : Nat) : State :=
  let hide := bit c.cflags 0 && status == 0
  let bytes := s.entryBytes q x c status detail
  let va := x.cqVA + x.cqWritten % x.size * 64
  let s := if hide then s
    else if x.kind = 0 then (let r := (s.kernelWrite x.inst va bytes).2; r.wake (r.transQueue x va))
    else match s.ctxWrite x.ctx va bytes with
      | (some e, s) => s.accFault x.ctx e none
      | (none, s) => s.wake (s.transQueue x va)
  let s := match s.fenceOf x c status detail with
    | some id => s.signal id
    | none => s
  let s := if bit c.cflags 2 && !hide then s.raise x.inst x.vector else s
  s.modQueue q (fun x => { x with
    cmds := x.cmds.filter (fun d => d.no != c.no),
    head := match c.slot with
      | some n => (n + c.slots) % 2 ^ 32
      | none => x.head,
    cqWritten := if hide then x.cqWritten else (x.cqWritten + 1) % 2 ^ 32, wdog := 0 })

/-- Write the entries that are due at the front of a queue, at most n. -/
def State.drain (q : Nat) : Nat → State → State
  | 0, s => s
  | n + 1, s =>
    match tget s.queues q with
    | none => s
    | some x =>
      match x.cmds with
      | [] => s
      | c :: _ =>
        match c.st with
        | .done status detail =>
          if s.entryHeld x c status detail || (decide (x.size ≤ x.unconsumed) && !(bit c.cflags 0 && status == 0)) then s
          else State.drain q n (s.writeEntry q x c status detail)
        | _ => s

/-- A batch whose completion entry is written is retired later (09_serving.md R320): note its status. -/
def State.noteBatch (s : State) (c : Cmd) (status : Nat) : State :=
  match c.batch with
  | some b => { s with serve := { s.serve with batches := tmod s.serve.batches b (fun y =>
      if y.done.isNone then { y with done := some (status, s.now) } else y) } }
  | none => s

/-- The batches of a queue whose entries are gone from it are complete. -/
def State.noteBatches (before : List Cmd) (q : Nat) (s : State) : State :=
  let left := ((tget s.queues q).map (·.cmds)).getD []
  (before.filter (fun c => !left.any (fun d => d.no == c.no))).foldl (fun s c =>
    match c.st with
    | .done status _ => s.noteBatch c status
    | _ => s) s

/-- A flush that has reached FLUSH_TAIL ends, with the commands that wait for it; QUEUE_DESTROY frees the
queue (R366, R368). -/
def State.flushEnd (s : State) (q : Nat) : State :=
  match tget s.queues q with
  | none => s
  | some x =>
    match x.flush with
    | none => s
    | some f =>
      -- a flush carried by its own queue ends when it is the only command left before FLUSH_TAIL
      let own := f.waiting.filter (fun w => w.1 == q)
      let s := match x.cmds with
        | c :: _ => if own.any (fun w => w.2 == c.no) && c.st == .started then s.finish q c.no 0 0 else s
        | [] => s
      if x.cmds.isEmpty then
        let s := s.modQueue q (fun x => { x with head := x.flushTail, flush := none })
        let s := f.waiting.foldl (fun s w => s.finish w.1 w.2 0 0) s
        if f.destroy then
          let s := { s with queues := tdel s.queues q }
          if x.bootstrap then s.modFn x.inst (fun y => { y with kqId := none }) else s
        else s
      else s

/-- One pass over every queue. -/
def State.pumpPass (s : State) : State :=
  s.queues.foldl (fun s p =>
    let before := ((tget s.queues p.1).map (·.cmds)).getD []
    (State.noteBatches before p.1 (State.drain p.1 before.length s)).flushEnd p.1) s

/-- Commands waiting in all queues: a measure of how many passes can still write something. -/
def State.cmdCount (s : State) : Nat := (s.queues.map (fun p => p.2.cmds.length)).sum

/-- Write every completion entry that is due, in queue order, and end the flushes that are through. -/
def State.pump (s : State) : State :=
  (List.range (s.cmdCount + s.queues.length + 1)).foldl (fun s _ => s.pumpPass) s

end Sys2Proof.Machine
end

