-- ==== Sys2Proof/Machine/KeyOps.lean ====
section
/-! DEFINITION. Shared operations of the key manager and the management controller: key derivation and
slots (15_security.md R523 to R534), sealed records and replies (16_dictionary.md R561 to R570), alerts and
notifications (R578, R581). -/

namespace Sys2Proof.Machine

/-! ## The flash (17_boundary.md R612): the state holds each byte's complement -/

def flip8 (b : Byte) : Byte := b ^^^ 0xFF
def State.flashRead (s : State) (a n : Nat) : List Byte := (mread s.bnd.fp.flash a n).map flip8
def State.modFp (s : State) (f : FpSt → FpSt) : State := { s with bnd := { s.bnd with fp := f s.bnd.fp } }
def State.flashWrite (s : State) (a : Nat) (l : List Byte) : State :=
  s.modFp (fun x => { x with flash := mwrite x.flash a (l.map flip8) })
def State.flashErase (s : State) (a n : Nat) : State := s.modFp (fun x => { x with flash := mclear x.flash a n })

/-! ## Key derivation -/

def ascii (x : String) : List Byte := x.toList.map (fun c => BitVec.ofNat 8 c.toNat)

/-- R523: the first l bits of the concatenated HMACs. -/
def kdf (parent : List Byte) (label : String) (ctx : List Byte) (l : Nat) : Nat :=
  let n := (l + 383) / 384
  let all := (List.range n).foldl (fun x i =>
    x * 2 ^ 384 + hmac384 parent (toBE 4 (i + 1) ++ ascii label ++ [0] ++ ctx ++ toBE 4 l)) 0
  all / 2 ^ (384 * n - l)

/-- R525: the DIK's private scalar. -/
def dikOf (root : Nat) : Nat :=
  kdf (toBE 32 root) "OTM-IDENTITY" (toLE 8 Config.serial) 512 % (p384Order - 1) + 1

/-- Table 15-5: the seal key of a start. -/
def sealKeyOf (root boot warm : Nat) : Nat := kdf (toBE 32 root) "OTM-SEAL" (toLE 4 boot ++ toLE 4 warm) 256

/-- R539: the test root. -/
def testRoot : Nat := sha384 (ascii "OTM-TEST-ROOT" ++ toLE 8 Config.serial) / 2 ^ 128

/-- A draw of the DRBG: n bits. -/
def State.draw (s : State) (n : Nat) : Nat × State :=
  (Config.drbg s.fresh % 2 ^ n, { s with fresh := s.fresh + 1 })

/-! ## AES-256-GCM -/

/-- Ciphertext of a plaintext, and its 16-byte tag. -/
def gcmEncrypt (key iv : Nat) (aad pt : List Byte) : List Byte × List Byte :=
  (gcmXor key iv pt, toLE 16 (gcmTag key iv aad pt))

/-- The plaintext, when the tag is right. -/
def gcmDecrypt (key iv : Nat) (aad ct : List Byte) (tag : List Byte) : Option (List Byte) :=
  let pt := gcmXor key iv ct
  if toLE 16 (gcmTag key iv aad pt) = tag then some pt else none

/-! ## Key slots -/

def State.kslot (s : State) (n : Nat) : KSlot := (tget s.sec.slots n).getD KSlot.zero
def State.modSlot (s : State) (n : Nat) (f : KSlot → KSlot) : State :=
  { s with sec := { s.sec with slots := tput s.sec.slots n (f (s.kslot n)) } }

/-- Slots that an instance can own (Table 15-6). -/
def State.assignable (s : State) (n : Nat) : Bool :=
  decide (16 ≤ n) && decide (n < 256) && !s.sec.retiredSlots.contains n

/-- EMPTY and assignable. -/
def State.freeSlot? (s : State) (n : Nat) : Bool := s.assignable n && (s.kslot n).state == .empty

/-- The lowest EMPTY assignable slots. -/
def State.freeKeySlots (s : State) : List Nat := (List.range 256).filter s.freeSlot?

/-- Assignable slots an instance owns, PENDING and DESTROYED ones among them (R529). -/
def State.ownedSlots (s : State) (i : Nat) : Nat :=
  (s.sec.slots.filter (fun p => decide (16 ≤ p.1) && p.2.state != .empty && p.2.owner == some i)).length

def State.maxSlots (s : State) : Nat := s.sec.prot.keyPolicy / 2 ^ 16 % 256

/-- The descriptor of a slot (Table 15-7); CREATE_TICK coarsened for a tenant (R528). -/
def State.slotBytes (s : State) (n : Nat) (coarsely : Bool) : List Byte :=
  let k := if s.sec.retiredSlots.contains n then KSlot.zero else s.kslot n
  let id := if k.typ = 2 then sha384 (toBE 96 (ecPublic k.key)) / 2 ^ 320
    else if k.typ = 1 then hmac384 (toBE 32 k.key) (ascii "OTM-KCV") / 2 ^ 320 else 0
  toLE 1 n ++ toLE 1 k.attr ++ toLE 1 k.typ ++ toLE 1 k.origin ++ toLE 1 k.state.code ++ toLE 1 (k.owner.getD 0)
    ++ toLE 1 (b2n k.test * 2 + b2n k.owner.isSome) ++ [0] ++ toLE 4 (if n = 1 then k.uses + (s.galleys.toList.filter (fun y => y.loading)).length else k.uses) ++ toLE 4 k.opens ++ toLE 4 k.gen
    ++ toLE 4 0 ++ toBE 8 id ++ toLE 8 (if coarsely then k.created / 100 * 100 else k.created) ++ toLE 24 0

/-- A key put into a slot that is EMPTY: it commits at once (R533). -/
def State.fillSlot (s : State) (n attr typ origin : Nat) (owner : Option Nat) (key : Nat) (session : Option (Nat × Nat)) : State :=
  s.modSlot n (fun k => { KSlot.zero with
    attr := attr, typ := typ, origin := origin, state := .ready, owner := owner, key := key,
    test := decide (origin = 1) && bit s.sec.prot.debugCtrl 31, gen := k.gen + 1, created := s.now,
    session := session })

/-- Begin and end a use (R532). -/
def State.useSlot (s : State) (n : Nat) : State := s.modSlot n (fun k => { k with uses := k.uses + 1 })
def State.unuseSlot (s : State) (n : Nat) : State := s.modSlot n (fun k => { k with uses := k.uses - 1 })

/-- Slot 1's key: the seal key. -/
def State.sealKey (s : State) : Nat := (s.kslot 1).key

/-! ## Management records and replies -/

/-- R561: a datagram's header. -/
def apgusHeader (kind session seq : Nat) : List Byte :=
  toLE 2 0x4147 ++ toLE 1 1 ++ toLE 1 kind ++ toLE 4 session ++ toLE 8 seq

/-- R567: a message. -/
def apgusMsg (op flags tag index sub status : Nat) (value : List Byte) : List Byte :=
  toLE 1 op ++ toLE 1 flags ++ toLE 2 tag ++ toLE 2 index ++ toLE 1 sub ++ toLE 1 status ++ value

def State.modSess (s : State) (n : Nat) (f : SessSt → SessSt) : State :=
  { s with mgmt := { s.mgmt with sessions := tmod s.mgmt.sessions n f } }

/-- A datagram leaves on the management network, when the MAC-PHY answers (R558). -/
def State.sendDatagram (s : State) (session kind : Nat) (body : List Byte) : State :=
  if s.mgmt.macPhy then { s with out := s.out ++ [.datagram session kind body] } else s

/-- R564: a RECORD of one message to a session. -/
def State.sendRecord (s : State) (n : Nat) (msg : List Byte) : State :=
  match tget s.mgmt.sessions n with
  | none => s
  | some x =>
    let seq := x.lastOut + 1
    let hdr := apgusHeader 4 n seq
    let e := gcmEncrypt ((s.kslot x.slot).key % 2 ^ 256) (2 ^ 64 + seq) hdr msg
    (s.modSess n (fun y => { y with lastOut := seq })).sendDatagram n 4 (hdr ++ e.1 ++ e.2)

/-- A response in a session, kept for a retry (R564). -/
def State.replySession (s : State) (n op tag index sub status : Nat) (dropped : Bool) (value : List Byte) : State :=
  let msg := apgusMsg (op + 0x80) (b2n dropped) tag index sub status value
  (s.modSess n (fun y => { y with
    replies := (y.replies.filter (fun r => r.1 != tag) ++ [(tag, op, index, sub, msg)]).drop
      ((y.replies.filter (fun r => r.1 != tag)).length + 1 - 16) })).sendRecord n msg

/-- A response in the host mailbox (R571). -/
def State.replyMailbox (s : State) (op tag index sub status : Nat) (dropped : Bool) (value : List Byte) : State :=
  let msg := apgusMsg (op + 0x80) (b2n dropped) tag index sub status value
  let s := { s with mgmt := { s.mgmt with mbx := { s.mgmt.mbx with rsp := msg.take 1024, done := true, busy := false } } }
  s.raise 0 s.mgmt.mbx.vector

/-- Who waited for a write to complete is answered: a KEY command with a command status, a dictionary write
with an Apgus status. -/
def State.answer (s : State) (w : Waiter) (status detail apgus : Nat) : State :=
  match w with
  | .nobody => s
  | .cmd q no => s.finish q no status detail
  | .session n op tag index sub => s.replySession n op tag index sub apgus false []
  | .mailbox op tag index sub => s.replyMailbox op tag index sub apgus false []

/-- A slot becomes EMPTY, or PENDING until its uses end (R530, R533); a change of it that was pending commits first
(R534). -/
def State.emptySlot (s : State) (n : Nat) : State :=
  let w := ((s.kslot n).pend.map (fun p => p.waiter)).getD .nobody
  if (s.kslot n).uses = 0 then (s.modSlot n (fun k => { KSlot.zero with gen := k.gen })).answer w 0 0 0
  else s.modSlot n (fun k => { k with state := .pending, pend := some ⟨0, 0, none, 0, true, w⟩ })

/-- R581: a NOTIFY to every session whose mask selects its kind; POWER_CYCLE goes to every session. -/
def State.notify (s : State) (kind : Nat) (payload : List Byte) : State :=
  s.mgmt.sessions.foldl (fun s p =>
    if p.2.opened && (kind == 1 || bit p.2.mask kind) then s.sendRecord p.1 (apgusMsg 0x10 0 0 0 kind 0 payload) else s) s

/-- ALERT_CAUSE gains bits (R578). -/
def State.raiseAlert (s : State) (bits : Nat) : State :=
  let new := s.mgmt.alert ||| bits
  if new = s.mgmt.alert then s
  else
    let s := { s with mgmt := { s.mgmt with alert := new }, bnd := { s.bnd with alert := true } }
    s.notify 4 (toLE 4 new)

/-- A management session ends and its slot is emptied (R565, R530). -/
def State.endSession (s : State) (n : Nat) : State :=
  match tget s.mgmt.sessions n with
  | none => s
  | some x =>
    let s := { s with mgmt := { s.mgmt with sessions := tdel s.mgmt.sessions n } }
    if x.opened then s.emptySlot x.slot else s

/-! ## Records that the management controller acts on -/

/-- A fault record is written, its NOTIFY goes out (Table 16-17) and the alert bits it stands for are
latched (R578). -/
def State.fault (s : State) (r : FaultRec) (also : List Nat) : State :=
  let no := s.fm.recordNo
  let s := s.record r also
  let cls := r.code / 4096
  let bits := if r.code = 0xD002 ∨ r.code = 0xD003 then 1 else if r.code = 0xC003 then 2
    else if r.code = 0x5009 then 4 else if r.code = 0x8006 then 8 else if r.code = 0xD005 then 16 else 0
  let s := s.raiseAlert bits
  if decide (2 ≤ r.level) || cls == 9 || cls == 0xC || cls == 0xD then
    s.notify 0 ((({ r with no := no, boot := s.fm.boot, tick := s.now } : FaultRec)).bytes false)
  else s

/-- The record of a ladder reset at its level; a reset that a RESET command asks for has none (code 0): it is no fault. -/
def State.ladderRecord (s : State) (r : FaultRec) (level : Nat) (also : List Nat) : State :=
  if r.code = 0 then s else s.fault { r with level := level } also

/-- R18: a write to a locked field is dropped: the event, and the advisory to the host function. -/
def State.lockViolation (s : State) (addr : Nat) (fn : Option Nat) : State :=
  let s := s.fault { faultOf 0xC001 with inst := fn, unitType := if fn.isSome then 0x08 else 0x00, logical := fn.getD 0, addr := addr,
                                          info0 := fn.getD 0 } []
  let s := { s with fm := { s.fm with locks := s.fm.locks + 1 } }
  match fn with
  | some i => State.modFn { s with out := s.out ++ [.event 0xC001 i addr] } i (fun y => { y with lockAdv := true, lockAddr := addr })
  | none => s

/-- R587: FAULT_N follows the formes and safe mode. -/
def State.evalFaultPin (s : State) : State :=
  let bad := s.formes.toList.any (fun f => f.status == .outOfService || f.status == .held) || s.bnd.power == .safe || s.bnd.power == .tripped
  { s with bnd := { s.bnd with fault := bad } }

end Sys2Proof.Machine
end

