-- ==== Sys2Proof/Machine/MemOps.lean ====
section
/-! DEFINITION. What the memory controllers report to the fault manager: corrected and uncorrectable events, lane
faults, frame retirement (08_memory.md R283 to R291). -/

namespace Sys2Proof.Machine

/-- A corrected frame, most recent first; the tracker holds 4,096 (R287). -/
def trackFrame (l : List (Nat × Nat)) (frame : Nat) : List (Nat × Nat) :=
  let n := ((l.find? (fun p => p.1 == frame)).map (·.2)).getD 0
  ((frame, n + 1) :: l.filter (fun p => p.1 != frame)).take 4096

/-- The record of an event at a stack. -/
def stackRecord (f code addr : Nat) (inst : Option Nat) : FaultRec :=
  { faultOf code with unitType := 0x05, logical := f, phys := f, addr := addr, inst := inst }

/-- Begin the retirement of the first frame that waits for it (R288, R290): the lowest free overs frame. -/
def State.nextRetire (s : State) (f : Nat) : State :=
  let x := s.stack f
  match x.retiring, x.toRetire with
  | none, fr :: rest =>
    if 65536 ≤ x.oversUsed then s.modStack f (fun x => { x with toRetire := [] })
    else
      let r : Retire := ⟨fr, x.oversUsed, s.now⟩
      let s := s.modStack f (fun x => { x with retiring := some r, toRetire := rest, oversUsed := x.oversUsed + 1 })
      let left := 65536 - (x.oversUsed + 1)
      let s := if left = 1024 then s.fault { stackRecord f 0x5008 0 none with info0 := 3, info1 := left } [] else s
      if left = 0 then s.fault { stackRecord f 0x5009 0 none with info0 := 3 } [] else s
  | _, _ => s

/-- Ask for the retirement of a frame. -/
def State.retireFrame (s : State) (f frame : Nat) : State :=
  let x := s.stack f
  if x.toRetire.contains frame || ((x.retiring.map (·.frame)) == some frame) then s
  else (s.modStack f (fun x => { x with toRetire := x.toRetire ++ [frame] })).nextRetire f

/-- R291: a correction on one signal of a pseudo-channel; 64 distinct frames within 1 s are a lane fault. -/
def State.laneHit (s : State) (f key sym frame : Nat) : State :=
  let x := s.stack f
  let cur := x.lanes.find? (fun l => l.1 == key && l.2.1 == sym)
  let old : List Nat × Nat := match cur with
    | some (_, _, fs, t0) => if s.now < t0 + 100000000 then (fs, t0) else ([], s.now)
    | none => ([], s.now)
  let fs := if old.1.contains frame then old.1 else frame :: old.1
  let rest := x.lanes.filter (fun l => !(l.1 == key && l.2.1 == sym))
  if 64 ≤ fs.length then
    let s := s.modStack f (fun x => { x with lanes := rest, laneFaults := x.laneFaults ++ [(key, sym)] })
    (s.count (0x4020 + f) 5 1).fault { stackRecord f 0x5006 0 none with info0 := key * 64 + sym } []
  else s.modStack f (fun x => { x with lanes := (key, sym, fs, old.2) :: rest })

/-- One event reaches the fault manager. -/
def State.memReport (s : State) (f : Nat) (e : MemEvent) : State :=
  let a := 64 * e.group
  let frame := a % 2 ^ 36 / 65536
  let mk (code : Nat) : FaultRec := { stackRecord f code a (e.tag.map (·.2)) with ctx := e.tag.bind (·.1) }
  if e.fix = [] then
    let s := s.count (0x4020 + f) 4 1
    if e.write then s.fault (mk 0x5004) [] else (s.fault (mk 0x5004) []).retireFrame f frame
  else
    let s := (s.count (0x4020 + f) 3 1).fault (mk 0x5003) []
    let key := pseudoOf (a % 2 ^ 36)
    let known := e.fix.filter (fun p => (s.stack f).laneFaults.contains (key, p))
    let new := e.fix.filter (fun p => !known.contains p)
    let s := new.foldl (fun s p => s.laneHit f key p frame) s
    if new.isEmpty then s
    else
      let s := s.modStack f (fun x => { x with tracker := trackFrame x.tracker frame })
      let n := (((s.stack f).tracker.find? (fun p => p.1 == frame)).map (·.2)).getD 0
      if s.fm.retireLimit ≤ n then s.retireFrame f frame else s

/-- The events of every controller reach the fault manager. -/
def State.reportMem (s : State) : State :=
  (List.range 8).foldl (fun s f =>
    let l := (s.stack f).news
    if l.isEmpty then s else l.foldl (fun s e => s.memReport f e) (s.modStack f (fun x => { x with news := [] }))) s

end Sys2Proof.Machine
end

