-- ==== Sys2Proof/Machine/Frisket.lean ====
section
/-! DEFINITION. The translation tables of the friskets as they lie in an instance's pool (12_host_port.md R410 to
R412).  The spec leaves open which pool blocks the tables take: here they lie one after another, those of 4 KiB
first, in ascending order of context, level and address. -/

namespace Sys2Proof.Machine

/-- Table 12-6: a leaf, and a pointer to a table. -/
def Leaf.entry (l : Leaf) : Nat :=
  2 ^ 63 + 2 ^ 62 + b2n l.host * 2 ^ 61 + b2n l.table * 2 ^ 60 + b2n l.w * 2 ^ 59 + b2n l.r * 2 ^ 58 + b2n l.hdm * 2 ^ 57
    + l.target / 65536 % 2 ^ 48

def ptrEntry (a : Nat) : Nat := 2 ^ 63 + a / 256 % 2 ^ 32

/-- Keys of the tables of levels 2 to 4 that a frisket needs: leading bits of the virtual addresses. -/
def CtxSt.level2 (x : CtxSt) : List Nat := (x.leaves.map (fun l => l.1 / 2 ^ 23)).dedup
def CtxSt.level3 (x : CtxSt) : List Nat := (x.leaves.map (fun l => l.1 / 2 ^ 14)).dedup
def CtxSt.level4 (x : CtxSt) : List Nat := ((x.leaves.filter (fun l => !l.2.big)).map (fun l => l.1 / 32)).dedup

/-- Pool bytes that a frisket's tables take: 4 KiB for each table of level 1 to 3, 256 B for each of level 4
(R410, R411). -/
def CtxSt.poolBytes (x : CtxSt) : Nat :=
  if x.leaves.isEmpty then 0
  else 4096 + 4096 * x.level2.length + 4096 * x.level3.length + 256 * x.level4.length

/-- The pool granules of an instance, as addresses. -/
def State.poolGranules (s : State) (i : Nat) : List Nat :=
  (s.host.grants.filter (fun p => p.2.1 == i && p.2.2)).map (fun p => p.1 * 2 ^ 21)

/-- Address of a byte of the pool; none past its end. -/
def poolPlace (l : List Nat) (pos : Nat) : Option Nat := (l[pos / 2 ^ 21]?).map (fun a => a + pos % 2 ^ 21)

/-- The tables of 4 KiB of an instance: context, level, key; and those of 256 B. -/
def State.bigTables (s : State) (i : Nat) : List (Nat × Nat × Nat) :=
  (s.ctxs.filter (fun p => p.2.inst == i && !p.2.leaves.isEmpty)).flatMap (fun p =>
    (p.1, 1, 0) :: (p.2.level2.map (fun k => (p.1, 2, k)) ++ p.2.level3.map (fun k => (p.1, 3, k))))

def State.smallTables (s : State) (i : Nat) : List (Nat × Nat) :=
  (s.ctxs.filter (fun p => p.2.inst == i)).flatMap (fun p => p.2.level4.map (fun k => (p.1, k)))

/-- The valid entries of a context's tables: position in the pool, and value. -/
def CtxSt.tableEntries (x : CtxSt) (big : Nat → Nat → Option Nat) (small : Nat → Option Nat) : List (Option Nat × Option Nat) :=
  let at_ (o : Option Nat) (i : Nat) : Option Nat := o.map (fun p => p + 8 * i)
  x.level2.map (fun k => (at_ (big 1 0) (k % 512), (big 2 k).map ptrEntry))
  ++ x.level3.map (fun k => (at_ (big 2 (k / 512)) (k % 512), (big 3 k).map ptrEntry))
  ++ x.level4.map (fun k => (at_ (big 3 (k / 512)) (k % 512), (small k).map ptrEntry))
  ++ x.leaves.map (fun l => if l.2.big then (at_ (big 3 (l.1 / 2 ^ 14)) (l.1 / 32 % 512), some l.2.entry)
                            else (at_ (small (l.1 / 32)) (l.1 % 32), some l.2.entry))

/-- Write the tables of an instance's friskets into its pool, and note where each level-1 table lies.  Pages whose
bytes change are noted as written (R426). -/
def State.layFriskets (s : State) (i : Nat) : State :=
  let gs := s.poolGranules i
  let bigs := s.bigTables i
  let smalls := s.smallTables i
  let big (c level k : Nat) : Option Nat := (bigs.idxOf? (c, level, k)).bind (fun n => poolPlace gs (4096 * n))
  let small (c k : Nat) : Option Nat := (smalls.idxOf? (c, k)).bind (fun n => poolPlace gs (4096 * bigs.length + 256 * n))
  let clean := gs.foldl (fun m a => mclear m a (2 ^ 21)) s.mem
  let es := (s.ctxs.filter (fun p => p.2.inst == i)).flatMap (fun p => p.2.tableEntries (big p.1) (small p.1))
  let mem := es.foldl (fun m e => match e with
    | (some a, some v) => mstore m a 8 v
    | _ => m) clean
  let changed := (gs.flatMap (fun a => (List.range 32).map (fun k => a + 65536 * k))).filter (fun a => mslice mem a 65536 != mslice s.mem a 65536)
  let s := changed.foldl (fun s a => s.noteDirty a 65536) { s with mem := mem }
  { s with ctxs := tmap s.ctxs (fun c (x : CtxSt) => if x.inst = i then { x with l1 := (big c 1 0).getD 0 } else x) }

end Sys2Proof.Machine
end

