-- ==== Sys2Proof/Machine/Sched.lean ====
section
/-! DEFINITION. Context residency, the scheduler, image loads, stops and resumes (11_scheduling.md R371 to
R389, 04_galleys.md R137, R140, R154 to R158, 10_queues.md R351). -/

namespace Sys2Proof.Machine

/-! ## Context slots and record pages -/

def CtxState.code (x : CtxState) : Nat := match x with | .idle => 1 | .resident => 2 | .lost => 3

/-- 64 KiB units mapped by a context: on device memory, on host memory, with TABLE (Table 12-5). -/
def CtxSt.units (x : CtxSt) (p : Leaf → Bool) : Nat :=
  (x.leaves.map (fun l => if p l.2 then (if l.2.big then 32 else 1) else 0)).sum
def CtxSt.devUnits (x : CtxSt) : Nat := x.units (fun l => !l.host)
def CtxSt.hostUnits (x : CtxSt) : Nat := x.units (fun l => l.host)

def energyUJ (pj : Nat) : Nat := pj / 1000000

/-- The record page (Table 11-2) as the block writes it. -/
def CtxSt.recordBytes (x : CtxSt) (c : Nat) : List Byte :=
  toLE 2 c ++ toLE 1 x.inst ++ toLE 1 x.state.code ++ toLE 1 x.domain ++ toLE 3 0 ++ toLE 4 x.pasid
    ++ toLE 2 x.lostCode ++ toLE 2 0 ++ toLE 8 x.createTick ++ toLE 8 x.lostTick ++ toLE 32 0
    ++ toLE 8 (x.acct.ticks) ++ toLE 8 x.acct.hbm ++ toLE 8 x.acct.host ++ toLE 8 x.acct.net
    ++ toLE 8 (x.acct.pj % 1000000) ++ toLE 8 (energyUJ x.acct.pj) ++ toLE 8 x.acct.preempts
    ++ toLE 8 x.acct.switches ++ toLE 128 0
    ++ toLE 8 x.l1 ++ toLE 4 x.devUnits
    ++ toLE 4 x.hostUnits ++ toLE 4 (x.units (fun l => l.table)) ++ toLE 4 x.poolBytes ++ toLE 4 x.gen

/-- Write a context's record page; nothing is written while its stack's forme is in reset. -/
def State.writeRecord (s : State) (c : Nat) : State :=
  match tget s.ctxs c with
  | none => s
  | some x => if s.formeUp (stackOf x.recordPA) then s.devWrite x.recordPA (x.recordBytes c) false else s

/-- The record pages of an instance's contexts. -/
def State.writeRecords (s : State) (i : Nat) : State :=
  (s.ctxs.filter (fun p => p.2.inst == i)).foldl (fun s p => s.writeRecord p.1) s

/-- Mappings of a context have changed: the tables are written, and the roots of its instance's contexts. -/
def State.friskChanged (s : State) (i : Nat) : State := (s.layFriskets i).writeRecords i

def State.slotTaken (s : State) (i : Nat) : Bool := s.ctxs.any (fun p => p.2.slot == some i)

/-- Whether a context has a RUNNING step. -/
def State.hasRunning (s : State) (c : Nat) : Bool :=
  s.steps.any (fun p => p.2.ctx == c && (p.2.st == .running || p.2.st == .stopping))

/-- R374: the least recently used RESIDENT context without a RUNNING step, the lower slot on a tie. -/
def State.evictable (s : State) : Option Nat :=
  ((s.ctxs.filter (fun p => p.2.state == .resident && !s.hasRunning p.1 && s.formeUp (stackOf p.2.recordPA))).foldl
    (fun (best : Option (Nat × Nat × Nat)) p =>
      let k := (p.2.used, p.2.slot.getD 0)
      match best with
      | none => some (p.1, k.1, k.2)
      | some (c, u, sl) => if k.1 < u ∨ (k.1 = u ∧ k.2 < sl) then some (p.1, k.1, k.2) else some (c, u, sl))
    none).map (·.1)

def State.evictCtx (s : State) (c : Nat) : State :=
  let s := s.modCtx c (fun x => { x with state := .idle, slot := none })
  s.writeRecord c

/-- RESIDENT contexts of an instance. -/
def State.residentCount (s : State) (i : Nat) : Nat :=
  (s.ctxs.filter (fun p => p.2.inst == i && p.2.state == .resident)).length

/-- CONTEXT_SLOT_LOAD (R374): give a context a slot, if it can have one now. -/
def State.loadCtx (s : State) (c : Nat) : Option State :=
  match tget s.ctxs c with
  | none => none
  | some x =>
    let use (s : State) := State.modCtx { s with useCount := s.useCount + 1 } c (fun y => { y with used := s.useCount })
    match x.state with
    | .resident => some (use s)
    | .lost => none
    | .idle =>
      let lim := tget (s.inst x.inst).quotas 3
      if (match lim with | some n => decide (n ≤ s.residentCount x.inst) | none => false)
          || !s.formeUp (stackOf x.recordPA) then none
      else
        let put (s : State) (i : Nat) := use ((s.modCtx c (fun y => { y with state := .resident, slot := some i })).writeRecord c)
        match (List.range 64).find? (fun i => !s.slotTaken i) with
        | some i => some (put s i)
        | none =>
          match s.evictable with
          | none => none
          | some v =>
            let i := ((tget s.ctxs v).bind (·.slot)).getD 0
            some (put (s.evictCtx v) i)

/-! ## Images -/

/-- What identifies an image for residency (R351): handle and seal generation. -/
def imageKey (sealNo gen : Nat) : Nat := gen * 4096 + sealNo

/-- The header of an image (04_galleys.md Table 04-4). -/
def imageOf (l : List Byte) : ImageInfo :=
  { press := bit (field l 6 2) 0, test := bit (field l 6 2) 1, draft := bit (field l 6 2) 2,
    imageBytes := field l 8 4, shares := field l 0x0C 1, slivers := field l 0x0D 1 + 1, segs := field l 0x0E 1,
    seedWord := field l 0x0F 1, seed := BitVec.ofNat 64 (field l 0x10 8), compOff := field l 0x18 4,
    compLen := field l 0x1C 4, compEntry := field l 0x20 4, codeOff := field l 0x24 4, planOff := field l 0x28 4,
    slugOff := field l 0x2C 4, slugCount := field l 0x30 2, paramCount := field l 0x32 2,
    paramOff := field l 0x34 4, patchOff := field l 0x38 4, patchLen := field l 0x3C 2,
    ptrMask := BitVec.ofNat 64 (field l 0x40 8), modelId := BitVec.ofNat 64 (field l 0x48 8),
    costOff := field l 0x50 4, costLen := field l 0x54 4, draftEntry := field l 0x58 4 }

/-- Bytes of an image as they are authenticated: the patch window as zeros (R350). -/
def sealBytes (im : ImageInfo) (l : List Byte) : List Byte :=
  l.take im.patchOff ++ List.replicate im.patchLen 0 ++ l.drop (im.patchOff + im.patchLen)

/-- R350 step 4: the seal tag. -/
def sealTag (key ctx handle gen va : Nat) (im : ImageInfo) (l : List Byte) : Nat :=
  gcmTag key (handle + gen * 65536)
    (toLE 2 ctx ++ toLE 2 handle ++ toLE 8 va ++ toLE 4 im.imageBytes ++ sealBytes im l) []

/-- R140: place an image in a galley. -/
def GalleySt.place (y : GalleySt) (key : Nat) (im : ImageInfo) (l : List Byte) : GalleySt :=
  let part (off n : Nat) := (l.drop off).take n
  let st := mwrite y.store codeBase (part im.codeOff (8192 * im.segs))
  let st := mwrite st planBase (part im.planOff (32 * im.slivers))
  let st := mwrite st slugBase (part im.slugOff (32 * im.slugCount))
  let st := mwrite st paramBase (part im.paramOff (256 * im.paramCount))
  { y with store := st, image := some (key, im),
           comp := { y.comp with imem := mwrite [] 0 (part im.compOff im.compLen) } }

/-- R154: the compositors start at COMP_ENTRY with zeroed registers and data memory. -/
def GalleySt.startComp (y : GalleySt) (im : ImageInfo) : GalleySt :=
  { y with comp := { y.comp with s := Vector.replicate 32 0, pc := BitVec.ofNat 15 im.compEntry, dmem := [],
                                 status := .running } }

/-- R135: the inactive LAUNCH area is written: the command copy and the patched window. -/
def GalleySt.writeArea (y : GalleySt) (cmd patch : List Byte) : GalleySt :=
  let base := if y.areaB then 0 else 0x800
  let st := mclear y.store base 0x800
  { y with store := mwrite (mwrite st base (cmd.take 256)) (base + 0x200) (patch.take 512) }

/-- The LAUNCH as galley g of a step sees it: its shares are those whose index mod G is one of its ranks
(R145, R146). -/
def StepRec.launchFor (p : StepRec) (k g : Nat) : Launch :=
  { queue := p.queue, pos := p.no, ctx := p.ctx, inst := p.inst, sealNo := p.sealNo,
    shares := (List.range p.shares).filter (fun i => p.galleys[i % p.galleys.length]? == some g),
    cmd := p.cmd, patch := p.patch, seed := p.seed, step := k }

/-! ## Domains, order and frames -/

/-- Whether a logical galley can run work: its forme serves and it is neither retired nor being reset. -/
def State.galleyUp (s : State) (g : Nat) : Bool :=
  (s.forme (formeOf g)).status == .inService && !s.fm.retired.contains g
  && !s.fm.resets.any (fun r => r.target == .galley g)

/-- R379: the scheduler's order. -/
def StepRec.before (a b : StepRec) : Bool :=
  if a.urgent != b.urgent then a.urgent
  else if a.deadline ≠ b.deadline then decide (a.deadline < b.deadline)
  else if a.queue ≠ b.queue then decide (a.queue < b.queue)
  else decide (a.arrival < b.arrival)

def insertStep (k : Nat) (p : StepRec) : List (Nat × StepRec) → List (Nat × StepRec)
  | [] => [(k, p)]
  | q :: l => if p.before q.2 then (k, p) :: q :: l else q :: insertStep k p l

/-- Steps that wait to run, in order. -/
def State.waitingSteps (s : State) : List (Nat × StepRec) :=
  (s.steps.filter (fun p => p.2.st == .pending || p.2.st == .stopped)).foldl (fun l p => insertStep p.1 p.2 l) []

def State.domainOfStep (s : State) (p : StepRec) : Nat := s.domainOf (formeOf ((p.galleys.head?).getD 0))

/-- Address of the save slot of a galley in a frame (R383): j is its local index in the domain. -/
def State.saveSlot (s : State) (frame g : Nat) : Nat :=
  0xFFFF00000000 + frame * 0x10000000 + (g - s.domainOf (formeOf g) * (64 / s.domains)) * 0x400000

/-- R383: whether a frame is usable: the slot of every galley of the domain is mapped on its own stack. -/
def State.frameUsable (s : State) (x : CtxSt) (frame : Nat) : Bool :=
  let n := 64 / s.domains
  (List.range n).all (fun j =>
    let g := x.domain * n + j
    (List.range 64).all (fun i => match x.leafAt (s.saveSlot frame g + 65536 * i) with
      | some (l, a) => l.r && l.w && !l.host && !l.table && stackOf a == formeOf g
      | none => false))

/-- The lowest usable frame that is free. -/
def State.freeFrame (s : State) (x : CtxSt) : Option Nat :=
  (List.range 16).find? (fun i => !thas x.frames i && s.frameUsable x i)

/-- R386: whether a running step can be pre-empted. -/
def State.canStop (s : State) (p : StepRec) : Bool :=
  match tget s.ctxs p.ctx with
  | some x => (s.freeFrame x).isSome
  | none => false

/-! ## Saving and restoring (Table 11-4) -/

/-- Table 04-8's bytes of a pending move. -/
def GMove.bytes (m : GMove) : List Byte :=
  toLE 8 (m.src + b2n m.srcGs * 2 ^ 63) ++ toLE 8 (m.dst + b2n m.dstGs * 2 ^ 63) ++ toLE 4 m.len ++ toLE 2 m.rows
    ++ toLE 2 0 ++ toLE 4 m.srcStride ++ toLE 4 m.dstStride

def maskBytes (n : Nat) (p : Nat → Bool) : List Byte :=
  toLE n ((List.range (8 * n)).foldl (fun x i => if p i then x + 2 ^ i else x) 0)

/-- The slug-table entry at which a sliver stopped. -/
def stopEntry (st : SortStatus) : Option (Option Nat) :=
  match st with
  | .stopped e => some e
  | _ => none

def GalleySt.stoppedSlugs (y : GalleySt) : List SlugEntry :=
  y.slivers.filterMap (fun p => match stopEntry p.2.status with
    | some (some e) => some (y.slug e)
    | _ => none)

/-- R143: the galley live range, as one range over the entries at which slivers stopped. -/
def GalleySt.liveRange (y : GalleySt) : Nat × Nat :=
  let l := y.stoppedSlugs.filter (fun e => e.gsLen != 0)
  match l with
  | [] => (0, 0)
  | e :: r =>
    let lo := r.foldl (fun x e => min x e.gsBase) e.gsBase
    let hi := r.foldl (fun x e => max x (e.gsBase + e.gsLen)) (e.gsBase + e.gsLen)
    (lo, hi - lo)

/-- What is saved of a stopped sliver: the fixed 320 bytes, then the declared registers and ranges. -/
def SortSt.saveBytes (t : SortSt) (e : Option SlugEntry) (entry : Nat) : List Byte :=
  let inbox := (t.inbox.take 16).flatMap (fun m => toLE 8 m.lo.toNat ++ toLE 8 m.hi.toNat)
  let fixed := toLE 8 t.xa.toNat ++ toLE 8 t.xb.toNat ++ toLE 4 t.ssr.toNat ++ toLE 2 t.pc.toNat ++ toLE 2 entry
    ++ toLE 4 t.book.slugs ++ toLE 36 0 ++ inbox ++ List.replicate (256 - inbox.length) 0
  match e with
  | none => fixed
  | some e =>
    fixed
    ++ (List.range 32).flatMap (fun i => if bit e.smask i && i != 0 then toLE 8 ((vget t.s i 0).toNat) else [])
    ++ (List.range 32).flatMap (fun i => if bit e.vmask i then toLE 64 ((vget t.v i 0).toNat) else [])
    ++ (List.range 8).flatMap (fun i => if bit e.tmask i then toLE 256 ((vget t.a i 0).toNat) else [])
    ++ e.ranges.flatMap (fun r => mread t.dcase (64 * r.1) (64 * r.2))

/-- The registers of a saved list that a mask names, from its bytes. -/
def loadMasked (w mask n : Nat) (from_ : Nat) (l : List Byte) (off : Nat) : Tab Nat × Nat :=
  (List.range n).foldl (fun (r : Tab Nat × Nat) i =>
    if bit mask i && decide (from_ ≤ i) then (r.1 ++ [(i, field l r.2 w)], r.2 + w) else r) ([], off)

/-- A sliver's state read back: undeclared registers and case bytes are zero (R92, R157). -/
def SortSt.loadSaved (t : SortSt) (e : Option SlugEntry) (l : List Byte) : SortSt :=
  let msgs := (t.inbox.take 16).zipIdx.map (fun p =>
    { p.1 with lo := BitVec.ofNat 64 (field l (64 + 16 * p.2) 8), hi := BitVec.ofNat 64 (field l (72 + 16 * p.2) 8) })
  let t := { t with xa := BitVec.ofNat 64 (field l 0 8), xb := BitVec.ofNat 64 (field l 8 8),
                    ssr := BitVec.ofNat 32 (field l 16 4), pc := BitVec.ofNat 13 (field l 20 2), inbox := msgs,
                    book := { t.book with slugs := field l 24 4 } }
  match e with
  | none => t
  | some e =>
    let (sr, o1) := loadMasked 8 e.smask 32 1 l 320
    let (vr, o2) := loadMasked 64 e.vmask 32 0 l o1
    let (ar, o3) := loadMasked 256 e.tmask 8 0 l o2
    let case := (e.ranges.foldl (fun (r : Mem × Nat) q =>
      (mwrite r.1 (64 * q.1) ((l.drop r.2).take (64 * q.2)), r.2 + 64 * q.2)) (mslice t.dcase 0x5F00 0, o3)).1
    { t with
      s := Vector.ofFn (fun (i : Fin 32) => BitVec.ofNat 64 ((tget sr i).getD 0)),
      v := Vector.ofFn (fun (i : Fin 32) => BitVec.ofNat 512 ((tget vr i).getD 0)),
      a := Vector.ofFn (fun (i : Fin 8) => BitVec.ofNat 2048 ((tget ar i).getD 0)),
      dcase := case }

/-- A write to a save frame or a read of one takes no tokens (R384). -/
def State.keepTokens (before s : State) : State :=
  { s with platens := Vector.ofFn (fun (i : Fin 8) => { s.platens[i] with buckets := before.platens[i].buckets }) }

/-- The parts of a galley's save slot, as offset and bytes. -/
def State.saveParts (s : State) (p : StepRec) (y : GalleySt) : List (Nat × List Byte) :=
  let lr := y.liveRange
  let pend := y.moves.filter (fun m => !m.2.started)
  let stopd (i : Nat) := match tget y.slivers i with
    | some t => (stopEntry t.status).isSome
    | none => false
  let ended (i : Nat) := match tget y.slivers i with
    | some t => t.status == .ended
    | none => false
  let hdr := toLE 4 0x53564C53 ++ toLE 2 p.ctx ++ toLE 2 p.queue ++ toLE 2 p.sealNo
    ++ toLE 1 ((y.share.map (·.index)).getD 0) ++ toLE 1 pend.length ++ toLE 4 p.sealGen ++ toLE 8 s.now
    ++ toLE 2 lr.1 ++ toLE 2 lr.2 ++ toLE 4 0 ++ maskBytes 32 ended ++ maskBytes 32 stopd
  [(0, hdr), (0x800, pend.flatMap (fun m => m.2.bytes)),
   (0xA00, (List.range 32).flatMap (fun i => toLE 8 (vget y.comp.s i 0).toNat) ++ toLE 8 y.comp.pc.toNat),
   (0x1000, mread y.store (if y.areaB then 0x800 else 0) 0x800), (0x2000, mread y.comp.dmem 0 0x8000),
   (0xA000, mread y.store (4096 * lr.1) (4096 * lr.2))]
  ++ y.slivers.filterMap (fun q => match stopEntry q.2.status with
    | some e => some (0x8A000 + q.1 * 0x2000, q.2.saveBytes (e.map y.slug) (e.getD 0xFFFF))
    | none => none)

/-- A galley's stopped state as the step keeps it (R157): the live parts only. -/
def GalleySt.stopKeep (y : GalleySt) : GalleySt :=
  { y with slivers := y.slivers.map (fun q => match stopEntry q.2.status with
             | some e => (q.1, q.2.keepLive (e.map y.slug))
             | none => q),
           store := [], sticks := [] }

/-- Write a step's stopped state to its frame; the error of the first write that fails. -/
def State.saveStep (s : State) (p : StepRec) (frame : Nat) : Option AccErr × State :=
  p.galleys.foldl (fun r g =>
    let base := r.2.saveSlot frame g
    (r.2.saveParts p (r.2.galley g)).foldl (fun r q =>
      match r.1 with
      | some e => (some e, r.2)
      | none => if q.2.isEmpty then r else r.2.ctxWrite p.ctx (base + q.1) q.2) r) (none, s)

/-- R383, R157: one galley's stopped state read back; none when its header does not match. -/
def State.restoreGalley (s : State) (p : StepRec) (frame g : Nat) (kept : GalleySt) :
    Except AccErr (Option GalleySt) × State :=
  let base := s.saveSlot frame g
  let rd (s : State) (off n : Nat) := s.ctxRead p.ctx (base + off) n
  match rd s 0 96 with
  | (.error e, s) => (.error e, s)
  | (.ok h, s) =>
    if field h 0 4 ≠ 0x53564C53 ∨ field h 4 2 ≠ p.ctx ∨ field h 8 2 ≠ p.sealNo ∨ field h 12 4 ≠ p.sealGen then
      (.ok none, s)
    else
      match rd s 0xA00 264, rd s 0x1000 0x800, rd s 0x2000 0x8000,
          rd s 0xA000 (4096 * field h 26 2) with
      | (.ok c, _), (.ok area, _), (.ok dm, _), (.ok live, s) =>
        let y := s.galley g
        let st := mwrite (mclear y.store generalBase (galleyBytes - generalBase)) (4096 * field h 24 2) live
        let y := { y with
          store := mwrite st (if kept.areaB then 0x800 else 0) area, areaB := kept.areaB, sticks := [],
          share := kept.share, lastShare := kept.lastShare, moves := tmap kept.moves (fun _ m => { m with started := true }), cur := kept.cur,
          slivers := kept.slivers, barS := kept.barS, barG := kept.barG, msgs := kept.msgs,
          storesKept := false, storesCtx := some p.ctx,
          comp := { y.comp with s := Vector.ofFn (fun (i : Fin 32) => BitVec.ofNat 64 (field c (8 * i) 8)),
                                pc := BitVec.ofNat 15 (field c 256 8), dmem := mwrite [] 0 dm, status := kept.comp.status } }
        let r := kept.slivers.foldl (fun (r : Except AccErr GalleySt × State) q =>
          match r.1 with
          | .error e => (.error e, r.2)
          | .ok y =>
            match stopEntry q.2.status with
            | none => r
            | some e =>
              let ent := e.map y.slug
              match rd r.2 (0x8A000 + q.1 * 0x2000) ((ent.map SlugEntry.size).getD 320) with
              | (.error x, s) => (.error x, s)
              | (.ok l, s) =>
                let t := q.2.loadSaved ent l
                let t := { t with status := .running, snap := t.snapshot t.pc e }
                (.ok { y with slivers := tput y.slivers q.1 t }, s)) (.ok y, s)
        match r with
        | (.error e, s) => (.error e, s)
        | (.ok y, s) => (.ok (some y), s)
      | (.error e, s), _, _, _ => (.error e, s)
      | _, (.error e, s), _, _ => (.error e, s)
      | _, _, (.error e, s), _ => (.error e, s)
      | _, _, _, (.error e, s) => (.error e, s)

/-! ## Starting a step -/

/-- Make a LAUNCH available to a galley, whose image is loaded: a press loop waits in QWAIT, a launched
program starts at its entry (R150, R154). -/
def GalleySt.offer (y : GalleySt) (l : Launch) : GalleySt :=
  let y := { y with next := some l }.writeArea l.cmd l.patch
  match y.image with
  | some (_, im) => if im.press && y.comp.status == .running then y else y.startComp im
  | none => y

/-- A galley whose step resumes goes on where it stopped. -/
def GalleySt.goOn (y : GalleySt) : GalleySt :=
  if y.comp.status = .stopped then { y with comp := { y.comp with status := .running }, preempt := false } else y

/-- Give galley g to step k (R393): the image it last ran stays, another is loaded first (R388). -/
def State.giveGalley (s : State) (k g : Nat) (p : StepRec) (resumed : Bool) : State :=
  s.modGalley g (fun y =>
    let changed := y.ctx != some p.ctx
    let y := { y with owner := some k, ctx := some p.ctx, preempt := false,
                      storesKept := if changed || resumed then false else y.storesKept }
    let l := p.launchFor k g
    if y.image.map (·.1) = some (imageKey p.sealNo p.sealGen) then
      (if resumed && y.comp.status == .stopped then (if y.cur.isSome then y.goOn else ({ y with next := some l }.writeArea l.cmd l.patch).goOn)
       else y.offer l)
    else { y with loading := true, next := if resumed && y.cur.isSome then none else some l })

/-! ## The mailbox of a batch (09_serving.md R318, R319) -/

/-- The batch that a LAUNCH carries. -/
def State.batchOf (s : State) (q no : Nat) : Option (Nat × Batch) :=
  s.serve.batches.find? (fun p => p.2.queue == q && p.2.no == no)

/-- Words 0x08 and 0x10 of the mailbox at galley g (Table 09-9). -/
def Batch.verdict (b : Batch) (g : Nat) : List Byte :=
  let w := b2n b.draftFrom.isSome * 2 ^ 63 + b2n (b.conf.dlmMode == 0) * 2 ^ 62 + (b.draftFrom.getD 0) % 2 ^ 16 * 2 ^ 32
    + (match tget b.reports g with | some p => 2 ^ 16 + p % 2 ^ 16 | none => 0)
  toLE 8 w ++ toLE 8 (b.predicted / 100 * 100)

/-- QTAKE of a batch: the mailbox is zeroed, then DEADLINE is written. -/
def State.openMailbox (s : State) (g q no : Nat) : State :=
  match s.batchOf q no with
  | some (_, b) => s.modGalley g (fun y => { y with
      store := mstore (mclear y.store b.conf.mbox 64) (b.conf.mbox + 0x18) 8 (b.deadline / 100 * 100) })
  | none => s

/-- The DLM writes its words of the mailbox. -/
def State.writeVerdict (s : State) (g : Nat) (b : Batch) : State :=
  s.modGalley g (fun y => { y with store := mwrite y.store (b.conf.mbox + 8) (b.verdict g) })

/-- After a pre-emption the mailbox is rewritten with the present verdict. -/
def State.rewriteMailbox (s : State) (g q no : Nat) : State :=
  match s.batchOf q no with
  | some (_, b) => (s.openMailbox g q no).writeVerdict g b
  | none => s

/-- The dispatch unit forwards a compositor store to REPORT to the DLM. -/
def State.forwardReport (s : State) (g o n : Nat) : State :=
  match (s.galley g).cur with
  | none => s
  | some l =>
    match s.batchOf l.queue l.pos with
    | some (k, b) =>
      if overlaps o n b.conf.mbox 8 then
        { s with serve := { s.serve with batches := tput s.serve.batches k { b with fwd := b.fwd.insert g } } }
      else s
    | none => s

/-- R380, R388: the step's model becomes the domain's resident model; a change is a switch, measured until
every galley of the step waits or takes. -/
def State.noteModel (s : State) (p : StepRec) : State :=
  let d := s.domainOfStep p
  match tget s.resident d with
  | none => { s with resident := tput s.resident d p.model }
  | some m =>
    if m = p.model then s
    else
      let s := { s with resident := tput s.resident d p.model, switching := tput s.switching d (p.model, s.now, p.galleys) }
      s.account (some p.ctx) p.inst { Account.zero with switches := 1 }

/-- STEP_GRANT's start and RESUME_RESTORE (R379, R383, R385): the step runs on its galleys, which are all
idle. -/
def State.startStep (s : State) (k : Nat) (p : StepRec) : State :=
  let resumed := p.st == .stopped
  let s := s.noteModel p
  let s0 := s
  let r : Except AccErr Bool × State :=
    match resumed, p.frame with
    | true, some f =>
      p.galleys.foldl (fun r g =>
        match r.1 with
        | .ok true =>
          match r.2.restoreGalley p f g ((tget p.kept g).getD GalleySt.zero) with
          | (.ok (some y), s) => (.ok true, s.setGalley g y)
          | (.ok none, s) => (.ok false, s)
          | (.error e, s) => (.error e, s)
        | _ => r) (.ok true, s)
    | _, _ => (.ok true, s)
  let s := State.keepTokens s0 r.2
  match r.1 with
  | .ok true =>
    let s := p.galleys.dedup.foldl (fun s g => s.giveGalley k g p resumed) s
    let s := if resumed then p.galleys.foldl (fun s g =>
        if (s.galley g).cur.isSome then s.rewriteMailbox g p.queue p.no else s) s else s
    let s := s.modCtx p.ctx (fun x => { x with frames := x.frames.filter (fun f => f.2 != k) })
    s.modStep k (fun q => { q with st := .running, frame := none, kept := [] })
  | .ok false =>
    let g := (p.galleys.head?).getD 0
    let r := { faultOf 0x3004 with unitType := 0x03, logical := g, phys := s.physGalley g, addr := s.saveSlot (p.frame.getD 0) g }
    s.loseContext p.ctx r (some (p.queue, p.no))
  | .error e => s.accFault p.ctx e (some (p.queue, p.no))

/-- A galley of an incoming step has executed its first QWAIT (a press loop) or QTAKE (launched): the last
one ends the switch, which is measured (R388). -/
def State.noteTook (s : State) (g : Nat) : State :=
  let d := s.domainOf (formeOf g)
  match tget s.switching d with
  | none => s
  | some (m, t0, l) =>
    if !l.contains g then s
    else
      let l := l.filter (fun x => x != g)
      if l.isEmpty then
        let old := ((tget s.switches d).getD []).filter (fun x => x.1 != m)
        { s with switching := tdel s.switching d, switches := tput s.switches d (((m, s.now - t0) :: old).take 256) }
      else { s with switching := tput s.switching d (m, t0, l) }

/-! ## The scheduler -/

/-- Ask a running step to stop (R384). -/
def State.askStop (s : State) (k : Nat) : State :=
  match tget s.steps k with
  | some p =>
    if p.st = .running then
      let s := p.galleys.foldl (fun s g => s.modGalley g (fun y => y.preemptNow)) s
      s.modStep k (fun q => { q with st := .stopping, preempted := true })
    else s
  | none => s

/-- Running steps that stand in the way of a waiting step: owners of its galleys, and every running step of
its domain when its model is another (R379, R380). -/
def State.blockers (s : State) (p : StepRec) : List (Nat × StepRec) :=
  let d := s.domainOfStep p
  let other := match tget s.resident d with
    | some m => m != p.model
    | none => false
  s.steps.filter (fun q => (q.2.st == .running || q.2.st == .stopping)
    && (if other then s.domainOfStep q.2 == d else q.2.galleys.any (fun g => p.galleys.contains g)))

/-- STEP_GRANT (R379): grant one waiting step if it can be granted now, or ask the steps in its way to
stop. -/
def State.tryGrant (s : State) (k : Nat) : State :=
  match tget s.steps k with
  | none => s
  | some p =>
    if !(p.st == .pending || p.st == .stopped) || !p.galleys.all s.galleyUp
        || !(s.instRuns p.inst || !p.taken.isEmpty) then s
    else
      let bl := s.blockers p
      if !bl.all (fun q => p.before q.2 && (q.2.st == .stopping || s.canStop q.2)) then s
      else match s.loadCtx p.ctx with
        | none => s
        | some s =>
          if bl.isEmpty then s.startStep k p
          else bl.foldl (fun s q => s.askStop q.1) s

/-- R379: the scheduler's evaluation, in its order. -/
def State.schedule (s : State) : State := s.waitingSteps.foldl (fun s p => s.tryGrant p.1) s

/-- After a command's effect: memory events are reported, completion entries that are due, then the scheduler, then entries again. -/
def State.settle (s : State) : State := (s.reportMem.pump.schedule).pump

end Sys2Proof.Machine
end

