-- ==== Sys2Proof/Machine/ImageCheck.lean ====
section
/-! DEFINITION. The checks of a galley image at SEAL_PROGRAM (04_galleys.md R138, R139, R141, R143,
09_serving.md R322). -/

namespace Sys2Proof.Machine

def zeros (l : List Byte) (off n : Nat) : Bool := ((l.drop off).take n).all (fun b => b == 0)

/-- A range check of a header field. -/
def within (lo hi x : Nat) : Bool := decide (lo ≤ x) && decide (x ≤ hi)

/-- The sections of an image: offset and length. -/
def ImageInfo.sections (im : ImageInfo) : List (Nat × Nat) :=
  [(im.compOff, im.compLen), (im.codeOff, 8192 * im.segs), (im.planOff, 32 * im.slivers), (im.slugOff, 32 * im.slugCount),
   (im.paramOff, 256 * im.paramCount), (im.patchOff, im.patchLen), (im.costOff, im.costLen)]

/-- No two of the ranges overlap. -/
def disjoint : List (Nat × Nat) → Bool
  | [] => true
  | a :: l => l.all (fun b => a.2 == 0 || b.2 == 0 || !overlaps a.1 a.2 b.1 b.2) && disjoint l

/-- The header of an image (Table 04-4). -/
def headerOk (l : List Byte) (im : ImageInfo) : Bool :=
  field l 0 4 == 0x4D494C47 && field l 4 2 == 0x0100 && decide (field l 6 2 < 8) && zeros l 0x3E 2 && zeros l 0x5C 164
  && within 256 (2 ^ 20) im.imageBytes && im.imageBytes % 256 == 0
  && within 1 64 im.shares && within 1 16 im.segs && within 4 32768 im.compLen && im.compLen % 4 == 0
  && within 1 2048 im.slugCount && decide (im.paramCount ≤ 480)
  && decide (im.patchLen ≤ 512) && im.patchLen % 8 == 0 && im.patchOff % 8 == 0
  && im.codeOff % 256 == 0 && im.planOff % 256 == 0 && im.slugOff % 256 == 0 && im.paramOff % 256 == 0
  && decide (im.ptrMask.toNat < 2 ^ (im.patchLen / 8))
  && (im.seedWord == 0xFF || (decide (im.seedWord < im.patchLen / 8) && !bit im.ptrMask.toNat im.seedWord))
  && decide (im.compEntry < im.compLen) && im.compEntry % 4 == 0
  && (!im.draft || (decide (im.draftEntry < im.compLen) && im.draftEntry % 4 == 0))
  && im.sections.all (fun s => s.2 == 0 || decide (s.1 + s.2 ≤ im.imageBytes))
  && disjoint ((0, 256) :: im.sections)

/-- R141: sliver-plan entry. -/
def planOk (im : ImageInfo) (e : List Byte) : Bool :=
  let p := planOf e
  decide (p.entryPc < 0x2000) && p.entryPc % 4 == 0 && decide (p.seg < im.segs) && decide (field e 3 1 < 2)
  && decide (field e 4 1 < 16) && decide (field e 5 1 < 16) && (p.param == 0xFFFF || decide (p.param < im.paramCount))
  && (p.ssLen == 0 || decide (p.ssBase + p.ssLen ≤ 256))
  && (p.gsLen == 0 || (decide (0x51 ≤ p.gsBase) && decide (p.gsBase + p.gsLen ≤ 0x400))) && zeros e 0x10 16

/-- R143: slug-table entry. -/
def slugOk (e : List Byte) : Bool :=
  let x := slugOf e
  zeros e 9 1 && zeros e 14 2 && decide (x.size ≤ 8192) && decide (x.gsLen ≤ 128)
  && (x.gsLen == 0 || (decide (0x51 ≤ x.gsBase) && decide (x.gsBase + x.gsLen ≤ 0x400)))
  && x.ranges.all (fun r => decide (r.1 + r.2 ≤ 384))

/-- R322: the cost model. -/
def costOk (c : List Byte) : Bool :=
  let n := field c 0 1
  within 1 32 n && c.length == 16 + 16 * n && zeros c 1 3 && zeros c 8 8 && decide (field c 4 4 < 2 ^ n)

/-- Whether SEAL_PROGRAM accepts an image. -/
def imageOk (l : List Byte) : Bool :=
  let im := imageOf l
  let part (off n : Nat) := (l.drop off).take n
  headerOk l im && l.length == im.imageBytes
  && (List.range im.slivers).all (fun i => planOk im (part (im.planOff + 32 * i) 32))
  && (List.range im.slugCount).all (fun i => slugOk (part (im.slugOff + 32 * i) 32))
  && (im.costLen == 0 || costOk (part im.costOff im.costLen))

end Sys2Proof.Machine
end

