-- ==== Sys2Proof/Machine/Lookups.lean ====
section
/-! DEFINITION. The meanings of the platens' lookup commands (06_platens.md): list check, arrival,
admission, windows, sheet reads, bags, lists, budgets, codebooks, the admission sketch. -/

namespace Sys2Proof.Machine

/-! ## The port -/

def State.send (s : State) (g f : Nat) (m : LkMsg) : State :=
  { s with fabric := tput s.fabric (streamKey g f) (((tget s.fabric (streamKey g f)).getD []) ++ [m]) }

/-- R210: keep the route of a table, the least recently used of its set's four giving way. -/
def State.routeFill (s : State) (g t : Nat) : State :=
  match tget s.tables t with
  | none => s
  | some d =>
    if 64 ≤ g then s
    else
      let set := t % 256
      let r : Route := ⟨t, d.home, d.mirrorStack,
        match d.dyn.mirrorState with | .inSync => 0 | .stale => 1 | .resync => 2⟩
      let put (l : Tab (List Route)) := tput l set ((r :: (((tget l set).getD []).filter (fun q => q.table != t))).take 4)
      s.modGalley g (fun y => { y with routes := put y.routes })

/-- Who asks: context and instance of a source. -/
def State.requester (s : State) (src : LkSrc) : Nat × Nat :=
  match src with
  | .sliver g _ _ _ =>
    match (s.galley g).cur with
    | some l => (l.ctx, l.inst)
    | none => (0, 0)
  | .gather id => (0, ((tget s.gathers id).map (·.inst)).getD 0)

/-- Send a checked list: bags ascending, entries in list order, then one end mark to each platen used
(R210). -/
def State.sendList (s : State) (src : LkSrc) (l : List Byte) : State :=
  let h := listHdr l
  let g := lkStream src
  let who := s.requester src
  let go := (List.range h.bags).flatMap (fun b =>
    let r := bagRaw l b
    let es := bagEntries l h b
    (List.range es.length).map (fun j =>
      let e := (es[j]?).getD 0
      let x := entryRaw l h.bags e
      let rt := s.routeTo g x.2.1
      (rt.1, ({ src := src, idx := e, rowNo := j,
                bd := ⟨b, r.2.2.1, r.2.2.2, r.2.1, r.1, es.length⟩,
                key := x.1, table := x.2.1, weight := x.2.2.1, ctx := who.1, inst := who.2,
                noInsert := bit h.lflags 0, noAdmit := bit h.lflags 1, mirror := rt.2, resent := false,
                stage := .settled, cached := true, got := [] } : LkEntry))))
  let s := go.foldl (fun s m => (s.routeFill g m.2.table).send g m.1 (.entry m.2)) s
  let used := (List.range 8).filter (fun f => go.any (fun m => m.1 == f))
  let s := used.foldl (fun s f => s.send g f (.endMark src (go.filter (fun m => m.1 == f)).length)) s
  s.modTicket src (fun k => { k with checked := true, entries := h.entries, bags := h.bags, waiting := used })

/-- LIST_CHECK (R209): the port has read the list of a ticket. -/
def execListCheck (src : LkSrc) (s : State) : Res :=
  match s.srcTicket src with
  | none => .next s
  | some tk =>
    if tk.checked then .next s
    else if listOk tk.list then .next (s.sendList src tk.list)
    else .next ((s.modTicket src (fun k => { k with checked := true })).writeHeader src 1)

/-- Take the head of a stream. -/
def State.popStream (s : State) (g f : Nat) : State :=
  { s with fabric := tput s.fabric (streamKey g f) (((tget s.fabric (streamKey g f)).getD []).drop 1) }

def State.headMsg (s : State) (g f : Nat) : Option LkMsg := ((tget s.fabric (streamKey g f)).getD []).head?

/-- LOOKUP_ENTRY (R218): the next entry of a galley's stream arrives at a platen. -/
def execLookupEntry (g f : Nat) (s : State) : Res :=
  match s.headMsg g f with
  | some (.entry e) =>
    if !s.formeUp f then .next s
    else
      match s.acceptCode f e with
      | some c => .next ((s.popStream g f).settleEntry f e c none)
      | none =>
        if 32768 ≤ (s.platen f).intake.length then .next s
        else .next ((s.popStream g f).modPlaten f (fun p => { p with intake := p.intake ++ [e] }))
  | _ => .next s

/-- END_MARK (R210): a list's end mark arrives. -/
def execEndMark (g f : Nat) (s : State) : Res :=
  match s.headMsg g f with
  | some (.endMark src n) =>
    .next ((s.popStream g f).modPlaten f (fun p =>
      if p.ends.any (fun x => x.src == src) then
        { p with ends := p.ends.map (fun x => if x.src = src then { x with count := x.count + n, marked := true } else x) }
      else { p with ends := p.ends ++ [⟨src, n, 0, true⟩] }))
  | _ => .next s

/-- Request a codebook load unless one is pending or no room can be made (R228). -/
def State.requestCodebook (s : State) (f t : Nat) (d : TableDesc) : State :=
  let p := s.platen f
  if p.codebooks.any (fun c => c.table == t && c.generation == d.dyn.generation) then s
  else
    let needed (u : Nat) := p.collect.any (fun e => e.table == u)
      || p.windows.any (fun w => w.entries.any (fun e => e.table == u && e.stage != .settled))
    match makeRoom needed 32 (codebookSlots d.elems) p.codebooks with
    | none => s
    | some cs => s.setPlaten f { p with codebooks := cs ++ [⟨t, d.dyn.generation, codebookSlots d.elems, [], false, s.now⟩] }

/-- ENTRY_ADMIT (R218, R220, R221): the first waiting entry of a stream enters the collecting window. -/
def execEntryAdmit (g f : Nat) (s : State) : Res :=
  let p := s.platen f
  match p.intake.find? (fun e => lkStream e.src == g) with
  | none => .next s
  | some e =>
    match tget s.tables e.table with
    | none => .next ((s.setPlaten f { p with intake := eraseFirst (fun x => x == e) p.intake }).settleEntry f e 8 none)
    | some d =>
      if !s.formeUp f || p.paced || !s.hasTokens f e.inst || decide (4096 ≤ p.collect.length) then .next s
      else
        let opened := match s.findBag f e.src e.bd.bag with
          | some b => b.held
          | none => 0
        let want := if e.bd.op = 4 then 0 else e.bd.elems
        if opened = 0 && decide (65536 < p.accUsed + want) then .next s
        else if 14 ≤ d.rowFormat ∧ (s.codebook f e.table d).isNone then .next (s.requestCodebook f e.table d)
        else
          let s := s.setPlaten f { p with intake := eraseFirst (fun x => x == e) p.intake, admitTick := s.now,
                                          collectTick := if p.collect.isEmpty then s.now else p.collectTick,
                                          accUsed := p.accUsed + (if opened = 0 then want else 0) }
          let s := s.modBag f e (fun b => if b.held = 0 then
            { b with held := want, acc := List.replicate want PoolAcc.zero, shape := d.elems != e.bd.elems } else b)
          match firstStage d e with
          | none => .next (s.settleEntry f e 0xA none)
          | some st => .next (s.modPlaten f (fun p => { p with
              collect := p.collect ++ [{ e with stage := st }],
              codebooks := p.codebooks.map (fun c => if c.table = e.table then { c with used := s.now } else c) }))

/-- R216: one refill of a bucket at tick `now`. -/
def Bucket.refill (b : Bucket) (now : Nat) : Bucket :=
  match b.newRate with
  | some (r, d, t) =>
    if t < now then
      if r = 0xFFFFFFFF then { b with limited := false, newRate := none, rate := r, depth := d }
      else if b.limited then
        { b with rate := r, depth := d, newRate := none, count := min (b.count + r) d }
      else { rate := r, depth := d, newRate := none, limited := true, count := d }
    else if b.limited then { b with count := min (b.count + b.rate) b.depth } else b
  | none => if b.limited then { b with count := min (b.count + b.rate) b.depth } else b

/-- TOKEN_REFILL (R216): the 100 µs boundary at every platen. -/
def execTokenRefill (s : State) : Res :=
  if s.due .tokens then
    .next ((s.mapPlatens (fun p => { p with buckets := tmap p.buckets (fun _ b => b.refill s.now) })).ran .tokens)
  else .next s

/-- Kept NCLK pulses of a forme in a span of ticks (R46: k of every 16). -/
def keptNclk (k ticks : Nat) : Nat := ticks * 12 * k / 16

/-- WINDOW_CLOSE (R221). -/
def execWindowClose (f : Nat) (s : State) : Res :=
  let p := s.platen f
  let k := (s.forme f).k
  let closes := decide (4096 ≤ p.collect.length) || decide (2400 ≤ keptNclk k (s.now - p.collectTick))
    || decide (120 ≤ keptNclk k (s.now - p.admitTick))
  if p.collect.isEmpty || decide (4 ≤ p.windows.length) || !closes then .next s
  else .next (s.setPlaten f { p with windows := p.windows ++ [⟨p.nextWindow, p.collect⟩], collect := [],
                                     nextWindow := p.nextWindow + 1 })

/-- The entries of a window after a sheet's bytes, one after another. -/
def State.feed (s : State) (f sheet : Nat) (data : Option (List Byte)) (hit : Bool) :
    List LkEntry → List LkEntry × State
  | [] => ([], s)
  | e :: l =>
    let r := if s.waitsFor sheet e then
        match tget s.tables e.table with
        | some d => s.onSheet f d e sheet data hit
        | none => (e, s)
      else (e, s)
    let q := r.2.feed f sheet data hit l
    (r.1 :: q.1, q.2)

/-- The context that an entry's tag carries: none for a remote gather (R395, R456). -/
def LkEntry.tagCtx (e : LkEntry) : Option Nat :=
  match e.src with
  | .sliver _ _ _ _ => some e.ctx
  | .gather _ => none

/-- SHEET_READ_DONE (R222, R231 to R233, R201): a distinct sheet that a window in flight needs returns, and
its entries resolve, decode and pool. -/
def execSheetReadDone (f w sheet : Nat) (s : State) : Res :=
  match (s.platen f).windows.find? (fun x => x.id == w) with
  | none => .next s
  | some win =>
    match win.entries.find? (fun e => s.waitsFor sheet e) with
    | none => .next s
    | some e0 =>
      match tget s.tables e0.table with
      | none => .next s
      | some d =>
        if !s.formeUp f then .next s
        else
          let keep := win.entries.any (fun e => s.waitsFor sheet e && !e.noAdmit)
          let s0 := s
          let (hit, s) := s.windowRead f sheet e0.tagCtx d.owner keep
          let s := match e0.src with
            | .sliver g _ _ _ => s.tagCmd s0 g
            | .gather _ => s
          let (data, s) := if hit || !s.poisoned (256 * sheet) 256 then (some (mread s.mem (256 * sheet) 256), s)
            else s.readSheet d e0.mirror (256 * sheet % 2 ^ 36 + d.home * 2 ^ 36)
          let (es, s) := s.feed f sheet data hit win.entries
          .next (s.modPlaten f (fun p => { p with
            windows := p.windows.map (fun x => if x.id = w then { x with entries := es } else x) }))

/-- WINDOW_COMPLETE (R221): every entry has settled; the window's place is free, and slots in quarantine no
longer wait for it (R191). -/
def execWindowComplete (f w : Nat) (s : State) : Res :=
  let p := s.platen f
  match p.windows.find? (fun x => x.id == w) with
  | none => .next s
  | some win =>
    if win.entries.all (fun e => e.stage == .settled) then
      let s := s.setPlaten f { p with windows := p.windows.filter (fun x => x.id != w) }
      .next (s.mapPlatens (fun p => { p with
        quarantine := p.quarantine.map (fun q => { q with windows := q.windows.filter (fun x => x != (f, w)) }) }))
    else .next s

/-- R82 to R84, R213: the value bytes and status word of a complete bag. -/
def BagSt.result (b : BagSt) : List Byte × Nat × BitVec 4 :=
  let fo := resFmt b.bd.rfmt
  let vals := if b.shape then List.replicate b.bd.elems (0, (0 : PoolFlags))
    else if b.acc.isEmpty then List.replicate b.bd.elems (0, (0 : PoolFlags))
    else b.acc.map (fun a => a.settle (poolOpOf b.bd.op) b.n fo.1 fo.2)
  let fl : BitVec 4 := if b.bd.op = 4 then (if b.rowSat then 8 else 0) else (vals.map (·.2)).foldl (· ||| ·) 0
  (elemBytes b.bd.rfmt (vals.map (·.1)),
   b.n + b.lost * 2 ^ 16 + fl.toNat * 2 ^ 32 + b2n b.shape * 2 ^ 36, fl)

/-- Write a bag's result: value first, then its status word (R214). -/
def State.writeBag (s : State) (b : BagSt) : State :=
  let r := b.result
  let ents := ((s.srcTicket b.src).map (·.entries)).getD 0
  let s := if b.bd.op = 4 then s else s.resWrite b.src b.bd.resOff r.1
  let s := s.resWrite b.src (statusOff ents + 8 * b.bd.bag) (toLE 8 r.2.1)
  s.modTicket b.src (fun k => { k with bagsDone := k.bagsDone + 1, flags := k.flags ||| r.2.2,
                                       anyShape := k.anyShape || b.shape })

/-- BAG_SETTLE (R229, R82): the bag's end mark has arrived and every entry of it has settled. -/
def execBagSettle (f : Nat) (src : LkSrc) (bag : Nat) (s : State) : Res :=
  match s.findBag f src bag with
  | none => .next s
  | some b =>
    let marked := (s.platen f).ends.any (fun x => x.src == src && x.marked)
    if marked && b.n + b.lost == b.bd.expected then
      let s := s.writeBag b
      let s := s.modPlaten f (fun p => { p with
        bags := p.bags.filter (fun x => !bagAt src bag x), accUsed := p.accUsed - b.held })
      let p := s.platen f
      let fin := !p.bags.any (fun x => x.src == src)
        && p.ends.any (fun x => x.src == src && x.marked && decide (x.count ≤ x.settled))
      if fin then
        .next ((s.setPlaten f { p with ends := p.ends.filter (fun x => x.src != src) }).modTicket src
          (fun k => { k with waiting := k.waiting.filter (fun x => x != f) }))
      else .next s
    else .next s

/-- A bag with no entries: N 0, value +0 (R84). -/
def emptyBags (src : LkSrc) (l : List Byte) : List BagSt :=
  let h := listHdr l
  ((List.range h.bags).filter (fun b => (bagEntries l h b).isEmpty)).map (fun b =>
    let r := bagRaw l b
    BagSt.new src 0 ⟨b, r.2.2.1, r.2.2.2, r.2.1, r.1, 0⟩)

/-- LIST_COMPLETE (R214): every platen has finished; the header is written last and the ticket completes. -/
def execListComplete (src : LkSrc) (s : State) : Res :=
  match s.srcTicket src with
  | none => .next s
  | some tk =>
    if tk.checked && !tk.done && tk.waiting.isEmpty then
      .next (((emptyBags src tk.list).foldl (fun s b => s.writeBag b) s).writeHeader src 0)
    else .next s

/-- Answer one entry with the unit-reset response: resent once to the other copy when that one serves,
otherwise LOOKUP_RESET (R211). -/
def State.unitReset (s : State) (f : Nat) (e : LkEntry) : State :=
  let other : Option Nat := match tget s.tables e.table with
    | some d => if d.state == .live && d.flags.mirrored && !e.resent && s.copyUp d !e.mirror then
        some (d.copyStack !e.mirror) else none
    | none => none
  match other with
  | none => s.settleEntry f e 0xD none
  | some f2 =>
    let moved := ((s.platen f).bags.filter (bagAt e.src e.bd.bag)).map (fun (b : BagSt) => { b with held := 0, acc := [] })
    let s := s.modPlaten f (fun p => { p with bags := p.bags.filter (fun b => !bagAt e.src e.bd.bag b) })
    let s := s.modPlaten f2 (fun p => { p with bags := p.bags ++ moved })
    let s := s.endSettled f e.src
    let s := s.modPlaten f2 (fun (p : PlatenSt) =>
      if p.ends.any (fun x => x.src == e.src) then
        { p with ends := p.ends.map (fun x => if x.src = e.src then { x with count := x.count + 1, marked := true } else x) }
      else { p with ends := p.ends ++ [⟨e.src, 1, 0, true⟩] })
    let s := s.modTicket e.src (fun k => { k with
      waiting := if k.waiting.contains f2 then k.waiting else k.waiting ++ [f2] })
    s.send (lkStream e.src) f2 (.entry { e with mirror := !e.mirror, resent := true, stage := .settled, cached := true, got := [] })

/-- UNIT_RESET_RESPONSE (R211, R237): an entry aimed at, or discarded in, a platen in reset is answered at
its galley's port. -/
def execUnitResetResponse (g f : Nat) (s : State) : Res :=
  match s.headMsg g f with
  | some (.entry e) =>
    if s.formeUp f then .next s else .next ((s.popStream g f).unitReset f e)
  | _ =>
    match s.answers.find? (fun x => x.1 == f && lkStream x.2.src == g) with
    | some (_, e) => .next (State.unitReset { s with answers := eraseFirst (fun x => x == (f, e)) s.answers } f e)
    | none => .next s

/-- CODEBOOK_LOAD_DONE (R228): the codebook read by a platen is resident, or its waiting entries complete
POISONED. -/
def execCodebookLoadDone (f t : Nat) (s : State) : Res :=
  let p := s.platen f
  match tget s.tables t, p.codebooks.find? (fun c => c.table == t && !c.resident) with
  | some d, some c =>
    if !s.formeUp f then .next s
    else
      let m := d.flags.mirrored && f == d.mirrorStack
      let a := d.copyAddr m d.codebookBase
      let s := s.charge f d.owner (2 * d.elems)
      let src := if !s.poisoned a d.codebookLen then some a
        else
          let b := d.copyAddr (!m) d.codebookBase
          if d.flags.mirrored && d.dyn.mirrorState == .inSync && s.copyUp d (!m) && !s.poisoned b d.codebookLen
          then some b else none
      match src with
      | some a =>
        .next (s.modPlaten f (fun p => { p with codebooks := p.codebooks.map (fun x =>
          if x = c then { x with data := mread s.mem a d.codebookLen, resident := true, used := s.now } else x) }))
      | none =>
        let gone := p.intake.filter (fun e => e.table == t)
        let s := s.modPlaten f (fun p => { p with codebooks := p.codebooks.filter (fun x => x != c),
                                                  intake := p.intake.filter (fun e => e.table != t) })
        .next (gone.foldl (fun s e => s.settleEntry f e 0xB none) s)
  | _, _ => .next s

/-- SKETCH_HALVING (R233): the 1 ms boundary halves every counter. -/
def execSketchHalving (s : State) : Res :=
  if s.due .sketch then
    .next ((s.mapPlatens (fun p => { p with
      sketch := tkeep (tmap p.sketch (fun _ n => n / 2)) (fun _ n => n != 0) })).ran .sketch)
  else .next s

end Sys2Proof.Machine
end

