-- ==== Sys2Proof/Machine/Boot.lean ====
section
/-! DEFINITION. What a cold start reads and builds before the main firmware serves: the persistent store's log, the
firmware area, the keys, the protection set-up, the dictionary's stored values (17_boundary.md R605, R610, R618, R619;
15_security.md R515, R519, R523, R530, R539, R546 to R549; 16_dictionary.md R570). -/

namespace Sys2Proof.Machine

def okey (index sub : Nat) : Nat := index * 256 + sub

/-! ## The persistent store (R618, R619) -/

def areaBase (area : Nat) : Nat := 0x01000000 + area * 0x00100000
def areaSize : Nat := 0x00100000

/-- An area's header (R618). -/
def areaHeader (seq : Nat) : List Byte :=
  let l := toLE 4 0x50415245 ++ toLE 4 seq ++ List.replicate 52 0xFF
  l ++ toLE 4 (crc32 l)

/-- AREA_SEQ of an area whose header is valid. -/
def State.areaSeq? (s : State) (area : Nat) : Option Nat :=
  let l := s.flashRead (areaBase area) 64
  if field l 0 4 = 0x50415245 ∧ field l 0x3C 4 = crc32 (l.take 60) then some (field l 4 4) else none

/-- A record (Table 17-20). -/
def storeRecord (key seq : Nat) (v : List Byte) : List Byte :=
  let head := toLE 2 0x5053 ++ toLE 2 (key / 256) ++ toLE 1 (key % 256) ++ [0] ++ toLE 2 v.length ++ toLE 4 seq
  head ++ toLE 4 (crc32 (head ++ v)) ++ v

def recordSize (n : Nat) : Nat := 16 + roundUp n 16

/-- The records of an area's log in order, from a position: the latest valid one of each object, the position and SEQ
after the last, and whether a record ended the log early. -/
def readLog (rd : Nat → Nat → List Byte) : Nat → Nat → Nat → Tab (Nat × List Byte) → Tab (Nat × List Byte) × Nat × Nat × Bool
  | 0, pos, seq, t => (t, pos, seq, false)
  | fuel + 1, pos, seq, t =>
    let h := rd pos 16
    if areaSize < pos + 16 ∨ field h 0 2 = 0xFFFF then (t, pos, seq, false)
    else
      let n := field h 6 2
      let next := pos + recordSize n
      let v := rd (pos + 16) n
      let key := field h 2 2 * 256 + field h 4 1
      let no := field h 8 4
      if field h 0 2 = 0x5053 ∧ next ≤ areaSize ∧ field h 12 4 = crc32 (h.take 12 ++ v) then
        let t := match tget t key with
          | some (old, _) => if old < no then tput t key (no, v) else t
          | none => tput t key (no, v)
        readLog rd fuel next (max seq (no + 1)) t
      else if next ≤ areaSize then readLog rd fuel next seq t
      else (t, pos, seq, true)

/-- R619: the stored value of every object; a store with no valid area starts empty in area A. -/
def State.loadStore (s : State) : Tab (List Byte) × State :=
  let pick := match s.areaSeq? 0, s.areaSeq? 1 with
    | some a, some b => if a < b then some (1, b) else some (0, a)
    | some a, none => some (0, a)
    | none, some b => some (1, b)
    | none, none => none
  match pick with
  | none =>
    let s := (s.flashErase (areaBase 0) areaSize).flashWrite (areaBase 0) (areaHeader 0)
    ([], { s with bnd := { s.bnd with store := ⟨0, 0, 64, 0, false, false⟩ } })
  | some (area, seq) =>
    let r := readLog (fun pos n => s.flashRead (areaBase area + pos) n) 65536 64 0 []
    (r.1.map (fun p => (p.1, p.2.2)),
     { s with bnd := { s.bnd with store :=
        ⟨area, seq, r.2.1, r.2.2.1, r.2.2.2 || decide (areaSize - r.2.1 < 65536), false⟩ } })

/-- R570, R619: a value is committed to the store; none when the store cannot. -/
def State.storePut (s : State) (key : Nat) (v : List Byte) : Option State :=
  let x := s.bnd.store
  let next := x.next + recordSize v.length
  if x.fault || v.isEmpty || decide (4064 < v.length) || decide (areaSize < next) then none
  else
    let s := s.flashWrite (areaBase x.area + x.next) (storeRecord key x.seq v)
    some { s with bnd := { s.bnd with store := { x with
      next := next, seq := x.seq + 1, compacting := x.compacting || decide (areaSize - next < 65536) } } }

/-- A stored object is deleted: one byte 0 stands for no value. -/
def State.storeDrop (s : State) (key : Nat) : State :=
  let s := { s with mgmt := { s.mgmt with objs := tdel s.mgmt.objs key } }
  (s.storePut key [0]).getD s

/-! ## The firmware area (15_security.md R547 to R549) -/

def bootselAddr (copy : Nat) : Nat := copy * 0x10000
/-- FS1 slots, then main slots. -/
def fwAddr (kind slot : Nat) : Nat := if kind = 1 then 0x40000 + slot * 0x40000 else 0x100000 + slot * 0x700000
def fwSlotSize (kind : Nat) : Nat := if kind = 1 then 0x40000 else 0x700000

def bootselBytes (b : Bootsel) : List Byte :=
  let l := toLE 4 b.seq ++ toLE 1 b.fs1 ++ toLE 1 b.trial ++ toLE 1 b.main ++ toLE 9 0
  l ++ toLE 4 (crc32 l)

def State.bootselCopy (s : State) (copy : Nat) : Option Bootsel :=
  let l := s.flashRead (bootselAddr copy) 20
  if field l 16 4 = crc32 (l.take 16) then some ⟨copy, field l 0 4, field l 4 1, field l 5 1, field l 6 1⟩ else none

/-- The copy with a valid CRC and the higher SEQ governs. -/
def State.readBootsel (s : State) : Bootsel :=
  match s.bootselCopy 0, s.bootselCopy 1 with
  | some a, some b => if a.seq < b.seq then b else a
  | some a, none => a
  | none, some b => b
  | none, none => Bootsel.zero

/-- A write always goes to the other copy, with SEQ + 1. -/
def State.writeBootsel (s : State) (f : Bootsel → Bootsel) : State :=
  let b := s.sec.fw.sel
  let b := { f b with copy := 1 - b.copy, seq := (b.seq + 1) % 2 ^ 32 }
  let s := (s.flashErase (bootselAddr b.copy) 4096).flashWrite (bootselAddr b.copy) (bootselBytes b)
  { s with sec := { s.sec with fw := { s.sec.fw with sel := b } } }

def State.fwHeader (s : State) (kind slot : Nat) : List Byte := s.flashRead (fwAddr kind slot) 512
def State.fwPayload (s : State) (kind slot : Nat) : List Byte :=
  s.flashRead (fwAddr kind slot + 512) (field (s.fwHeader kind slot) 0x10 4)

/-- The firmware decryption key of slot 2 (Table 15-5). -/
def flashKey : Nat := kdf (toBE 32 Config.firmwareKey) "OTM-FLASH" [] 256

def State.fwPlain (s : State) (kind slot : Nat) : Option (List Byte) :=
  let h := s.fwHeader kind slot
  gcmDecrypt flashKey (beField h 0x14 12) [] (s.fwPayload kind slot) ((h.drop 0x50).take 16)

/-- R548: an image is valid. -/
def State.fwValid (s : State) (kind slot : Nat) : Bool :=
  let h := s.fwHeader kind slot
  let n := field h 0x10 4
  let zero (off k : Nat) : Bool := field h off k == 0
  let pub := beField h 0x80 96
  field h 0 4 == 0x46574D4F && field h 4 1 == kind && n % 256 == 0 && decide (0 < n)
  && decide (n ≤ if kind = 1 then 261632 else 0x400000)
  && zero 6 2 && zero 9 3 && zero 0x60 32 && zero 0xE0 32 && zero 0x160 160 && decide (field h 5 1 < 4)
  && sha384 (toBE 96 pub) == Config.signerDigest (field h 5 1) && !s.sec.revoked.contains (field h 5 1)
  && ecdsaVerify pub (sha384 (h.take 256)) (beField h 0x100 96)
  && decide (s.sec.arb ≤ field h 8 1)
  && (match s.fwPlain kind slot with
      | some pt => toBE 48 (sha384 pt) == (h.drop 0x20).take 48
      | none => false)

/-- The image in a slot as it runs. -/
def State.fwImage (s : State) (kind slot : Nat) : FwImg :=
  let h := s.fwHeader kind slot
  let pt := (s.fwPlain kind slot).getD []
  { slot := slot, version := field h 0xC 4, svn := field h 8 1, digest := sha384 pt,
    meas := sha384 (pt ++ toLE 1 (field h 8 1)) }

/-- R549: the boot ROM takes the active slot, or the other one when only that holds a valid image. -/
def State.bootSlot (s : State) (kind active : Nat) : Nat :=
  if !s.fwValid kind active && s.fwValid kind (1 - active) then 1 - active else active

/-- The images of a cold start. -/
def State.bootImages (s : State) : State :=
  let s := { s with sec := { s.sec with fw := { FwSt.zero with sel := s.readBootsel } } }
  let b := s.sec.fw.sel
  let f := s.bootSlot 1 b.fs1
  let s := if f = b.fs1 then s else s.writeBootsel (fun b => { b with fs1 := f })
  let m := s.bootSlot 2 b.main
  let s := if m = b.main then s else s.writeBootsel (fun b => { b with main := m })
  { s with sec := { s.sec with fw := { s.sec.fw with fs1 := s.fwImage 1 f, main := s.fwImage 2 m } } }

/-! ## Keys (R519, R523, R530, R539) -/

/-- R519: the root of a valid key zone, or a new one. -/
def State.coldRoot (s : State) : State :=
  match s.sec.zone with
  | some _ => { s with sec := { s.sec with keyless := false } }
  | none =>
    let r := s.draw 256
    { r.2 with sec := { r.2.sec with zone := some r.1, keyless := false } }

/-- A slot that is derived, unless its number is retired. -/
def State.deriveSlot (s : State) (n attr typ origin key : Nat) : State :=
  if s.sec.retiredSlots.contains n then s else s.fillSlot n attr typ origin none key none

/-- Slots 0 to 2 under the root in force. -/
def State.coldSlots (s : State) : State :=
  let root := if bit s.sec.prot.debugCtrl 31 then testRoot else s.sec.zone.getD 0
  let s := { s with sec := { s.sec with root := root, slots := [] } }
  let s := s.deriveSlot 0 4 2 1 (dikOf root)
  let s := s.deriveSlot 1 5 1 1 (sealKeyOf root s.fm.boot s.sec.warm)
  s.deriveSlot 2 6 1 6 flashKey

/-- R530: slot 1 is derived again with the new WARM. -/
def State.warmSlot (s : State) : State :=
  if s.sec.keyless then s else s.deriveSlot 1 5 1 1 (sealKeyOf s.sec.root s.fm.boot s.sec.warm)

/-! ## The dictionary's stored values -/

/-- The value of an RW object that has no home of its own; its default otherwise. -/
def State.objOr (s : State) (key : Nat) (dflt : List Byte) : List Byte := (tget s.mgmt.objs key).getD dflt
def State.objNat (s : State) (key dflt : Nat) : Nat :=
  match tget s.mgmt.objs key with
  | some v => leNat v
  | none => dflt

/-- A value goes to the state that holds the object: port, pulse and ladder settings, operator keys, or the table of
values. -/
def State.place (s : State) (key : Nat) (v : List Byte) : State :=
  let i := key / 256
  let sub := key % 256
  let x := leNat v
  let port (f : PortSt → PortSt) : State :=
    { s with net := { s.net with ports := vset s.net.ports (i - 0x1110) (f (vget s.net.ports (i - 0x1110) PortSt.reset)) } }
  let opKey (f : OpKey → OpKey) : State :=
    { s with mgmt := { s.mgmt with opKeys := tput s.mgmt.opKeys (i - 0x5010) (f ((tget s.mgmt.opKeys (i - 0x5010)).getD ⟨0, 0⟩)) } }
  if 0x1100 ≤ i ∧ i < 0x1104 then { s with net := { s.net with modeSet := tput s.net.modeSet (i - 0x1100) x } }
  else if 0x1110 ≤ i ∧ i < 0x1118 then
    match sub with
    | 1 => port (fun y => { y with mac := beNat v })
    | 2 => port (fun y => { y with ip := beNat v })
    | 3 => port (fun y => { y with quirePort := x })
    | 4 => port (fun y => { y with maxFrame := x })
    | 5 => port (fun y => { y with pfcEnable := x })
    | 6 => port (fun y => { y with xoff := x })
    | 7 => port (fun y => { y with xon := x })
    | 8 => port (fun y => { y with headroom := x })
    | k => port (fun y => { y with weights := y.weights.set (k - 0x10) x })
  else if i = 0x4000 then
    match sub with
    | 1 => { s with fm := { s.fm with patrolHours := x } }
    | 2 => { s with fm := { s.fm with retireLimit := x } }
    | _ => { s with fm := { s.fm with iftOn := x != 0 } }
  else if 0x5010 ≤ i ∧ i < 0x5018 then
    if sub = 1 then opKey (fun y => { y with pub := beNat v }) else opKey (fun y => { y with role := x })
  else { s with mgmt := { s.mgmt with objs := tput s.mgmt.objs key v } }

/-- A value that stands for a deleted object is none. -/
def storedValue (key : Nat) (v : List Byte) : Bool := !(key == okey 0x5001 4 && v == [0])

/-- R570: at cold start every object takes its stored value. -/
def State.loadObjects (s : State) : State :=
  let r := s.loadStore
  (r.1.filter (fun p => storedValue p.1 p.2)).foldl (fun s p => s.place p.1 p.2) r.2

/-! ## The protection set-up (R515, R539) -/

/-- FORME_LIMITk from the 256 masks. -/
def limitsOf (v : List Byte) : Tab Nat :=
  ((List.range 64).map (fun k => (k, field v (4 * k) 4))).filter (fun p => p.2 != 0xFFFFFFFF)

/-- R539: the debug token, when it is for this block and this start and an owner signed it; it is deleted when applied. -/
def State.applyToken (s : State) : State :=
  match tget s.mgmt.objs (okey 0x5001 4) with
  | none => s
  | some v =>
    match Config.debugToken v ((List.range 8).map (fun k => ((tget s.mgmt.opKeys k).map (fun e => e.pub)).getD 0)) with
    | some (serial, boot, sram, trace, k) =>
      if serial = Config.serial ∧ boot = s.fm.boot ∧ ((tget s.mgmt.opKeys k).map (fun e => e.role)) = some 3 then
        State.storeDrop { s with sec := { s.sec with prot := { s.sec.prot with
          debugCtrl := 2 ^ 31 + b2n sram * 2 + b2n trace } } } (okey 0x5001 4)
      else s
    | none => s

/-- FS1 loads the stored policy. -/
def State.loadPolicy (s : State) : State :=
  State.applyToken { s with sec := { s.sec with prot := { ProtRegs.reset with
    stage := 1, frPolicy := s.objNat (okey 0x5001 1) 0xF, keyPolicy := s.objNat (okey 0x5001 2) 0x00100003,
    limits := limitsOf (s.objOr (okey 0x5001 3) (List.replicate 256 0xFF)) } } }

/-! ## Device time (R400, R610) -/

/-- The ledger zone gives the tick at which device time resumes; without it, the largest tick on record and the longest
period do. -/
def State.coldTime (s : State) : State :=
  if s.mgmt.ledger.valid then { s with now := s.mgmt.ledger.lastFlush + 1000000 }
  else
    let ticks := s.mgmt.ledger.journal.map (fun p => p.1.end_) ++ s.fm.flashLog.map (fun r => r.tick)
    { s with now := ticks.foldl max 0 + 360100000000 }

/-! ## Voltage requests (R597, R598) -/

/-- The fused code of a forme's band, within the valid codes. -/
def bandCode (f band : Nat) : Nat := max 10 (min 70 (Config.fusedCode f band))

/-- The next request, when none is under way and the code wanted is not reached: at most two codes away. -/
def Vri.next (x : Vri) (now : Nat) : Vri :=
  if !x.valid || x.req || x.code == x.want then x
  else
    let code := if x.code < x.want then min x.want (x.code + 2) else max x.want (x.code - 2)
    { x with code := code, req := true, reqTick := now }

/-- The PM wants the voltage of a band. -/
def Vri.aim (x : Vri) (f band now : Nat) : Vri :=
  Vri.next { x with want := bandCode f band, band := band, quiet := none } now

/-- Bands of R598. -/
def dieBand (t : Int) : Nat := if t < 50 then 0 else if t < 75 then 1 else if t < 100 then 2 else 3

def State.modVri (s : State) (f : Nat) (g : Vri → Vri) : State :=
  { s with bnd := { s.bnd with vri := vset s.bnd.vri f (g (vget s.bnd.vri f Vri.boot)) } }

def State.hotOf (s : State) (f : Nat) : Int := (tget s.bnd.hot f).getD 0

/-- After fuse sense the PM requests every forme's voltage. -/
def State.vriStart (s : State) : State :=
  (List.range 8).foldl (fun s f => s.modVri f (fun x => Vri.aim { x with valid := true } f (dieBand (s.hotOf f)) s.now)) s

/-- The cold start past its check of TAMPER_N: keys, images, stored values, set-up, straps; every stack goes into full
training with its remap table rebuilt (Table 17-11). -/
def State.coldBoot (s : State) : State :=
  let s := (s.coldRoot.bootImages.loadObjects.loadPolicy).coldSlots.vriStart
  { s with
    hbm := s.hbm.map (fun (x : StackSt) => { x with state := .training, remap := x.flashList }),
    bnd := { s.bnd with power := .starting .cold s.now, startKind := 0, strap := s.bnd.strapPins } }

end Sys2Proof.Machine
end

