-- ==== Sys2Proof/Machine/TableCmd.lean ====
section
/-! DEFINITION. Table life (05_tables.md R168 to R178, R191, R195, R196, R202): the checks of a supplied
descriptor, and the platens' own table work. -/

namespace Sys2Proof.Machine

def tblFlagsOf (x : Nat) : TblFlags :=
  ⟨bit x 7, bit x 6, bit x 5, bit x 4, bit x 3, bit x 2, bit x 1, bit x 0⟩

/-- A supplied descriptor as Table 05-2 lays it out; addresses are still the context's virtual ones.  The
block computes the geometry (R175 step 2). -/
def tableOfImage (l : List Byte) : TableDesc :=
  let fmt := field l 4 1 % 16
  let d := field l 6 2 + 1
  let m := field l 8 2
  let len := rowLen fmt d m
  { owner := field l 2 1, flags := tblFlagsOf (field l 3 1), rowFormat := fmt, updSrc := field l 5 1 % 8,
    elems := d, pqM := m, rowBytes := len, pitch := slotPitch len, rps := slotRps len, spr := slotSpr len,
    rowBase := field l 0x10 8, slots := field l 0x18 4, defaultSlot := field l 0x1C 4,
    auxBase := field l 0x20 8, indexLimit := field l 0x28 4, bucketsLog2 := field l 0x2C 1,
    mirrorStack := field l 0x2D 1, freqShift := field l 0x2E 1, state := .defining,
    seed := BitVec.ofNat 64 (field l 0x30 8), freeBase := field l 0x38 8, codebookBase := field l 0x40 8,
    dyn := { clockRate := field l 0x48 4, clockHand := 0, freeCount := field l 0x50 4, fresh := field l 0x54 4,
             liveCount := field l 0x58 4, generation := 0, mirrorState := .inSync, staleStack := 0, dirty := [] } }

/-- R172, but for the two conditions on the home stack: whether a supplied descriptor for table t passes. -/
def tableImageOk (l : List Byte) (t : Nat) : Bool :=
  let d := tableOfImage l
  let fl := d.flags
  let aux := fl.dynamic || fl.mapped
  let pq := decide (14 ≤ d.rowFormat)
  let zero (off n : Nat) := field l off n == 0
  field l 0 2 == t
  && decide (field l 4 1 < 16) && decide (field l 5 1 < 8) && zero 0x61 31
  && zero 0x0A 2 && zero 0x0C 2 && zero 0x0E 1 && zero 0x0F 1 && zero 0x2F 1 && zero 0x4C 4 && zero 0x5C 4
  && zero 0x60 1 && (fl.preloaded || (zero 0x50 4 && zero 0x54 4 && zero 0x58 4))
  && rowShapeOk d.rowFormat d.elems d.pqM
  && !(fl.mapped && fl.dynamic)
  && (fl.dynamic || (d.bucketsLog2 == 0 && d.seed == 0))
  && (aux || (d.auxBase == 0 && d.freeBase == 0)) && (pq || d.codebookBase == 0)
  && d.rowBase % 65536 == 0 && (!aux || (d.auxBase % 65536 == 0 && d.freeBase % 65536 == 0))
  && (!pq || d.codebookBase % 65536 == 0)
  && decide (d.mirrorStack ≤ 7) && (fl.mirrored || d.mirrorStack == 0)
  && d.slots != 0 && d.slots != 0xFFFFFFFF
  && (fl.dynamic || !(fl.missInsert || fl.idleEvict || fl.kick))
  && (fl.dynamic || fl.mapped || decide (d.pitch ≤ 256))
  && (fl.dynamic || fl.mapped || decide (d.indexLimit ≤ d.slots))
  && d.indexLimit != 0
  && (!fl.dynamic || (decide (1 ≤ d.bucketsLog2) && decide (d.bucketsLog2 ≤ 27)
        && decide (d.indexLimit * 10 ≤ 2 ^ d.bucketsLog2 * 144)
        && decide (d.indexLimit + 4097 ≤ d.slots)
        && d.seed.toNat / 2 ^ 32 != d.seed.toNat % 2 ^ 32
        && decide (d.freqShift ≤ 8) && decide (d.dyn.clockRate ≤ 2 ^ 24)))
  && (fl.defaultZero || decide (d.defaultSlot < d.slots))
  && (!fl.preloaded || (decide (d.dyn.fresh ≤ d.slots) && decide (d.dyn.freeCount ≤ d.slots)
        && (!fl.dynamic || decide (d.dyn.liveCount ≤ d.indexLimit))))

/-- Whether two address ranges overlap any of two lists. -/
def areasMeet (xs ys : List (Nat × Nat)) : Bool := xs.any (fun x => ys.any (fun y => overlaps x.1 x.2 y.1 y.2))

/-- R173: areas on the home stack, outside the overs, overlapping no table that is not FREE. -/
def State.areasPlaced (s : State) (t : Nat) (d : TableDesc) : Bool :=
  d.areas.all (fun a => stackOf a.1 == d.home && decide (a.1 % 2 ^ 36 + a.2.1 ≤ 0xF00000000))
  && s.tables.all (fun p => p.1 == t || !areasMeet d.allAreas p.2.allAreas)

/-- R175 step 3: zero the bucket area of each copy, unless PRELOADED. -/
def State.zeroBuckets (s : State) (d : TableDesc) : State :=
  if d.flags.preloaded || !d.flags.dynamic then s
  else
    let n := 2 ^ d.bucketsLog2 * 256
    let s := State.heal { s with mem := mclear s.mem d.auxBase n } d.auxBase n
    if d.flags.mirrored then
      let a := d.copyAddr true d.auxBase
      State.heal { s with mem := mclear s.mem a n } a n
    else s

/-- A descriptor write drops the galleys' routes and the platens' cached descriptors of the table: hit
counts restart (R175, R195, 06_platens.md R210) and its codebooks go when it changes generation. -/
def State.descWritten (s : State) (t : Nat) : State :=
  let s := { s with galleys := s.galleys.map (fun (y : GalleySt) => { y with
    routes := tmap y.routes (fun _ l => l.filter (fun r => r.table != t)) }) }
  s.mapPlatens (fun p => { p with hits := tdel p.hits t, codebooks := p.codebooks.filter (fun c => c.table != t) })

/-- Table t becomes FREE: no descriptor; its queued work, slots and allocator state are gone (R177, R178,
R191).  The generation count stays with the table ID (R170). -/
def State.freeTable (s : State) (t : Nat) : State :=
  let s := { s with tables := tdel s.tables t,
                    generations := match tget s.tables t with
                      | some d => tput s.generations t d.dyn.generation
                      | none => s.generations }
  (s.mapPlatens (fun p => { p with
    inserts := p.inserts.filter (fun i => i.table != t), quarantine := p.quarantine.filter (fun q => q.table != t),
    freqQ := p.freqQ.filter (fun q => q.1 != t), alloc := tdel p.alloc t })).descWritten t

/-- R178: a reset of the owner, or a warm start for every owner: LIVE becomes ORPHANED, DEFINING and
RETIRING become FREE. -/
def State.orphanTables (s : State) (owner : Nat → Bool) : State :=
  s.tables.foldl (fun s p =>
    if owner p.2.owner then
      match p.2.state with
      | .live => (s.modTable p.1 (fun d => { d with state := .orphaned })).descWritten p.1
      | .orphaned => s
      | _ => s.freeTable p.1
    else s) s

/-- Granules of 2 MiB, counted from the start of their stack, that a table's mirrored areas touch. -/
def TableDesc.granules (d : TableDesc) (g : Nat) : Bool :=
  d.areas.any (fun a => a.2.2 && overlaps (a.1 % 2 ^ 36) a.2.1 (g * 2 ^ 21) (2 ^ 21))

/-- R202, R204: the forme of a copy enters reset; `lost` when its stack's content is declared lost.  The
surviving platen seeds its dirty map from its recent writes (R260). -/
def State.tablesFormeDown (s : State) (f : Nat) (lost : Bool) : State :=
  { s with tables := tmap s.tables (fun _ d =>
      if d.flags.mirrored && (d.home == f || d.mirrorStack == f) then
        if d.dyn.mirrorState = .inSync ∨ d.dyn.staleStack = f then
          let other := if d.home = f then d.mirrorStack else d.home
          let seed := if d.dyn.mirrorState = .inSync then ((s.stack other).recent.flatten.filter d.granules).dedup else []
          let dirty := if lost then (List.range (2 ^ 15)).filter d.granules
            else d.dyn.dirty ++ seed.filter (fun g => !d.dyn.dirty.contains g)
          { d with dyn := { d.dyn with mirrorState := .stale, staleStack := f, dirty := dirty } }
        else d
      else d) }

/-- R202: the stale forme is back in service. -/
def State.tablesFormeUp (s : State) (f : Nat) : State :=
  { s with tables := tmap s.tables (fun _ d =>
      if d.flags.mirrored && d.dyn.staleStack == f && d.dyn.mirrorState == .stale then
        { d with dyn := { d.dyn with mirrorState := if d.dyn.dirty.isEmpty then .inSync else .resync } }
      else d) }

/-- MIRROR_RESYNC_GRANULE (R202): one dirty granule is copied to the returned copy; the last one ends the
resync.  Only the sheets of the table's areas in the granule are copied. -/
def execMirrorResyncGranule (t : Nat) (s : State) : Res :=
  match tget s.tables t with
  | none => .next s
  | some d =>
    match d.dyn.mirrorState, d.dyn.dirty with
    | .resync, g :: rest =>
      let from_ := if d.dyn.staleStack = d.home then d.mirrorStack else d.home
      if !s.formeUp from_ || !s.formeUp d.dyn.staleStack then .next s
      else
        let areas := (d.areas.filter (·.2.2)).map (fun a => (a.1 % 2 ^ 36, a.2.1))
        let s := areas.foldl (fun s a =>
          let lo := max a.1 (g * 2 ^ 21)
          let hi := min (a.1 + a.2) ((g + 1) * 2 ^ 21)
          if lo < hi then
            let src := from_ * 2 ^ 36 + lo
            let dst := d.dyn.staleStack * 2 ^ 36 + lo
            let bad := (List.range ((hi - lo) / 64)).filter (fun i => s.groupBad (src / 64 + i))
            let s := State.heal { s with mem := mcopy s.mem src s.mem dst (hi - lo) } dst (hi - lo)
            { s with poison := s.poison ++ bad.map (fun i => dst / 64 + i) }
          else s) s
        let s := s.modPlaten d.dyn.staleStack (fun p => { p with
          cache := areas.foldl (fun c a => dropLines c (d.dyn.staleStack * 2 ^ 36 + a.1) a.2) p.cache })
        .next (s.modDyn t (fun y => { y with dirty := rest, mirrorState := if rest.isEmpty then .inSync else .resync }))
    | .resync, [] => .next (s.modDyn t (fun y => { y with mirrorState := .inSync }))
    | _, _ => .next s

/-- R191: push a released slot on the free-slot list; FREE_COUNT is written after every 64 pushes. -/
def State.pushFree (s : State) (t : Nat) (d : TableDesc) (k : Nat) : State :=
  let al := s.allocOf t d
  let s := s.devWrite (d.freeBase + 4 * al.top) (toLE 4 k) true
  if 63 ≤ al.pushes then
    (s.setAlloc t d { al with top := al.top + 1, pushes := 0 }).modDyn t (fun y => { y with freeCount := al.top + 1 })
  else s.setAlloc t d { al with top := al.top + 1, pushes := al.pushes + 1 }

/-- QUARANTINE_RELEASE (R191): the first slot of a platen's quarantine whose 1,000 ticks and windows have
passed is pushed. -/
def execQuarantineRelease (f : Nat) (s : State) : Res :=
  let p := s.platen f
  match p.quarantine.find? (fun q => decide (q.tick + 1000 ≤ s.now) && q.windows.isEmpty) with
  | none => .next s
  | some q =>
    if !s.formeUp f then .next s
    else
      let s := s.setPlaten f { p with quarantine := eraseFirst (fun x => x == q) p.quarantine }
      match tget s.tables q.table with
      | some d => if d.state = .live ∨ d.state = .orphaned then .next (s.pushFree q.table d q.slot) else .next s
      | none => .next s

/-- The bucket and position of an ID that is present. -/
def State.findId (s : State) (d : TableDesc) (v : Nat) : Option (Nat × Nat × BucketSheet) × State :=
  match s.readSheet d false (d.bucketAddr (hash1 d v)) with
  | (none, s) => (none, s)
  | (some l1, s) =>
    let b1 := decodeBucket l1
    match b1.find v with
    | some k => (some (hash1 d v, k, b1), s)
    | none =>
      if hash1 d v ≠ hash2 d v ∧ b1.ovf ≠ 0 then
        match s.readSheet d false (d.bucketAddr (hash2 d v)) with
        | (none, s) => (none, s)
        | (some l2, s) =>
          let b2 := decodeBucket l2
          ((b2.find v).map (fun k => (hash2 d v, k, b2)), s)
      else (none, s)

/-- FREQ_INCREMENT (R195): the oldest increment held by a home platen raises its entry's FREQ. -/
def execFreqIncrement (f : Nat) (s : State) : Res :=
  let p := s.platen f
  match p.freqQ with
  | [] => .next s
  | (t, v) :: rest =>
    if !s.formeUp f then .next s
    else
      let s := s.setPlaten f { p with freqQ := rest }
      match tget s.tables t with
      | some d =>
        match (if d.state = .live then s.findId d v else (none, s)) with
        | (some (b, k, sh), s) =>
          let e := sh.get k
          .next (s.tableWrite t d (d.bucketAddr b)
            (encodeBucket (sh.set k { e with freq := min 0xFFFF (e.freq + 2 ^ d.freqShift) })))
        | (none, s) => .next s
      | none => .next s

/-- R196: age one bucket. -/
def State.ageBucket (s : State) (t : Nat) (d : TableDesc) (b : Nat) : State :=
  match s.readSheet d false (d.bucketAddr b) with
  | (none, s) => s
  | (some l, s) =>
    let sh := decodeBucket l
    let idle := (List.range 16).filter (fun k =>
      let e := sh.get k
      d.flags.idleEvict && e.valid && !e.pin && e.freq == 0)
    let aged := { sh with entries := sh.entries.map (fun e => if e.valid then { e with freq := e.freq / 2 } else e) }
    let s := if aged = sh then s else s.tableWrite t d (d.bucketAddr b) (encodeBucket aged)
    idle.foldl (fun s k => s.evict t d b k) s

/-- CLOCK_AGEING (R196): the 100 µs boundary ages one tenth of CLOCK_RATE buckets of every table, from
CLOCK_HAND; a table whose home copy is not in service does not age (R203). -/
def execClockAgeing (s : State) : Res :=
  if s.due .clock then
    let j := s.now / 10000 % 10
    let s := s.tables.foldl (fun s p =>
      match tget s.tables p.1 with
      | some d =>
        if d.flags.dynamic && d.state == .live && s.copyUp d false && !s.quarantineFull d then
          let n := d.dyn.clockRate * (j + 1) / 10 - d.dyn.clockRate * j / 10
          let s := (List.range n).foldl (fun s i => s.ageBucket p.1 d ((d.dyn.clockHand + i) % 2 ^ d.bucketsLog2)) s
          s.modDyn p.1 (fun y => { y with clockHand := (y.clockHand + n) % 2 ^ d.bucketsLog2 })
        else s
      | none => s) s
    .next (s.ran .clock)
  else .next s

end Sys2Proof.Machine
end

