-- ==== Sys2Proof/Machine/StartOps.lean ====
section
/-! DEFINITION. What a start of the block loses and keeps, and the start triggers (14_recovery.md R495,
R496, R511; 17_boundary.md R588, R604 to R610; 12_host_port.md R432; 15_security.md R530, R554). -/

namespace Sys2Proof.Machine

/-- Whether the block is in a start. -/
def State.starting (s : State) : Bool :=
  match s.bnd.power with
  | .starting _ _ => true
  | .tamperWait => true
  | .retry _ _ => true
  | _ => false

/-- Whether the block serves. -/
def State.up (s : State) : Bool := s.bnd.power == .running

/-- Whether the management network and the PF mailbox are served (R609). -/
def State.mgmtUp (s : State) : Bool := s.up || s.bnd.power == .safe || s.bnd.power == .tripped

/-- R237: what a platen's reset leaves: empty but for the bags of lists under way, whose entries are all to
be answered again; the instance's buckets restart at DEPTH. -/
def PlatenSt.afterReset (p : PlatenSt) : PlatenSt :=
  let given (src : LkSrc) := ((p.bags.filter (fun b => b.src == src)).map (fun b => b.delivered.length)).sum
  { PlatenSt.zero with
    bags := p.bags.map (fun (b : BagSt) => { b with acc := [], held := 0, n := 0, lost := 0, rowSat := false,
                                                    shape := false, delivered := [] }),
    ends := p.ends.map (fun (x : EndSt) => { x with settled := x.settled - given x.src }),
    buckets := tmap p.buckets (fun _ (b : Bucket) => { b with count := b.depth }),
    nextWindow := p.nextWindow, dropped := p.dropped, paced := p.paced }

/-- Entries that a reset platen must answer: waiting, in a window, or already pooled there (R237). -/
def PlatenSt.unanswered (p : PlatenSt) : List LkEntry :=
  p.intake ++ p.collect ++ (p.windows.flatMap (·.entries)).filter (fun e => e.stage != .settled)
  ++ p.bags.flatMap (·.delivered)

/-- R170, R495: every galley, its program and stores; the sparing inside it stays. -/
def State.clearGalleys (s : State) : State :=
  { s with galleys := s.galleys.map (fun y => { GalleySt.zero with spares := y.spares }) }

/-- What an instance keeps over a start: its accounting totals (11_scheduling.md R397). -/
def InstSt.afterStart (x : InstSt) : InstSt :=
  { InstSt.fresh with acct := x.acct, period := x.period, snapPj := x.snapPj }

/-- R432, R495: host-facing state is lost; tables and the ledger stay. -/
def State.hostLoss (s : State) : State :=
  let h := s.host
  let s := { s with
    ctxs := [], queues := [], fences := [], seals := [], steps := [], resident := [], switching := [],
    fabric := [], answers := [], gathers := [], upd := UpdSt.zero, serve := ServeSt.zero,
    net := { s.net with conns := [], filters := [],
                        ports := s.net.ports.map (fun (p : PortSt) => { p with
                          occ := [], xoffed := [], paused := [], txq := [], turn := (0, 0), up := false }) },
    host := { HostSt.zero with link := .down s.now, insts := tmap h.insts (fun _ x => x.afterStart),
                               timeout := h.timeout, refused := h.refused } }
  State.clearGalleys { s with platens := s.platens.map (fun p =>
    { PlatenSt.zero with nextWindow := p.nextWindow, dropped := p.dropped, paced := p.paced }) }

/-- Device memory as a zero-fill of every stack leaves it (08_memory.md R298). -/
def State.zeroFillAll (s : State) : State :=
  { s with mem := [], poison := [], lostMem := [],
           hbm := s.hbm.map (fun (x : StackSt) => { x with errors := [], log := [], recent := [[], [], []] }) }

/-- The profile that the warm start under way will have. -/
def State.startProfile (s : State) : Nat := if s.mgmt.nextProfile < 4 then s.mgmt.nextProfile else s.profile

/-- R554: whether the warm start under way runs the handover scrub. -/
def State.scrubs (s : State) : Bool := s.exclusive || s.startProfile == 2

/-- R490: standby galleys are mapped back and their floating spares are free again. -/
def State.standbyBack (s : State) (p : Nat → Bool) : State :=
  (s.fm.standby.filter (fun x => p x.1)).foldl (fun s x =>
    let m := s.fm
    { s with fm := { m with galleyMap := tput m.galleyMap x.1 x.2, standby := tdel m.standby x.1,
                            freeSpares := match tget m.galleyMap x.1 with
                              | some k => if 64 ≤ k then inOrder (m.freeSpares ++ [k]) else m.freeSpares
                              | none => m.freeSpares } }) s

/-- Galley, forme and test work of the fault manager ends with a start. -/
def State.abandonResets (s : State) : State :=
  let free := s.fm.resets.filterMap (fun r => r.spare)
  { s with fm := { s.fm with resets := [], freeSpares := inOrder (s.fm.freeSpares ++ free), ift := [] } }

/-- A warm start abandons a mode change before its commit tick; after it, what the store has not committed goes back to
the old value (16_dictionary.md R580). -/
def State.dropChange (s : State) : State :=
  match s.mgmt.change with
  | none => s
  | some c =>
    let s := if c.applied then s.place (okey c.index c.sub) c.old else s
    { s with mgmt := { s.mgmt with change := none, modeState := if c.applied then s.mgmt.modeState else .aborted } }

/-- R551: until CONFIRM, a warm start boots the old main image; an image staged in instruction memory is gone. -/
def FwSt.afterWarm (x : FwSt) : FwSt :=
  let out := x.state == .trial || x.state == .staged
  { x with
    main := x.old.getD x.main, half := if x.old.isSome then 1 - x.half else x.half, old := none, staged := none,
    trial := none, target := 2, activating := none, state := if out then .idle else x.state }

/-- A warm start begins (R606 phases 1 and 2): host-facing state lost, management and SPDM sessions ended,
SESSION slots emptied, tables ORPHANED, stacks into self-refresh; in the Exclusive profile, or into or out
of it, the handover scrub. -/
def State.beginWarm (s : State) : State :=
  let scrub := s.scrubs
  let s := s.abandonResets.standbyBack (fun _ => true)
  let s := s.dropChange
  let s := { s with sec := { s.sec with slots := tmap s.sec.slots (fun _ (k : KSlot) => { k with uses := 0 }) } }
  let s := s.mgmt.sessions.foldl (fun s p => s.endSession p.1) s
  let s := s.hostLoss
  let s := s.sec.slots.foldl (fun s p => if p.2.origin = 3 ∨ (scrub ∧ 16 ≤ p.1) then s.emptySlot p.1 else s) s
  let s := s.orphanTables (fun _ => true)
  let s := if scrub then { s.zeroFillAll with tables := [] } else s
  let s := { s with
    sec := { s.sec with spdm := [], warm := s.sec.warm + 1, fw := s.sec.fw.afterWarm },
    mgmt := { s.mgmt with
      mbx := MbxSt.reset,
      objs := tkeep s.mgmt.objs (fun k _ => k / 256 != 0xA000 && !(decide (0x1800 ≤ k / 256) && decide (k / 256 < 0x1840))) },
    formes := s.formes.map (fun (f : FormeSt) => { f with status := .resetting }),
    hbm := s.hbm.map (fun (x : StackSt) => if x.state = StackState.inService then { x with state := .selfRefresh, entering := some s.now } else x) }
  { s with bnd := { s.bnd with power := .starting .warm s.now, startKind := 1 } }

/-- R511, R300: what is kept of the block when everything unpowered or cleared is gone: the battery-backed
RAM, the flash, fuses, the start counters, pins and the world outside. -/
def State.keepThroughCold (s : State) : State :=
  { State.reset with
    now := s.now, fresh := s.fresh, hostMem := s.hostMem, out := s.out, pending := s.pending,
    hbm := s.hbm.map (fun (x : StackSt) => { StackSt.zero with flashList := x.flashList, temp := x.temp, band := x.band }),
    host := { HostSt.zero with link := .down s.now, timeout := s.host.timeout, refused := s.host.refused },
    fm := { FmSt.zero with boot := s.fm.boot, flashLog := s.fm.flashLog, logNext := s.fm.logNext, badGalleys := s.fm.badGalleys,
                           freeSpares := [64, 65].filter (fun k => !s.fm.badGalleys.contains k),
                           rowMarks := s.fm.rowMarks },
    sec := { SecSt.zero with zone := s.sec.zone, tamperLatch := s.sec.tamperLatch, tamperCount := s.sec.tamperCount,
                             keyless := s.sec.keyless, revoked := s.sec.revoked, arb := s.sec.arb,
                             spareCells := s.sec.spareCells, retiredSlots := s.sec.retiredSlots },
    mgmt := { MgmtSt.zero with ledger := s.mgmt.ledger, macPhy := s.mgmt.macPhy },
    bnd := { BndSt.zero with
      warmFails := s.bnd.warmFails, coldFails := s.bnd.coldFails, strapPins := s.bnd.strapPins,
      porLow := s.bnd.porLow, tamperLow := s.bnd.tamperLow, refclk := s.bnd.refclk,
      pwrcyc := s.bnd.pwrcyc, trip := s.bnd.trip, hot := s.bnd.hot, hotFab := s.bnd.hotFab,
      fp := { s.bnd.fp with busy := none, pend := false, done := false, code := 0, op := 0 } } }

/-- A cold start begins (R605); it waits at its check of TAMPER_N while that line is asserted. -/
def State.beginCold (s : State) : State :=
  let s := s.keepThroughCold.coldTime
  let s := { s with fm := { s.fm with boot := s.fm.boot + 1 } }
  if s.bnd.tamperLow then { s with bnd := { s.bnd with power := .tamperWait, startKind := 0 } } else s.coldBoot

/-- R588: PWRCYC_REQ_N is asserted; POWER_CYCLE goes to every session and beacons follow (R581, R582). -/
def State.requestPowerCycle (s : State) (code : Nat) : State :=
  if s.bnd.pwrcyc then s
  else
    let s := { s with bnd := { s.bnd with pwrcyc := true },
                      mgmt := { s.mgmt with beaconCode := code, beaconTick := s.now, lastBeacon := s.now } }
    s.notify 1 (toLE 2 code ++ toLE 4 s.fm.boot ++ toLE 8 s.now)

/-- R496, R609: management-only safe mode: nothing powered but the management side. -/
def State.enterSafe (s : State) (tripped : Bool) : State :=
  let s := s.abandonResets.hostLoss
  let s := { s with formes := s.formes.map (fun (f : FormeSt) => { f with status := .outOfService, stackUp := false }),
                    hbm := s.hbm.map (fun (x : StackSt) => { x with state := match x.state with
                      | .inService => .selfRefresh | .training => .out | y => y }),
                    bnd := { s.bnd with power := if tripped then .tripped else .safe, startKind := 2 } }
  { s with bnd := { s.bnd with fault := true } }

/-- Level 5 of the ladder. -/
def State.levelFive (s : State) (r : FaultRec) : State :=
  let s := s.fault { r with level := 5 } []
  (s.requestPowerCycle r.code).enterSafe false

/-- R604: a warm start trigger; absorbed by a start in progress; nothing while the block is in reset, in
safe mode or tripped. -/
def State.triggerWarm (s : State) : State := if s.up then s.beginWarm else s

/-- R604: a cold start trigger: it turns a warm start into a cold one, and is absorbed by a cold start. -/
def State.triggerCold (s : State) : State :=
  match s.bnd.power with
  | .running => s.beginCold
  | .starting .warm _ => s.beginCold
  | .retry .warm _ => s.beginCold
  | _ => s

/-- Level 4 of the ladder (R483, R495): the record, then the start. -/
def State.levelFour (s : State) (r : FaultRec) (cold : Bool) : State :=
  let s := s.ladderRecord r 4 []
  if cold then s.triggerCold else s.triggerWarm

end Sys2Proof.Machine
end

