-- ==== Sys2Proof/Machine/Recover.lean ====
section
/-! DEFINITION. The escalation ladder: galley resets, forme resets and what starts them; exceptions of sorts
and compositors (14_recovery.md R466, R476, R477, R483 to R497; 01_architecture.md R28 to R33). -/

namespace Sys2Proof.Machine

/-! ## Physical units (R28, R467) -/

/-- Place of a sliver's sort in its stick, and of the stick's spare. -/
def Spares.placeOf (x : Spares) (sl : Nat) : Nat := (tget x.place sl).getD (sl % 16)
def Spares.sparePlace (x : Spares) (j : Nat) : Nat := (tget x.freeAt j).getD 16
/-- The physical stick of the galley that serves a stick's slivers: 16 is the spare one. -/
def Spares.stickAt (x : Spares) (j : Nat) : Nat := if x.stickSpare = some j then 16 else j

/-- Physical stick and sort of a sliver: 17 sticks of 17 sorts in each galley. -/
def State.physStick (s : State) (g j : Nat) : Nat := s.physGalley g * 17 + (s.galley g).spares.stickAt j
def State.physSort (s : State) (g sl : Nat) : Nat :=
  s.physStick g (stickOf sl) * 17 + (s.galley g).spares.placeOf sl

/-- Spare sorts and spare sticks left in the block (Table 14-15). -/
def State.sortsFree (s : State) : Nat :=
  ((List.range 64).map (fun g => if s.fm.retired.contains g then 0 else
    17 - (s.galley g).spares.sortSpare.length - b2n (s.galley g).spares.stickSpare.isSome)).sum + 17 * s.fm.freeSpares.length
def State.sticksFree (s : State) : Nat :=
  ((List.range 64).filter (fun g => !s.fm.retired.contains g && (s.galley g).spares.stickSpare.isNone)).length + s.fm.freeSpares.length

/-! ## Cutting steps off (R477, R491, R494) -/

/-- Steps that run, or are being stopped, on some of the galleys. -/
def State.stepsOn (s : State) (p : Nat → Bool) : List (Nat × StepRec) :=
  s.steps.filter (fun k => (k.2.st == .running || k.2.st == .stopping) && k.2.galleys.any p)

/-- Each of them ends with UNIT_RESET; its galleys stop without save. -/
def State.cutSteps (s : State) (l : List (Nat × StepRec)) : State :=
  l.foldl (fun s k => (s.finish k.2.queue k.2.no 0x23 0).endStep k.1 true) s

def instancesOf (l : List (Nat × StepRec)) : List Nat := (l.map (fun k => k.2.inst)).dedup

/-! ## Level 3 (R492 to R494) -/

def State.formeReset? (s : State) (f : Nat) : Bool := s.fm.resets.any (fun r => r.target == .forme f)
def State.galleyReset? (s : State) (g : Nat) : Bool := s.fm.resets.any (fun r => r.target == .galley g)

/-- Ticks of the last resets of a kind within a window ending now. -/
def recentTicks (t : Tab (List Nat)) (k now window : Nat) : List Nat :=
  ((tget t k).getD []).filter (fun x => decide (now < x + window))

/-- R269: the update records that a platen in reset holds complete with UPD_UNIT_RESET (9). -/
def State.dropRecords (s : State) (f : Nat) : State :=
  { s with upd := { s.upd with recs := tmap s.upd.recs (fun _ (r : UpdRec) =>
      if r.platen = some f ∧ r.result = none then { r with result := some 9, inserting := false } else r) } }

/-- The phases of Table 14-11 up to the power gate: steps cut off, platen and galleys reset, the stack into
self-refresh, copies of tables STALE. -/
def State.enterFormeReset (s : State) (f : Nat) (r : FaultRec) (waiting : List (Nat × Nat)) : State :=
  let mine (g : Nat) : Bool := formeOf g == f
  let l := s.stepsOn mine
  let s := (s.count (0x4010 + f) 7 1).ladderRecord r 3 (instancesOf l)
  let s := s.cutSteps l
  -- the resets of its galleys are taken over (R33, R497)
  let isMine (x : ResetSt) : Bool := match x.target with | .galley g => mine g | _ => false
  let taken : List ResetSt := s.fm.resets.filter isMine
  let mineNow : ResetSt := ⟨.forme f, s.now, r.code, waiting ++ taken.flatMap (fun x => x.waiting), false, none⟩
  let s : State := { s with
    fm := { s.fm with
      resets := s.fm.resets.filter (fun x => !isMine x) ++ [mineNow],
      freeSpares := inOrder (s.fm.freeSpares ++ taken.filterMap (fun (x : ResetSt) => x.spare)),
      hist3 := tput s.fm.hist3 f (s.now :: recentTicks s.fm.hist3 f s.now 360000000000),
      ift := s.fm.ift.filter (fun t => !mine t.galley) },
    answers := s.answers ++ (s.platen f).unanswered.map (fun e => (f, e)),
    galleys := Vector.ofFn (fun (i : Fin 64) => if mine i.val then { GalleySt.zero with spares := s.galleys[i].spares } else s.galleys[i]) }
  let s := ((s.platen f).bags.flatMap (·.delivered)).foldl (fun s e =>
    s.modTicket e.src (fun k => { k with entriesDone := k.entriesDone - 1 })) s
  let s := s.modPlaten f (fun p => p.afterReset)
  let s := (s.setForme f { s.forme f with status := .resetting }).modStack f (fun x => { x with
    state := if x.state = StackState.inService then StackState.selfRefresh else x.state, entering := some s.now,
    wq := [], retiring := none })
  ((s.dropRecords f).tablesFormeDown f false).evalFaultPin

/-- Level 3 on forme f: merged into a reset of its forme or of the block in progress (R497). -/
def State.levelThree (s : State) (f : Nat) (r : FaultRec) (waiting : List (Nat × Nat)) : State :=
  if s.starting then s.ladderRecord r 4 []
  else if s.formeReset? f then
    State.ladderRecord { s with fm := { s.fm with resets := s.fm.resets.map (fun (x : ResetSt) =>
      if x.target == .forme f then { x with waiting := x.waiting ++ waiting } else x) } } r 3 []
  else s.enterFormeReset f r waiting

/-! ## Level 2 (R489 to R491) -/

/-- Level 2 on logical galley g: `inPlace` for a RESET with SCOPE 3. -/
def State.levelTwo (s : State) (g : Nat) (r : FaultRec) (waiting : List (Nat × Nat)) (inPlace : Bool) : State :=
  let f := formeOf g
  if s.starting then s.ladderRecord r 4 []
  else if s.formeReset? f then s.levelThree f r waiting
  else if s.galleyReset? g then
    State.ladderRecord { s with fm := { s.fm with resets := s.fm.resets.map (fun (x : ResetSt) =>
      if x.target == .galley g then { x with waiting := x.waiting ++ waiting } else x) } } r 2 []
  else if !inPlace && decide (3 ≤ (recentTicks s.fm.hist2 f s.now 60000000000).length) then
    s.levelThree f { r with escalated := true } waiting
  else
    let l := s.stepsOn (fun x => x == g)
    let s := (s.count (0x4010 + f) 6 1).ladderRecord r 2 (instancesOf l)
    let s := (s.cutSteps l).modGalley g (fun y => { GalleySt.zero with spares := y.spares })
    let spare := s.fm.freeSpares.head?
    { s with fm := { s.fm with
        resets := s.fm.resets ++ [⟨.galley g, s.now, r.code, waiting, inPlace, spare⟩],
        freeSpares := s.fm.freeSpares.drop 1,
        hist2 := tput s.fm.hist2 f (s.now :: recentTicks s.fm.hist2 f s.now 60000000000),
        ift := s.fm.ift.filter (fun t => t.galley != g) } }

/-! ## A fault at its unit's level (R473, R475, R483) -/

/-- Take a fault at a level on the unit that holds the failed part: galley, forme or the block. -/
def State.takeFault (s : State) (r : FaultRec) (target : Target) : State :=
  let s := match target with
    | .galley g => if r.level ≤ 2 then s.levelTwo g r [] false else s.levelThree (formeOf g) r []
    | .forme f => s.levelThree f r []
    | .block => if r.level = 5 then s.levelFive r else s.levelFour r false
  s.settle

/-- The last spare of a kind in a unit is spent, or in the block (R507); the kinds are numbered by their row
of Table 14-15. -/
def State.oversLow (s : State) (unitType logical kind left : Nat) (blockLeft : Nat) : State :=
  let s := if left = 0 then s.fault { faultOf 0x5008 with unitType := unitType, logical := logical, info0 := kind, info1 := left } [] else s
  if blockLeft = 0 then s.fault { faultOf 0x5009 with unitType := unitType, logical := logical, info0 := kind } [] else s

/-! ## Exceptions -/

/-- The fault code of a cause (R474). -/
def Cause.code (c : Cause) : Nat :=
  match c with
  | .residueExhausted => 0x700A
  | .eccUncorr => 0x200B
  | .lockstepMismatch => 0x7015
  | c => 0x1000 + c.value

/-- R466: the record of a sort or compositor cause. -/
def State.causeRecord (s : State) (c : CoreId) (code pc : Nat) : FaultRec :=
  let y := s.galley c.galley
  match c.sliver with
  | some sl =>
    { faultOf code with
      unitType := 0x01, logical := c.galley, phys := s.physSort c.galley sl,
      info0 := sl * 2 ^ 40 + (y.share.map (·.index)).getD 0 * 2 ^ 32 + pc % 2 ^ 15,
      info1 := ((y.sliver sl).map (fun t => t.book.slugs)).getD 0 }
  | none =>
    { faultOf code with unitType := 0x03, logical := c.galley, phys := s.physGalley c.galley, info0 := pc % 2 ^ 15 }

/-- An exception is charged to the context of the step running there, which is lost; the LAUNCH completes
with FAULTED (R473, R476, R477; 04_galleys.md R158). -/
def State.coreException (s : State) (c : CoreId) (cause : Cause) (pc : Nat) : State :=
  let r := s.causeRecord c cause.code pc
  let y := s.galley c.galley
  match y.owner.bind (fun k => tget s.steps k) with
  | some p => (s.loseContext p.ctx r (some (p.queue, p.no))).settle
  | none =>
    let s := s.setGalley c.galley y.cutOff
    match y.ctx with
    | some x => (s.loseContext x r none).settle
    | none => s.fault r []

/-- R124: a hard mismatch in a retried slug: the galley is reset. -/
def State.residueExhausted (s : State) (g sl : Nat) : State :=
  let pc := (((s.galley g).sliver sl).map (fun t => t.pc.toNat)).getD 0
  s.takeFault (s.causeRecord ⟨g, some sl⟩ 0x700A pc) (.galley g)

/-- R160: no spare sort or stick is left for a failed sort. -/
def State.sparesExhausted (s : State) (g : Nat) : State :=
  s.takeFault { faultOf 0x7020 with unitType := 0x02, logical := g, phys := s.physGalley g } (.galley g)

end Sys2Proof.Machine
end

