-- ==== Sys2Proof/Machine/QueueFetch.lean ====
section
/-! DEFINITION. Fetching commands and their checks, flushes, and starting a fetched command (10_queues.md
R337 to R347, R360, R361, R365 to R367; 14_recovery.md R493). -/

namespace Sys2Proof.Machine

/-! ## Slots -/

/-- Why a slot's bytes cannot be had: a host refusal in a kernel queue, or the failing access of a context. -/
inductive SlotErr
  | retry
  | acc (e : AccErr)
  deriving DecidableEq, Repr

/-- What a read of n bytes for a kernel queue costs its instance (11_scheduling.md R395, R396). -/
def State.kernelCharge (s : State) (inst a n : Nat) : State :=
  s.account none inst (if s.exclusive then { Account.zero with hbm := 256 * sheetsOf a n, pj := energyOf 5 (sheetsOf a n) }
    else { Account.zero with host := n, pj := energyOf 7 ((n + 63) / 64) })

/-- Read slot n of a queue's ring. -/
def State.readSlot (s : State) (x : QueueSt) (n : Nat) : Except SlotErr (List Byte) × State :=
  let a := x.sqVA + n % x.size * 64
  if x.kind = 0 then
    match s.kernelRead x.inst a 64 with
    | some l => (.ok l, s.kernelCharge x.inst a 64)
    | none => (.error .retry, s)
  else
    match s.ctxRead x.ctx a 64 with
    | (.ok l, s) => (.ok l, s)
    | (.error .unitReset, s) => (.error .retry, s)
    | (.error e, s) => (.error (.acc e), s)

/-- Fields of a slot control word (Table 10-2). -/
def wordEpoch (w : Nat) : Nat := bits w 63 48
def wordPos (w : Nat) : Nat := bits w 43 42
def wordLen (w : Nat) : Nat := bits w 41 40 + 1

/-- R339: slot n of a queue is intact at place i of a command whose first word is `first`. -/
def QueueSt.intact (x : QueueSt) (n i first w : Nat) : Bool :=
  wordEpoch w == x.epoch && bits w 47 47 == 1 - n / x.size % 2 && wordPos w == i
  && w % 256 == first % 256 && wordLen w == wordLen first

/-- A reading of a command at a running index: not yet written whole, a failing access, or its slots. -/
inductive Reading
  | torn
  | unpublished
  | failed (e : SlotErr)
  | whole (slots : List (List Byte))
  deriving DecidableEq, Repr

/-- The further slots of a command. -/
def State.readRest (x : QueueSt) (first n : Nat) : Nat → State → List (List Byte) → Reading × State
  | 0, s, l => (.whole l, s)
  | k + 1, s, l =>
    match s.readSlot x (n + l.length) with
    | (.error e, s) => (.failed e, s)
    | (.ok b, s) =>
      if x.intact (n + l.length) l.length first (field b 0 8) then State.readRest x first n k s (l ++ [b])
      else (.torn, s)

/-- Read the command at a running index that is published up to `tail` (R339, R341). -/
def State.readCommand (s : State) (x : QueueSt) (n tail : Nat) : Reading × State :=
  if n = tail then (.unpublished, s)
  else match s.readSlot x n with
    | (.error e, s) => (.failed e, s)
    | (.ok b, s) =>
      let w := field b 0 8
      if !x.intact n 0 w w then (.torn, s)
      else if (tail + 2 ^ 32 - n) % 2 ^ 32 < wordLen w then (.unpublished, s)
      else State.readRest x w n (wordLen w - 1) s [b]

/-- The body of a command: 56 bytes of each slot (R338). -/
def slotsBody (l : List (List Byte)) : List Byte := l.flatMap (fun b => (b.drop 8).take 56)

/-! ## Checks of R346, steps 3 to 5 -/

/-- Who may issue a command (Table 10-3). -/
inductive CmdSet | any | user | kernel | kernelPF
  deriving DecidableEq, Repr

/-- Set and slots of an opcode; LAUNCH's slots depend on its patch (R353). -/
def opInfo (op : Nat) : Option (CmdSet × Nat) :=
  match op with
  | 0x00 | 0x02 | 0x03 | 0x04 | 0x05 | 0x53 | 0x54 => some (.any, 1)
  | 0x01 => some (.user, 0)
  | 0x10 | 0x11 | 0x18 | 0x19 | 0x1A | 0x20 | 0x21 | 0x24 | 0x25 | 0x26 | 0x27 | 0x28 | 0x29 | 0x38 | 0x50 | 0x51
  | 0x55 => some (.kernel, 1)
  | 0x30 | 0x40 | 0x44 | 0x48 | 0x52 | 0x5D => some (.kernelPF, 1)
  | 0x58 => some (.kernel, 2)
  | 0x59 | 0x5A | 0x5B | 0x5C => some (.user, 1)
  | _ => none

/-- The fields that Table 10-4 lists for a command, as offset and size; every other byte is reserved. -/
def opFields (op : Nat) (inline : Bool) (patch : Nat) : List (Nat × Nat) :=
  match op with
  | 0x01 => [(0x10, 2), (0x12, 2), (0x14, 2), (0x18, 8), (0x20, 8), (0x28, 8)] ++ (if inline then [(0x38, patch)] else [])
  | 0x02 | 0x03 => [(0x10, 8), (0x18, 8)]
  | 0x04 | 0x11 | 0x21 | 0x25 | 0x27 | 0x29 | 0x51 => [(0x10, 2)]
  | 0x05 => [(0x10, 1), (0x12, 2), (0x14, 4), (0x18, 8)]
  | 0x10 => [(0x10, 2), (0x12, 2), (0x18, 8)]
  | 0x18 => [(0x10, 2), (0x12, 1), (0x13, 1), (0x14, 4), (0x18, 8), (0x20, 8)]
  | 0x19 => [(0x10, 2), (0x12, 1), (0x14, 4), (0x18, 8)]
  | 0x1A => [(0x10, 2), (0x12, 1), (0x13, 1), (0x14, 4), (0x18, 8)]
  | 0x20 => [(0x10, 2), (0x12, 1), (0x14, 4), (0x18, 8)]
  | 0x24 => [(0x10, 2), (0x12, 1), (0x13, 1), (0x14, 2), (0x16, 2), (0x18, 8), (0x20, 8), (0x28, 8), (0x30, 4), (0x34, 2), (0x36, 2)]
  | 0x26 => [(0x10, 2), (0x18, 8)]
  | 0x28 => [(0x10, 2), (0x12, 2), (0x14, 2), (0x18, 8)]
  | 0x30 => [(0x10, 1), (0x11, 1), (0x12, 1), (0x18, 8), (0x20, 8)]
  | 0x38 => [(0x10, 1), (0x12, 2)]
  | 0x40 | 0x44 | 0x48 => [(0x10, 1), (0x11, 1), (0x14, 4), (0x18, 8), (0x20, 4)]
  | 0x50 => [(0x10, 2), (0x12, 2), (0x18, 8)]
  | 0x52 => [(0x10, 2), (0x12, 1), (0x14, 2)]
  | 0x53 => [(0x10, 4), (0x14, 1), (0x18, 8)]
  | 0x54 => [(0x10, 1)]
  | 0x55 => [(0x10, 1), (0x11, 1), (0x12, 2), (0x18, 8), (0x20, 8)]
  | 0x5D => [(0x10, 1), (0x14, 4), (0x18, 4)]
  | 0x58 => [(0x10, 1), (0x11, 1), (0x12, 2), (0x14, 2), (0x16, 2), (0x18, 8), (0x20, 1), (0x21, 1), (0x24, 4), (0x28, 4),
      (0x2C, 4), (0x30, 8), (0x38, 8)]
  | 0x59 => [(0x10, 1), (0x11, 1), (0x14, 4), (0x18, 4), (0x1C, 4), (0x20, 8)]
  | 0x5A => [(0x10, 4), (0x18, 8)]
  | 0x5B => [(0x10, 4)]
  | 0x5C => [(0x10, 4), (0x14, 2), (0x18, 8)]
  | _ => []

/-- A failed check: where, and its status. -/
abbrev FieldFail := Nat × Nat

/-- The first nonzero reserved byte from body offset 0x0A on. -/
def reservedFail (op : Nat) (body : List Byte) (inline : Bool) (patch : Nat) : Option Nat :=
  let fs := (0x00, 10) :: opFields op inline patch
  (List.range body.length).find? (fun i =>
    !fs.any (fun f => decide (f.1 ≤ i) && decide (i < f.1 + f.2)) && (body[i]?).getD 0 != 0)

/-- The checks of sizes, alignments, enumerated values and identifiers (R345, R346 step 5), in body order;
`user` for a user queue, `vf` for a virtual function's queue. -/
def formatChecks (op : Nat) (body : List Byte) (user vf : Bool) (domains : Nat) : List (Nat × Nat × Bool) :=
  let f (off n : Nat) := field body off n
  let fmt (off : Nat) (bad : Bool) : Nat × Nat × Bool := (off, 0x10, bad)
  let idr (off : Nat) (bad : Bool) : Nat × Nat × Bool := (off, 0x16, bad)
  let ctx (off : Nat) := idr off (decide (4096 ≤ f off 2))
  let queue (off : Nat) := idr off (decide (2048 ≤ f off 2))
  let va (off : Nat) := idr off (decide (2 ^ 48 ≤ f off 8))
  let vector (off : Nat) := idr off (f off 2 != 0xFFFF && decide ((if vf then 64 else 2048) ≤ f off 2))
  fmt 8 (bits (f 8 2) 14 13 != 0) ::
  (match op with
  | 0x01 => [fmt 0x10 (decide (4096 ≤ f 0x10 2)), fmt 0x12 (decide (512 < f 0x12 2) || f 0x12 2 % 8 != 0), fmt 0x14 (decide (2 ≤ f 0x14 2)),
             va 0x18, fmt 0x28 (f 0x28 8 % 8 != 0 || (bit (f 0x14 2) 0 && f 0x28 8 != 0)), va 0x28]
  | 0x02 | 0x03 => [fmt 0x10 (f 0x10 8 % 8 != 0)] ++ (if user then [va 0x10] else [])
  | 0x04 => [idr 0x10 (decide (8192 ≤ f 0x10 2))]
  | 0x05 => [fmt 0x10 (decide (2 ≤ f 0x10 1)), idr 0x12 (decide ((if f 0x10 1 = 0 then 4096 else 256) ≤ f 0x12 2)),
             fmt 0x14 (decide (f 0x14 4 < (if f 0x10 1 = 0 then 128 else 256))), fmt 0x18 (f 0x18 8 % 64 != 0)]
             ++ (if user then [va 0x18] else [])
  | 0x10 => [ctx 0x10, fmt 0x12 (bits (f 0x12 2) 14 12 != 0), fmt 0x18 (f 0x18 8 % 256 != 0), va 0x18]
  | 0x11 => [fmt 0x10 (decide (4096 ≤ f 0x10 2))]
  | 0x18 => [ctx 0x10, fmt 0x12 (decide (2 ≤ f 0x12 1)), fmt 0x13 (decide (16 ≤ f 0x13 1)),
             fmt 0x14 (f 0x14 4 == 0 || decide (65536 < f 0x14 4))]
  | 0x19 => [ctx 0x10, fmt 0x12 (decide (2 ≤ f 0x12 1)), fmt 0x14 (f 0x14 4 == 0 || decide (65536 < f 0x14 4)),
             fmt 0x18 (f 0x18 8 % (if f 0x12 1 = 0 then 65536 else 2 ^ 21) != 0), va 0x18]
  | 0x1A => [ctx 0x10, fmt 0x12 (decide (2 ≤ f 0x12 1)), fmt 0x13 (decide (16 ≤ f 0x13 1)),
             fmt 0x14 (f 0x14 4 == 0 || decide (65536 < f 0x14 4)),
             fmt 0x18 (f 0x18 8 % (if f 0x12 1 = 0 then 65536 else 2 ^ 21) != 0), va 0x18]
  | 0x20 => [fmt 0x10 (bits (f 0x10 2) 14 12 != 0), fmt 0x12 (decide (domains ≤ f 0x12 1)),
             fmt 0x14 (decide (2 ^ 20 ≤ f 0x14 4)), fmt 0x18 (f 0x18 8 % 65536 != 0), idr 0x18 (decide (2 ^ 40 ≤ f 0x18 8))]
  | 0x21 => [ctx 0x10]
  | 0x24 =>
    let k := f 0x12 1
    [queue 0x10, fmt 0x12 (decide (3 ≤ k)), fmt 0x13 (decide (f 0x13 1 < 6) || decide ((if k = 0 then 12 else 16) < f 0x13 1))]
    ++ (if k = 0 then [] else [ctx 0x14]) ++ [vector 0x16, fmt 0x18 (f 0x18 8 % (64 * 2 ^ (f 0x13 1 % 64)) != 0)]
    ++ (if k = 0 then [] else [va 0x18]) ++ [fmt 0x20 (f 0x20 8 % (64 * 2 ^ (f 0x13 1 % 64)) != 0)]
    ++ (if k = 0 then [] else [va 0x20])
    ++ [fmt 0x28 ((f 0x28 8 == 0) != (k == 0)), fmt 0x30 (k != 0 && (decide (f 0x30 4 < 100) || decide (100000000 < f 0x30 4))),
        fmt 0x34 (decide (10000 < f 0x34 2)), fmt 0x36 (decide (2 ≤ f 0x36 2))]
  | 0x25 | 0x27 => [queue 0x10]
  | 0x26 => [queue 0x10, fmt 0x18 (f 0x18 8 == 0)]
  | 0x28 => [fmt 0x10 (bits (f 0x10 2) 14 13 != 0), ctx 0x12, vector 0x14, fmt 0x18 (f 0x18 8 % 8 != 0), va 0x18]
  | 0x29 => [idr 0x10 (decide (8192 ≤ f 0x10 2))]
  | 0x38 =>
    let sc := f 0x10 1
    let lim := match sc with | 0 => 4096 | 1 => 2048 | 2 => 256 | 3 => 64 | 4 => 8 | _ => 1
    [fmt 0x10 (decide (6 ≤ sc)), idr 0x12 (decide (lim ≤ f 0x12 2))]
  | 0x40 => [fmt 0x10 (!([0, 1, 2, 3, 4, 5, 8, 9, 0xA, 0xB, 0xC, 0xD, 0xE, 0xF, 0x10, 0x11, 0x12] : List Nat).contains (f 0x10 1))]
  | 0x44 => [fmt 0x10 (decide (7 ≤ f 0x10 1))]
  | 0x48 => [fmt 0x10 (decide (4 ≤ f 0x10 1)), idr 0x11 (f 0x10 1 == 0 && decide (4 ≤ f 0x11 1))]
  | 0x50 => [ctx 0x12, fmt 0x18 (f 0x18 8 % 64 != 0)]
  | 0x52 => [ctx 0x14]
  | 0x53 => [fmt 0x10 (f 0x10 4 % 32 != 0 || decide (f 0x10 4 < 32) || decide (2 ^ 24 < f 0x10 4)), fmt 0x14 (decide (2 ≤ f 0x14 1)),
             fmt 0x18 (f 0x18 8 % 32 != 0)] ++ (if user then [va 0x18] else [])
  | 0x54 => [fmt 0x10 (decide (2 ≤ f 0x10 1))]
  | 0x55 =>
    let rm := bit (f 0x10 1) 7
    [fmt 0x10 (bits (f 0x10 1) 6 2 != 0), fmt 0x11 (!rm && (decide (f 0x11 1 < 16) || decide (24 < f 0x11 1))), ctx 0x12,
     fmt 0x18 (!rm && f 0x18 8 % 2 ^ (f 0x11 1 % 64) != 0), va 0x18, fmt 0x20 (!rm && f 0x20 8 % 64 != 0), va 0x20]
  | 0x58 => [fmt 0x11 (decide (2 ≤ f 0x11 1))]
     ++ (if bit (f 0x11 1) 0 then [] else
       [ctx 0x12, queue 0x14, va 0x18])
  | 0x59 => [fmt 0x11 (decide (4 ≤ f 0x11 1))]
  | 0x5A => [fmt 0x18 (f 0x18 8 % 16 != 0), va 0x18]
  | 0x5B => [idr 0x10 (decide (2 ^ 18 ≤ f 0x10 4))]
  | 0x5C => [fmt 0x18 (f 0x18 8 % 64 != 0), va 0x18]
  | _ => [])

/-- Failing bits of a control word: a reserved bit, or CFLAGS where they may not stand (R346). -/
def wordFail (i w : Nat) : Option Nat :=
  let bad := (bits w 46 44 * 2 ^ 44) ||| (bits w 39 16 * 2 ^ 16) ||| (if i = 0 then bits w 15 11 * 2 ^ 11 else bits w 15 8 * 2 ^ 8)
  (List.range 8).find? (fun b => bad / 2 ^ (8 * b) % 256 != 0)

/-- Slots a command must have. -/
def wantSlots (op : Nat) (body : List Byte) (n : Nat) : Nat :=
  if op = 0x01 then
    (if bit (field body 0x14 2) 0 then 1 + (field body 0x12 2 + 55) / 56 else 1)
  else ((opInfo op).map (·.2)).getD n

/-- R347: the privilege checks that need no named object. -/
def privilegeFail (op : Nat) (body : List Byte) (user : Bool) (ctx inst : Nat) (vfTables : Bool) : Bool :=
  match opInfo op with
  | none => false
  | some (st, _) =>
    let vf := inst != 0
    (match st with
     | .any => false
     | .user => !user
     | .kernel => user
     | .kernelPF => user || vf)
    || (!user && vf && ((op == 0x38 && (decide (3 ≤ field body 0x10 1)
          || (field body 0x10 1 == 2 && field body 0x12 2 != inst)))
        || (op == 0x50 && !vfTables)
        || (op == 0x05 && field body 0x10 1 == 1 && field body 0x12 2 != inst)))
    || (user && op == 0x05 && (field body 0x10 1 == 1 || (field body 0x10 1 == 0 && field body 0x12 2 != ctx)))

/-- Steps 3 to 5 of R346 on a whole command: the refusal, if any. -/
def commandRefusal (words : List Nat) (body : List Byte) (user : Bool) (ctx inst domains : Nat) (vfTables : Bool) :
    Option (Nat × Nat) :=
  let op := (words.head?).getD 0 % 256
  let n := words.length
  match opInfo op with
  | none => some (0x11, 0)
  | some (_, fixed) =>
    if fixed ≠ 0 ∧ fixed ≠ n then some (0x10, 0x105)
    else if privilegeFail op body user ctx inst vfTables then some (0x12, 0)
    else
      let wf := (words.zipIdx.filterMap (fun p => (wordFail p.2 p.1).map (fun b => 0x100 + 0x40 * p.2 + b))).head?
      match wf with
      | some d => some (0x10, d)
      | none =>
        if wantSlots op body n ≠ n then some (0x10, 0x105)
        else
          let inline := bit (field body 0x14 2) 0
          let patch := field body 0x12 2
          let ff := (formatChecks op body user (inst != 0) domains).filter (fun c => c.2.2)
          let first := ff.foldl (fun (b : Option (Nat × Nat)) c =>
            match b with
            | some (o, st) => if c.1 < o then some (c.1, c.2.1) else some (o, st)
            | none => some (c.1, c.2.1)) none
          match reservedFail op body inline patch, first with
          | some r, some (o, st) => if r < o then some (0x10, r) else some (st, o)
          | some r, none => some (0x10, r)
          | none, some (o, st) => some (st, o)
          | none, none => none

/-! ## Fetch -/

/-- Append a command to a queue. -/
def QueueSt.push (x : QueueSt) (c : Cmd) : QueueSt :=
  { x with cmds := x.cmds ++ [{ c with no := x.nextNo }], nextNo := x.nextNo + 1 }

def Cmd.blank : Cmd :=
  { no := 0, slot := none, slots := 0, op := 0, cflags := 0, body := [], st := .fetched, start := 0, rflags := 0,
    us := 0, hbm := 0, host := 0, net := 0, claimant := none, batch := none }

/-- The command made of slots read at a running index. -/
def cmdOf (n now : Nat) (l : List (List Byte)) : Cmd :=
  let w := field ((l.head?).getD []) 0 8
  { Cmd.blank with slot := some n, slots := l.length, op := w % 256, cflags := bits w 15 8, body := slotsBody l, start := now }

/-- R339: the back-off after a reading that found the command not intact. -/
def QueueSt.backOff (x : QueueSt) (now : Nat) : QueueSt :=
  let gap := match x.stalled with
    | none => 100
    | some (_, g) => min 5000 (2 * g)
  { x with stalled := some (now + gap, gap) }

/-- R346: one command is read and checked; a claim marks its galley. -/
def State.fetchCommand (s : State) (q : Nat) (x : QueueSt) (claimant : Option Nat) : State :=
  if decide (x.size ≤ x.cmds.length + x.unconsumed) then s.modQueue q (fun y => { y with cqFull := true })
  else
    let s := s.modQueue q (fun y => { y with cqFull := false })
    match s.readCommand x x.fetch x.tail with
    | (.unpublished, s) => s
    | (.torn, s) => s.modQueue q (fun y => y.backOff s.now)
    | (.failed .retry, s) => s.modQueue q (fun y => y.backOff s.now)
    | (.failed (.acc e), s) => (s.modQueue q (fun y => { y with stopped := true })).accFault x.ctx e none
    | (.whole l, s) =>
      let c := { cmdOf x.fetch s.now l with claimant := claimant }
      let c := if x.kind = 0 then (if s.exclusive then { c with hbm := 256 * l.length } else { c with host := 64 * l.length })
        else match (tget s.ctxs x.ctx).bind (fun y => y.leafAt (x.sqVA + x.fetch % x.size * 64)) with
          | some (lf, _) => if lf.host then { c with host := 64 * l.length } else { c with hbm := 256 * l.length }
          | none => c
      let lost := x.kind != 0 && ((tget s.ctxs x.ctx).map (·.state)) == some CtxState.lost
      let words := l.map (fun b => field b 0 8)
      let refusal := if lost then some (0x21, 0)
        else commandRefusal words c.body (x.kind != 0) x.ctx x.inst s.domains (bit s.sec.prot.frPolicy 0)
      let c := match refusal with
        | some (st, d) => { c with st := .done st d }
        | none => c
      s.modQueue q (fun y => { y.push c with fetch := (y.fetch + l.length) % 2 ^ 32, stalled := none })

/-! ## Starting a fetched command -/

/-- The first command of a queue that has not started. -/
def QueueSt.nextCmd (x : QueueSt) : Option Cmd := x.cmds.find? (fun c => c.st == .fetched)

/-- Whether every command before c has completed. -/
def QueueSt.clearBefore (x : QueueSt) (c : Cmd) : Bool :=
  (x.cmds.takeWhile (fun d => d.no != c.no)).all (fun d => match d.st with | .done _ _ => true | _ => false)

/-- The command that queue q may start now, when its opcode is op (R343). -/
def State.startable (s : State) (q op : Nat) : Option (QueueSt × Cmd) :=
  match tget s.queues q with
  | none => none
  | some x =>
    match x.nextCmd with
    | none => none
    | some c =>
      if s.up && s.instRuns x.inst && x.flush.isNone && x.wait.isNone && c.op == op
          && !s.steps.any (fun p => p.2.queue == q && p.2.no == c.no)
          && (!(bit c.cflags 1 || op == 3) || x.clearBefore c)
          && !(x.kind != 0 && ((tget s.ctxs x.ctx).map (·.state)) == some CtxState.lost) then some (x, c)
      else none

/-- A command is refused: it executes nothing and takes its check time. -/
def State.refuse (s : State) (q no status detail : Nat) : State :=
  (s.modCmd q no (fun c => { c with start := s.now })).finish q no status detail

/-- A command starts. -/
def State.begin_ (s : State) (q no : Nat) : State :=
  s.modQueue q (fun x => { x.modCmd no (fun c => { c with st := .started, start := s.now }) with wdog := 0 })

/-- R347: whether the header's fence may be named; the refusal otherwise (step 6). -/
def State.fenceRefusal (s : State) (x : QueueSt) (c : Cmd) : Option (Nat × Nat) :=
  let w := field c.body 8 2
  if !bit w 15 then none
  else match tget s.fences (w % 8192) with
    | none => some (0x17, 8)
    | some f =>
      if x.kind ≠ 0 then (if f.ctx = x.ctx then none else some (0x12, 8))
      else if x.inst = 0 ∨ f.inst = x.inst then none else some (0x12, 0)

/-- Run the meaning of a queued command: nothing when it cannot start, its refusal for the fence it names,
otherwise its own effect; then what is due afterwards. -/
def State.runCmd (s : State) (q op : Nat) (f : State → QueueSt → Cmd → State) : State :=
  match s.startable q op with
  | none => s
  | some (x, c) =>
    match s.fenceRefusal x c with
    | some (st, d) => (s.refuse q c.no st d).settle
    | none => (f s x c).settle

/-- A command that ends at once with SUCCESS. -/
def State.succeed (s : State) (q no detail : Nat) : State := (s.begin_ q no).finish q no 0 detail

/-- Whether a kernel queue's owner may act on an object of an instance (R347). -/
def QueueSt.mayTouch (x : QueueSt) (inst : Nat) : Bool := x.inst == 0 || x.inst == inst

/-! ## Flush (R366, R367) -/

/-- Published commands not fetched yet, up to the first that does not parse. -/
def State.parsePublished (x : QueueSt) : Nat → State → Nat → List Cmd → List Cmd × State
  | 0, s, _, l => (l, s)
  | k + 1, s, n, l =>
    match s.readCommand x n x.tail with
    | (.whole w, s) => State.parsePublished x k s ((n + w.length) % 2 ^ 32) (l ++ [cmdOf n s.now w])
    | (_, s) => (l, s)

/-- FLUSH_APPLY (R366): the epoch moves on, what has not started completes FLUSHED (or CONTEXT_LOST, lost
first), the rest is discarded; `w` completes when FLUSHING clears. -/
def State.applyFlush (s : State) (q : Nat) (w : List (Nat × Nat)) (destroy : Bool) : State :=
  match tget s.queues q with
  | none => s
  | some x =>
    let lost := x.kind != 0 && ((tget s.ctxs x.ctx).map (·.state)) == some CtxState.lost
    let code := if lost then 0x21 else 0x20
    let (more, s) := if x.stopped then ([], s) else State.parsePublished x x.size s x.fetch []
    let s := (s.steps.filter (fun p => p.2.queue == q && p.2.taken.isEmpty
      && ((x.cmd p.2.no).map (·.st)) == some CmdSt.fetched)).foldl (fun s p => s.endStep p.1 true) s
    s.modQueue q (fun y =>
      let y := more.foldl (fun y c => y.push c) y
      { y with
        epoch := if y.epoch = 65535 then 1 else y.epoch + 1, flushTail := y.tail, fetch := y.tail, wait := none,
        stalled := none, stopped := false, cqFull := false,
        cmds := y.cmds.map (fun c => if c.st = .fetched then { c with st := .done code 0 } else c),
        flush := some (match y.flush with
          | some f => { f with waiting := f.waiting ++ w, destroy := f.destroy || destroy }
          | none => ⟨w, destroy⟩) })

end Sys2Proof.Machine
end

