-- ==== Sys2Proof/Machine/QueueCmd.lean ====
section
/-! DEFINITION. The meanings of NOP, LAUNCH, waits and values, QUERY and sealing (10_queues.md R344 to R359,
11_scheduling.md R376, R378, R402). -/

namespace Sys2Proof.Machine

/-! ## Accesses of commands -/

/-- A read for a command of a queue, at an address of its kind (R335). -/
def State.queueRead (s : State) (x : QueueSt) (a n : Nat) : Except AccErr (List Byte) × State :=
  if x.kind = 0 then
    match s.kernelRead x.inst a n with
    | some l => (.ok l, s.kernelCharge x.inst a n)
    | none => (.error (.fault 0x2003 (s.firstRefused a n) (Config.linkStatus (s.firstRefused a n))), s)
  else s.ctxRead x.ctx a n

/-- A write for a command of a queue. -/
def State.queueWrite (s : State) (x : QueueSt) (a : Nat) (l : List Byte) : Option AccErr × State :=
  if x.kind = 0 then (none, (s.kernelWrite x.inst a l).2) else s.ctxWrite x.ctx a l

/-- A command's own access failed: a user queue's context is lost by it, a kernel queue's command completes
FAULTED with a record at LEVEL 0 (R350, 12_host_port.md R414). -/
def State.cmdFault (s : State) (q : Nat) (x : QueueSt) (c : Cmd) (code va info : Nat) : State :=
  let s := s.begin_ q c.no
  if x.kind ≠ 0 then s.accFault x.ctx (.fault code va info) (some (q, c.no))
  else (s.fault { faultOf code with level := 0, inst := some x.inst, unitType := 0x08, logical := x.inst, queue := some q, addr := va,
                                        info0 := info } []).finish q c.no 0x22 code

/-- Bytes charged to an instance since `before` are the command's too (R363). -/
def State.tagInst (s before : State) (i q no : Nat) : State :=
  let x := (s.inst i).acct
  let y := (before.inst i).acct
  s.cmdBytes q no { Account.zero with hbm := x.hbm - y.hbm, host := x.host - y.host, net := x.net - y.net }

/-- R347, R423: a context that a kernel command names: its status and offset when it may not. -/
def State.namedCtx (s : State) (x : QueueSt) (cid off : Nat) : Except (Nat × Nat) CtxSt :=
  match tget s.ctxs cid with
  | none => .error (0x17, off)
  | some y =>
    if !x.mayTouch y.inst then .error (0x12, 0)
    else if (s.inst y.inst).state = .resetting then .error (0x17, off)
    else .ok y

/-- NOP. -/
def execNop (q : Nat) (s : State) : Res := .next (s.runCmd q 0x00 (fun s _ c => s.succeed q c.no 0))

/-! ## LAUNCH -/

/-- The slot control words of a command, from what was fetched (Table 10-2). -/
def QueueSt.slotWord (x : QueueSt) (c : Cmd) (n i : Nat) : Nat :=
  x.epoch * 2 ^ 48 + (1 - (n + i) % 2 ^ 32 / x.size % 2) * 2 ^ 47 + i * 2 ^ 42 + (c.slots - 1) * 2 ^ 40
    + (if i = 0 then c.cflags * 256 else 0) + c.op

/-- The slots as fetched, for the LAUNCH area (R354). -/
def QueueSt.slotCopy (x : QueueSt) (c : Cmd) : List Byte :=
  match c.slot with
  | some n => (List.range c.slots).flatMap (fun i => toLE 8 (x.slotWord c n i) ++ (c.body.drop (56 * i)).take 56)
  | none => c.body

/-- R354: the first word of the patched window that PTR_MASK refuses. -/
def ptrFail (x : CtxSt) (im : ImageInfo) (w : List Byte) : Option Nat :=
  (List.range (im.patchLen / 8)).find? (fun i =>
    bit im.ptrMask.toNat i && field w (8 * i) 8 != 0
      && (match x.leafAt (field w (8 * i) 8) with
          | some (l, _) => !(l.r || l.w)
          | none => true))

/-- R147: the seed of a LAUNCH. -/
def seedOf (im : ImageInfo) (w : List Byte) : W64 :=
  if im.seedWord = 0xFF then im.seed else BitVec.ofNat 64 (field w (8 * im.seedWord) 8)

/-- R378: whether a step that becomes pending now is DEADLINE class. -/
def State.urgentNow (s : State) (i : Nat) : Bool :=
  let b := (s.inst i).budget
  !b.limited || decide (0 < b.count)

/-- R376: a checked LAUNCH becomes a pending step on a galley set. -/
def State.makeStep (s : State) (q : Nat) (x : QueueSt) (no handle : Nat) (se : SealSt) (galleys : List Nat)
    (deadline : Nat) (cmd window : List Byte) : State :=
  let p : StepRec :=
    { queue := q, no := no, ctx := x.ctx, inst := x.inst, sealNo := handle, sealGen := se.gen,
      model := se.info.modelId.toNat, deadline := deadline, urgent := s.urgentNow x.inst, arrival := x.arrivals,
      galleys := galleys, st := .pending, frame := none, kept := [], ticks := 0, taken := [], doneBy := [], rflags := 0,
      preempted := false, cmd := cmd, patch := window, seed := seedOf se.info window, shares := se.info.shares,
      sealed_ := se }
  State.modQueue { s with steps := tput s.steps s.nextStep p, nextStep := s.nextStep + 1 } q
    (fun y => { y with arrivals := y.arrivals + 1 })

/-- R353 to R355: the seal, patch and pointer checks; an accepted LAUNCH becomes a step. -/
def State.launch (s : State) (q : Nat) (x : QueueSt) (c : Cmd) : State :=
  let f (off n : Nat) := field c.body off n
  let handle := f 0x10 2 % 4096
  let bad := s.refuse q c.no 0x13 0
  match tget s.seals handle, tget s.ctxs x.ctx with
  | some se, some cx =>
    if s.sec.keyless || se.ctx != x.ctx || se.imageVA != f 0x18 8 then bad
    else
      let im := se.info
      let n := f 0x12 2
      if im.patchLen < n then s.refuse q c.no 0x10 0x12
      else
        let s0 := s
        let win := s.ctxRead x.ctx (se.imageVA + im.patchOff) im.patchLen
        let pat : Except AccErr (List Byte) × State :=
          if bit (f 0x14 2) 0 then (.ok ((c.body.drop 0x38).take n), win.2) else win.2.ctxRead x.ctx (f 0x28 8) n
        match win.1, pat.1 with
        | .ok w, .ok p =>
          let w := p ++ w.drop n
          let s := pat.2.tagInst s0 x.inst q c.no
          match ptrFail cx im w with
          | some i => s.refuse q c.no 0x15 i
          | none =>
            let d := if f 0x20 8 = 0 then s.now + x.deadlineRel else f 0x20 8
            let gs := if x.kind = 1 then x.ranks else c.claimant.toList
            if gs.isEmpty then s else s.makeStep q x c.no handle se gs d (x.slotCopy c) w
        | .error (.fault code va info), _ => win.2.cmdFault q x c code va info
        | .error .unitReset, _ => s0
        | _, .error (.fault code va info) => pat.2.cmdFault q x c code va info
        | _, .error .unitReset => s0
  | _, _ => bad

def execLaunch (q : Nat) (s : State) : Res := .next (s.runCmd q 0x01 (fun s x c => s.launch q x c))

/-! ## Waits, values and fences -/

/-- R356: a reading of a wait's address by the QFE: satisfied, or to be read again after `gap`. -/
def State.readWait (s : State) (q : Nat) (x : QueueSt) (c : Cmd) (reg gap : Nat) : State :=
  let s0 := s
  let again (s : State) := s.modQueue q (fun y => { y with wait := some ⟨c.no, reg, s.now + gap, gap⟩ })
  match s.queueRead x (field c.body 0x10 8) 8 with
  | (.ok l, s) =>
    let s := s.tagInst s0 x.inst q c.no
    if field c.body 0x18 8 ≤ leNat l then
      (s.modQueue q (fun y => { y with wait := none })).succeed q c.no 0
    else again s
  | (.error .unitReset, s) => again s
  | (.error (.fault code va info), s) => (s.modQueue q (fun y => { y with wait := none })).cmdFault q x c code va info

def execWaitValue (q : Nat) (s : State) : Res :=
  .next (s.runCmd q 0x02 (fun s x c => s.readWait q x c s.now 100))

/-- WAIT_VALUE_REREAD: a registered wait that is due is read again; the interval doubles up to 50 µs. -/
def execWaitValueReread (q : Nat) (s : State) : Res :=
  match tget s.queues q with
  | none => .next s
  | some x =>
    match x.wait.bind (fun w => (x.cmd w.no).map (fun c => (w, c))) with
    | some (w, c) =>
      if s.now < w.next ∨ !s.up then .next s
      else .next ((s.readWait q x c w.tick (min 5000 (2 * w.gap))).settle)
    | none => .next s

/-- R357: one 8-byte write; held while its page's forme is in reset (14_recovery.md R493). -/
def execWriteValue (q : Nat) (s : State) : Res :=
  .next (s.runCmd q 0x03 (fun s x c =>
    let a := field c.body 0x10 8
    let s0 := s
    match s.queueWrite x a (toLE 8 (field c.body 0x18 8)) with
    | (none, s) => ((s.tagInst s0 x.inst q c.no).wake (s.transQueue x a)).succeed q c.no 0
    | (some .unitReset, _) => s0
    | (some (.fault code va info), s) => s.cmdFault q x c code va info))

/-- R358: FENCE_RESET. -/
def execFenceReset (q : Nat) (s : State) : Res :=
  .next (s.runCmd q 0x04 (fun s x c =>
    let id := field c.body 0x10 2 % 8192
    match tget s.fences id with
    | none => s.refuse q c.no 0x17 0x10
    | some f =>
      if (if x.kind = 0 then !x.mayTouch f.inst else f.ctx != x.ctx) then
        s.refuse q c.no 0x12 (if x.kind = 0 then 0 else 0x10)
      else State.succeed { s with fences := tput s.fences id { f with signalled := false } } q c.no 0))

/-! ## QUERY (R402) -/

/-- Use counted by a quota kind, 1 to 6 (Table 11-8). -/
def State.quotaUse (s : State) (i k : Nat) : Nat :=
  match k with
  | 1 => ((s.ctxs.filter (fun p => p.2.inst == i)).map (fun p => p.2.devUnits)).sum
  | 2 => (s.ctxs.filter (fun p => p.2.inst == i)).length
  | 3 => s.residentCount i
  | 4 => (s.queues.filter (fun p => p.2.inst == i)).length
  | 5 => (s.fences.filter (fun p => p.2.inst == i)).length
  | 6 => (s.serve.seqs.filter (fun p => p.2.inst == i)).length
  | _ => 0

/-- Whether a request that adds n to a use would pass its limit (R391). -/
def State.overQuota (s : State) (i k n : Nat) : Bool :=
  match tget (s.inst i).quotas k with
  | some l => decide (l < s.quotaUse i k + n)
  | none => false

/-- Kinds over their limits (R392). -/
def State.overMask (s : State) (i : Nat) : Nat :=
  ((List.range 7).map (fun k => match tget (s.inst i).quotas k with
    | some l => if 1 ≤ k ∧ l < s.quotaUse i k then 2 ^ k else 0
    | none => 0)).sum

/-- Energy as a tenant reads it (R398). -/
def coarseUJ (pj : Nat) : Nat := pj / 500000000000 * 500000

def sat32 (n : Nat) : Nat := min n 0xFFFFFFFF

/-- Table 11-12. -/
def State.ctxBlock (s : State) (c : Nat) (x : CtxSt) : List Byte :=
  let count (p : Nat × QueueSt → Bool) := (s.queues.filter p).length
  toLE 2 c ++ toLE 1 x.inst ++ toLE 1 x.state.code ++ toLE 1 x.domain ++ toLE 1 (x.slot.getD 0xFF) ++ toLE 2 x.lostCode
    ++ toLE 8 (coarse s.now) ++ toLE 8 (x.acct.ticks / 100) ++ toLE 8 x.acct.hbm ++ toLE 8 x.acct.host ++ toLE 8 x.acct.net
    ++ toLE 8 (coarseUJ x.snapPj) ++ toLE 4 x.devUnits ++ toLE 4 x.hostUnits
    ++ toLE 2 (count (fun p => p.2.kind != 0 && p.2.ctx == c)) ++ toLE 2 (s.fences.filter (fun p => p.2.ctx == c)).length
    ++ toLE 2 (s.seals.filter (fun p => p.2.ctx == c)).length
    ++ toLE 1 ((List.range 16).filter (fun i => s.frameUsable x i)).length ++ toLE 1 x.frames.length
    ++ toLE 4 (s.serve.seqs.filter (fun p => p.2.ctx == c)).length ++ toLE 4 (sat32 x.acct.preempts)
    ++ toLE 8 x.lostTick ++ toLE 4 (sat32 x.acct.switches) ++ toLE 36 0

/-- A signed value in n bytes. -/
def toLEInt (n : Nat) (x : Int) : List Byte := toLE n (ofSigned (8 * n) x)

/-- Table 11-13.  The token count of a platen without a limit is a value that the spec does not state. -/
def State.instBlock (s : State) (i : Nat) : List Byte :=
  let x := s.inst i
  let limit (k : Nat) : Nat := (tget x.quotas k).getD (2 ^ 64 - 1)
  toLE 1 i ++ toLE 1 0 ++ toLE 2 (s.overMask i) ++ toLE 4 0 ++ toLE 8 (coarse s.now) ++ toLE 8 s.mgmt.ledger.open_.no
    ++ toLE 8 (x.period.ticks / 100) ++ toLE 8 x.period.hbm ++ toLE 8 x.period.host ++ toLE 8 x.period.net
    ++ toLE 8 (coarseUJ x.snapPj) ++ toLE 16 0
    ++ [1, 2, 3, 4, 5, 6].flatMap (fun k => toLE 8 (s.quotaUse i k) ++ toLE 8 (limit k))
    ++ toLEInt 8 (x.budget.count / 100) ++ toLE 8 (if x.budget.limited then x.budget.value else 2 ^ 64 - 1)
    ++ (List.range 8).flatMap (fun f => match tget (s.platen f).buckets i with
      | some b => if b.limited then toLE 4 b.rate ++ toLEInt 4 b.count else toLE 4 0xFFFFFFFF ++ toLE 4 (Config.freeValue (s.fresh + f))
      | none => toLE 4 0xFFFFFFFF ++ toLE 4 (Config.freeValue (s.fresh + f)))

/-- The block that a QUERY writes, or its refusal. -/
def State.queryBlock (s : State) (x : QueueSt) (c : Cmd) : Except (Nat × Nat) (List Byte) :=
  let t := field c.body 0x12 2
  if field c.body 0x10 1 = 0 then
    match tget s.ctxs t with
    | none => .error (0x17, 0x12)
    | some y => if x.kind = 0 ∧ !x.mayTouch y.inst then .error (0x12, 0) else .ok (s.ctxBlock t y)
  else if (s.inst t).state = .off ∨ !thas s.host.insts t then .error (0x17, 0x12)
  else .ok (s.instBlock t)

def execQuery (q : Nat) (s : State) : Res :=
  .next (s.runCmd q 0x05 (fun s x c =>
    match s.queryBlock x c with
    | .error (st, d) => s.refuse q c.no st d
    | .ok l =>
      let s0 := s
      match State.queueWrite { s with fresh := s.fresh + 8 } x (field c.body 0x18 8) l with
      | (none, s) => (s.tagInst s0 x.inst q c.no).succeed q c.no l.length
      | (some .unitReset, _) => s0
      | (some (.fault code va info), s) => s.cmdFault q x c code va info))

/-! ## Sealing (R350, R352) -/

/-- The first page of a range that is not mapped with the access asked: its index from the first page. -/
def CtxSt.firstBad (x : CtxSt) (va n : Nat) (rd wr : Bool) : Option Nat :=
  (List.range ((va + n + 65535) / 65536 - va / 65536)).find? (fun i =>
    match x.leafAt ((va / 65536 + i) * 65536) with
    | some (l, _) => (rd && !l.r) || (wr && !l.w)
    | none => true)

/-- The first identifier at or above 0 that is free. -/
def firstFree {α : Type} (t : Tab α) (n : Nat) : Option Nat := lowestFree t n 0

/-- The identifier that a command creates: any free one, or the one it names; RESOURCE or OBJ_STATE. -/
def pickId {α : Type} (t : Tab α) (n named off : Nat) (any : Bool) : Except (Nat × Nat) Nat :=
  if any then (match firstFree t n with | some i => .ok i | none => .error (0x18, 0))
  else if thas t named then .error (0x17, off) else .ok named

def State.sealProgram (s : State) (q : Nat) (x : QueueSt) (c : Cmd) : State :=
  let f (off n : Nat) := field c.body off n
  let cid := f 0x10 2
  let any := bit (f 0x12 2) 15
  let named := f 0x12 2 % 4096
  let va := f 0x18 8
  let no (st d : Nat) := s.refuse q c.no st d
  match s.namedCtx x cid 0x10 with
  | .error (st, d) => no st d
  | .ok cx =>
    if !any && thas s.seals named then no 0x17 0x12
    else if s.sec.keyless then no 0x6F 0
    else match cx.firstBad va 256 true false with
      | some i => no 0x34 i
      | none =>
        let s0 := s
        match s.ctxRead cid va 256 with
        | (.error (.fault code a info), s) => s.cmdFault q x c code a info
        | (.error .unitReset, _) => s0
        | (.ok h, s1) =>
          let n := (imageOf h).imageBytes
          if !(within 256 (2 ^ 20) n && n % 256 == 0) then s1.refuse q c.no 0x14 0
          else match cx.firstBad va n true false with
            | some i => s1.refuse q c.no 0x34 i
            | none =>
              match s0.ctxRead cid va n with
              | (.error (.fault code a info), s) => s.cmdFault q x c code a info
              | (.error .unitReset, _) => s0
              | (.ok l, s) =>
                let s := s.tagInst s0 cx.inst q c.no
                if !imageOk l then s.refuse q c.no 0x14 0
                else match pickId s.seals 4096 named 0x12 any with
                  | .error (st, d) => s.refuse q c.no st d
                  | .ok h =>
                    let im := imageOf l
                    let gen := (s.sealCount + 1) % 2 ^ 32
                    let tag := sealTag s.sealKey cid h gen va im l
                    let e : SealSt := ⟨cid, gen, va, n, tag, im, (l.drop im.costOff).take im.costLen⟩
                    State.succeed { s with seals := tput s.seals h e, sealCount := gen } q c.no h

def execSealProgram (q : Nat) (s : State) : Res := .next (s.runCmd q 0x10 (fun s x c => s.sealProgram q x c))

/-- R352: UNSEAL. -/
def execUnseal (q : Nat) (s : State) : Res :=
  .next (s.runCmd q 0x11 (fun s x c =>
    let h := field c.body 0x10 2 % 4096
    match tget s.seals h with
    | none => s.refuse q c.no 0x17 0x10
    | some e =>
      match s.namedCtx x e.ctx 0x10 with
      | .error (st, d) => s.refuse q c.no st d
      | .ok _ => State.succeed { s with seals := tdel s.seals h } q c.no 0))

end Sys2Proof.Machine
end

