-- ==== Sys2Proof/Machine/ObjectCmd.lean ====
section
/-! DEFINITION. The meanings of the kernel commands that create, change and destroy objects: mappings
(10_queues.md R348, R349, 12_host_port.md R410 to R412, 05_tables.md R176), contexts (11_scheduling.md R372,
10_queues.md R368), queues and fences (R337, R358, R362, R366 to R368), quotas (11_scheduling.md R390). -/

namespace Sys2Proof.Machine

/-! ## Mapping -/

/-- R515, R517: whether an instance may use a forme. -/
def State.formeAllowed (s : State) (inst f : Nat) : Bool :=
  bit ((tget s.sec.prot.limits (inst / 4)).getD 0xFFFFFFFF) (inst % 4 * 8 + f)

/-- Owner of the granule that holds a device address, and whether it is in the frisket pool (R408, R411). -/
def State.grantOf (s : State) (a : Nat) : Option (Nat × Bool) := tget s.host.grants (a / 2 ^ 21)

/-- Whether a device page is granted to an instance and is not pool. -/
def State.granted (s : State) (inst a : Nat) : Bool :=
  match s.grantOf a with
  | some (i, pool) => i == inst && !pool
  | none => false

/-- Whether a page lies in the CXL.mem region (R417). -/
def State.inHdm (s : State) (a : Nat) : Bool :=
  match s.host.hdm with
  | some (b, n) => decide (b ≤ a) && decide (a < b + n)
  | none => false

/-- Whether a range holds a byte of an area of a table that is not FREE (R176). -/
def State.tableIn (s : State) (a n : Nat) : Bool := s.tables.any (fun p => areasMeet [(a, n)] p.2.allAreas)

/-- Whether a range holds the record page of a context (R372). -/
def State.recordIn (s : State) (a n : Nat) : Bool := s.ctxs.any (fun p => overlaps p.2.recordPA 65536 a n)

def psizeBytes (p : Nat) : Nat := if p = 0 then 65536 else 2 ^ 21

/-- Record of a 64 KiB device page (R412). -/
def State.pageRec (s : State) (a : Nat) : PageRec := (tget s.host.pages (a / 65536)).getD ⟨false, 0⟩

/-- The 64 KiB pages of a range. -/
def pages64 (a n : Nat) : List Nat := (List.range (n / 65536)).map (fun i => a + 65536 * i)

/-- Pool bytes of an instance: what its granules give, and what its friskets and page records take (R411,
R412). -/
def State.poolSize (s : State) (inst : Nat) : Nat :=
  2 ^ 21 * (s.host.grants.filter (fun p => p.2.1 == inst && p.2.2)).length
def State.poolUsed (s : State) (inst : Nat) : Nat :=
  let grans := (s.host.pages.filter (fun p => (s.grantOf (65536 * p.1)).map (·.1) == some inst)).map (fun p => p.1 / 32)
  ((s.ctxs.filter (fun p => p.2.inst == inst)).map (fun p => p.2.poolBytes)).sum + roundUp (64 * grans.dedup.length) 256

/-- Raise or lower the mapping counts of a device page range, setting its TABLE bits (R412). -/
def State.countPages (s : State) (a n : Nat) (up : Bool) (table : Bool) : State :=
  { s with host := { s.host with pages := (pages64 a n).foldl (fun t p =>
      let r := (tget t (p / 65536)).getD ⟨false, 0⟩
      tput t (p / 65536) (if up then ⟨table, r.maps + 1⟩ else ⟨r.table, r.maps - 1⟩)) s.host.pages } }

/-- The first index among n that meets a condition. -/
def firstIdx (n : Nat) (p : Nat → Bool) : Option Nat := (List.range n).find? p

/-- A context with the pages of a MAP. -/
def CtxSt.withLeaves (cx : CtxSt) (psize attr n va target : Nat) (hdm : Nat → Bool) : CtxSt :=
  let sz := psizeBytes psize
  { cx with leaves := (List.range n).foldl (fun t i =>
      tput t ((va + sz * i) / 65536)
        ⟨psize != 0, bit attr 3, bit attr 2, bit attr 1, bit attr 0, !bit attr 3 && hdm (target + sz * i), target + sz * i⟩) cx.leaves }

/-- R348, R372, R411, R412: why a MAP is refused. -/
def State.mapFail (s : State) (x : QueueSt) (cid : Nat) (cx : CtxSt) (psize attr n va target : Nat) : Option (Nat × Nat) :=
  let sz := psizeBytes psize
  let host := bit attr 3
  let table := bit attr 2
  let page (i : Nat) : Nat := target + sz * i
  if va % sz ≠ 0 ∨ 2 ^ 48 ≤ va then some (0x32, 0x18)
  else if target % sz ≠ 0 then some (0x32, 0x20)
  else if 2 ^ 48 < va + n * sz then some (0x32, 0x14)
  else if !host && (List.range n).any (fun i => decide (2 ^ 39 ≤ page i) || !contextByte (page i) || !contextByte (page i + sz - 1)) then
    some (0x30, 0x20)
  else
    let denied (i : Nat) : Bool :=
      (!host && (!s.granted cx.inst (page i) || !s.formeAllowed cx.inst (stackOf (page i))
          || s.domainOf (stackOf (page i)) != cx.domain || (table && s.inHdm (page i))))
      || (table && host) || attr % 4 == 0 || (host && s.exclusive) || (host && x.inst != 0 && !bit s.sec.prot.frPolicy 1)
    match firstIdx n denied with
    | some i => some (0x33, i)
    | none =>
      let mapped (a : Nat) : Bool := (cx.leafAt a).isSome
      let conflict (i : Nat) : Bool :=
        (if psize = 0 then mapped (va + sz * i) else (pages64 (va + sz * i) sz).any mapped)
        || (!host && (s.recordIn (page i) sz
            || (pages64 (page i) sz).any (fun p => (s.pageRec p).maps != 0 && (s.pageRec p).table != table)))
      match firstIdx n conflict with
      | some i => some (0x31, i)
      | none =>
        if host then
          (if decide (s.poolSize cx.inst < s.poolUsed cx.inst + (cx.withLeaves psize attr n va target (fun _ => false)).poolBytes - cx.poolBytes)
            then some (0x18, 0) else none)
        else if s.overQuota cx.inst 1 (n * sz / 65536) then some (0x24, 0)
        else if !table && s.tableIn target (n * sz) then some (0x44, 0x20)
        else if (pages64 target (n * sz)).any (fun p => decide (32767 ≤ (s.pageRec p).maps)) then some (0x18, 0)
        else
          let t := (s.countPages target (n * sz) true table).modCtx cid (fun y => y.withLeaves psize attr n va target s.inHdm)
          if t.poolSize cx.inst < t.poolUsed cx.inst then some (0x18, 0) else none

/-- MAP (R348): applied whole or not at all. -/
def execMap (q : Nat) (s : State) : Res :=
  .next (s.runCmd q 0x18 (fun s x c =>
    let f (off n : Nat) := field c.body off n
    let cid := f 0x10 2
    let psize := f 0x12 1
    let attr := f 0x13 1
    let n := f 0x14 4
    match s.namedCtx x cid 0x10 with
    | .error (st, d) => s.refuse q c.no st d
    | .ok cx =>
      match s.mapFail x cid cx psize attr n (f 0x18 8) (f 0x20 8) with
      | some (st, d) => s.refuse q c.no st d
      | none =>
        let hdm := s.inHdm
        let s := if bit attr 3 then s else s.countPages (f 0x20 8) (n * psizeBytes psize) true (bit attr 2)
        let s := s.modCtx cid (fun y => { (y.withLeaves psize attr n (f 0x18 8) (f 0x20 8) hdm) with gen := (y.gen + 1) % 2 ^ 32 })
        (s.friskChanged cx.inst).succeed q c.no 0))

/-- The leaves of n pages of a size from an address; the index of the first page not so mapped. -/
def CtxSt.leavesAt (x : CtxSt) (psize n va : Nat) : Except Nat (List Leaf) :=
  match firstIdx n (fun i => match tget x.leaves ((va + psizeBytes psize * i) / 65536) with
      | some l => l.big != (psize != 0)
      | none => true) with
  | some i => .error i
  | none => .ok ((List.range n).filterMap (fun i => tget x.leaves ((va + psizeBytes psize * i) / 65536)))

/-- Whether a range of virtual addresses touches a save frame held by a stopped step (R383). -/
def CtxSt.frameHeld (x : CtxSt) (va n : Nat) : Bool :=
  x.frames.any (fun f => overlaps (0xFFFF00000000 + f.1 * 0x10000000) 0x10000000 va n)

/-- Remove leaves from a context, and their mappings from the page records. -/
def State.dropLeaves (s : State) (cid : Nat) (l : List (Nat × Leaf)) : State :=
  let s := l.foldl (fun s p => if p.2.host then s else s.countPages p.2.target (if p.2.big then 2 ^ 21 else 65536) false false) s
  s.modCtx cid (fun y => { y with leaves := y.leaves.filter (fun p => !l.any (fun r => r.1 == p.1)), gen := (y.gen + 1) % 2 ^ 32 })

/-- UNMAP (R349): no transaction of this model stays in flight through a removed entry. -/
def execUnmap (q : Nat) (s : State) : Res :=
  .next (s.runCmd q 0x19 (fun s x c =>
    let f (off n : Nat) := field c.body off n
    let cid := f 0x10 2
    let psize := f 0x12 1
    let n := f 0x14 4
    let va := f 0x18 8
    let no (st d : Nat) := s.refuse q c.no st d
    match s.namedCtx x cid 0x10 with
    | .error (st, d) => no st d
    | .ok cx =>
      match cx.leavesAt psize n va with
      | .error i => no 0x34 i
      | .ok ls =>
        if cx.frameHeld va (n * psizeBytes psize) then no 0x17 0x18
        else if ls.any (fun l => !l.host && s.tableIn l.target (psizeBytes psize)) then no 0x44 0x18
        else
          let gone := cx.leaves.filter (fun p => decide (va / 65536 ≤ p.1) && decide (p.1 < (va + n * psizeBytes psize) / 65536))
          ((s.dropLeaves cid gone).friskChanged cx.inst).succeed q c.no 0))

/-- MAP_ATTR (R349, R412). -/
def execMapAttr (q : Nat) (s : State) : Res :=
  .next (s.runCmd q 0x1A (fun s x c =>
    let f (off n : Nat) := field c.body off n
    let cid := f 0x10 2
    let psize := f 0x12 1
    let attr := f 0x13 1
    let n := f 0x14 4
    let va := f 0x18 8
    let no (st d : Nat) := s.refuse q c.no st d
    let sz := psizeBytes psize
    match s.namedCtx x cid 0x10 with
    | .error (st, d) => no st d
    | .ok cx =>
      if attr % 4 = 0 then no 0x33 0
      else match cx.leavesAt psize n va with
        | .error i => no 0x34 i
        | .ok ls =>
          let at_ (i : Nat) : Leaf := (ls[i]?).getD ⟨false, false, false, false, false, false, 0⟩
          let shared (i : Nat) : Bool := !(at_ i).host && (at_ i).table != bit attr 2
            && (pages64 (at_ i).target sz).any (fun p => decide (1 < (s.pageRec p).maps))
          let denied (i : Nat) : Bool := bit attr 2 && ((at_ i).host || (at_ i).hdm)
          match firstIdx n (fun i => (at_ i).host != bit attr 3) with
          | some i => no 0x31 i
          | none =>
            if cx.frameHeld va (n * sz) then no 0x17 0x18
            else if !bit attr 2 && ls.any (fun l => l.table && s.tableIn l.target sz) then no 0x44 0x18
            else match firstIdx n shared, firstIdx n denied with
              | some i, _ => no 0x31 i
              | none, some i => no 0x33 i
              | none, none =>
                let s := ls.foldl (fun s l => if l.host then s
                  else (pages64 l.target sz).foldl (fun s p => { s with host := { s.host with
                    pages := tmod s.host.pages (p / 65536) (fun (r : PageRec) => { r with table := bit attr 2 }) } }) s) s
                let s := s.modCtx cid (fun y => { y with
                  gen := (y.gen + 1) % 2 ^ 32,
                  leaves := tmap y.leaves (fun k l =>
                    if va / 65536 ≤ k ∧ k < (va + n * sz) / 65536 then { l with table := bit attr 2, w := bit attr 1, r := bit attr 0 } else l) })
                (s.friskChanged cx.inst).succeed q c.no 0))

/-! ## Contexts -/

/-- CTX_CREATE (R372, R517). -/
def execCtxCreate (q : Nat) (s : State) : Res :=
  .next (s.runCmd q 0x20 (fun s x c =>
    let f (off n : Nat) := field c.body off n
    let dom := f 0x12 1
    let pa := f 0x18 8
    let i := x.inst
    let per := 8 / s.domains
    let no (st d : Nat) := s.refuse q c.no st d
    match pickId s.ctxs 4096 (f 0x10 2 % 4096) 0x10 (bit (f 0x10 2) 15) with
    | .error (st, d) => no st d
    | .ok cid =>
      if s.overQuota i 2 1 then no 0x24 0
      else if !contextByte pa || decide (2 ^ 39 ≤ pa) || (s.grantOf pa).map (·.1) != some i || s.domainOf (stackOf pa) != dom
          || !(List.range per).any (fun k => s.formeAllowed i (dom * per + k)) then no 0x33 0
      else if s.recordIn pa 65536 || s.ctxs.any (fun p => p.2.leaves.any (fun l =>
          !l.2.host && overlaps l.2.target (if l.2.big then 2 ^ 21 else 65536) pa 65536)) then no 0x31 0
      else if !s.formeUp (stackOf pa) then s
      else
        let y : CtxSt :=
          { inst := i, state := .idle, domain := dom, pasid := f 0x14 4, recordPA := pa, slot := none, used := 0, lostCode := 0,
            lostTick := 0, createTick := s.now, acct := Account.zero, snapPj := 0, gen := 0, leaves := [], l1 := 0, frames := [],
            teardown := none }
        let s := s.devWrite pa (List.replicate 65536 0) false
        (State.writeRecord { s with ctxs := tput s.ctxs cid y } cid).succeed q c.no cid))

/-- What goes with a context: its seals, its mappings, its sequences, update rings and aperture. -/
def State.freeCtx (s : State) (cid : Nat) : State :=
  match tget s.ctxs cid with
  | none => s
  | some cx =>
    let s := if cx.state = .resident then s.evictCtx cid else s
    let s := s.dropLeaves cid cx.leaves
    let s := s.modInst cx.inst (fun y => { y with aperture := if y.aperture = some cid then none else y.aperture })
    State.friskChanged (i := cx.inst) { s with
      ctxs := tdel s.ctxs cid, seals := tkeep s.seals (fun _ e => e.ctx != cid),
      galleys := s.galleys.map (fun (y : GalleySt) =>
        if y.ctx = some cid then { y with ctx := none, image := none, storesCtx := none, storesKept := false, comp := { y.comp with status := .idle } } else y),
      upd := { s.upd with rings := tkeep s.upd.rings (fun k _ => k / 4 != cid) },
      serve := { s.serve with seqs := tkeep s.serve.seqs (fun _ e => e.ctx != cid),
                              models := tkeep s.serve.models (fun _ m => m.ctx != cid),
                              batches := tkeep s.serve.batches (fun _ b => b.conf.ctx != cid) } }

/-- CTX_DESTROY (R368): refused while a queue or fence of the context exists. -/
def execCtxDestroy (q : Nat) (s : State) : Res :=
  .next (s.runCmd q 0x21 (fun s x c =>
    let cid := field c.body 0x10 2
    match s.namedCtx x cid 0x10 with
    | .error (st, d) => s.refuse q c.no st d
    | .ok cx =>
      if s.queues.any (fun p => p.2.kind != 0 && p.2.ctx == cid) || s.fences.any (fun p => p.2.ctx == cid) then
        s.refuse q c.no 0x17 0x10
      else if cx.state = .resident ∧ !s.formeUp (stackOf cx.recordPA) then s
      else (s.freeCtx cid).succeed q c.no 0))

/-! ## Queues -/

/-- Galleys of a mask, in ascending order: the ranks (04_galleys.md R145). -/
def maskGalleys (m : Nat) : List Nat := (List.range 64).filter (bit m)

/-- R362: whether every galley lies in a domain and within an instance's limits. -/
def State.galleysOk (s : State) (inst dom : Nat) (l : List Nat) : Bool :=
  l.all (fun g => s.domainOf (formeOf g) == dom && s.formeAllowed inst (formeOf g))

/-- A queue as it is created (R369). -/
def QueueSt.fresh (kind ctx inst log2 sq cq vector : Nat) (ranks : List Nat) : QueueSt :=
  { kind := kind, ctx := ctx, inst := inst, sqLog2 := log2, sqVA := sq, cqVA := cq, ranks := ranks, vector := vector,
    deadlineRel := 0, wdogMs := 1000, epoch := 1, head := 0, tail := 0, cqWritten := 0, cqHead := 0, flushTail := 0, fetch := 0,
    flush := none, stalled := none, stopped := false, cqFull := false, dbDropped := false, drops := 0, cmds := [], nextNo := 0,
    arrivals := 0, wait := none, wdog := 0, bootstrap := false }

/-- R334, R391: a free queue ID for an instance. -/
def State.pickQueue (s : State) (inst kind named : Nat) (any : Bool) : Except (Nat × Nat) Nat :=
  match pickId s.queues 2048 named 0x10 any with
  | .error e => .error e
  | .ok i =>
    if kind = 0 ∧ 4 ≤ (s.queues.filter (fun p => p.2.kind == 0 && p.2.inst == inst)).length then .error (0x18, 0)
    else if s.overQuota inst 4 1 then .error (0x24, 0)
    else .ok i

/-- A vector that the owning function does not have (R359). -/
def badVector (inst v : Nat) : Bool := v != 0xFFFF && decide ((if inst = 0 then 2048 else 64) ≤ v)

/-- QUEUE_CREATE (R337, R362). -/
def execQueueCreate (q : Nat) (s : State) : Res :=
  .next (s.runCmd q 0x24 (fun s x c =>
    let f (off n : Nat) := field c.body off n
    let kind := f 0x12 1
    let log2 := f 0x13 1
    let cid := f 0x14 2
    let no (st d : Nat) := s.refuse q c.no st d
    let make (id inst : Nat) (ctx : Nat) (ranks : List Nat) : State :=
      let y := QueueSt.fresh kind ctx inst log2 (f 0x18 8) (f 0x20 8) (f 0x16 2) ranks
      let y := { y with deadlineRel := f 0x30 4, wdogMs := if f 0x34 2 = 0 then 1000 else f 0x34 2 }
      State.succeed { s with queues := tput s.queues id y } q c.no id
    let pick (inst : Nat) := s.pickQueue inst kind (f 0x10 2) (bit (f 0x36 2) 0)
    if kind = 0 then
      match pick x.inst with
      | .error (st, d) => no st d
      | .ok id => make id x.inst 0 []
    else match s.namedCtx x cid 0x14 with
      | .error (st, d) => no st d
      | .ok cx =>
        let gs := maskGalleys (f 0x28 8)
        if badVector cx.inst (f 0x16 2) then no 0x16 0x16
        else if !s.galleysOk cx.inst cx.domain gs then no 0x12 0
        else match pick cx.inst with
          | .error (st, d) => no st d
          | .ok id =>
            match cx.firstBad (f 0x18 8) (64 * 2 ^ log2) true false, cx.firstBad (f 0x20 8) (64 * 2 ^ log2) true true with
            | none, none => make id cx.inst cid gs
            | some i, _ => no 0x34 i
            | none, some i => no 0x34 i))

/-- A queue that a kernel command names. -/
def State.namedQueue (s : State) (x : QueueSt) (id off : Nat) : Except (Nat × Nat) QueueSt :=
  match tget s.queues id with
  | none => .error (0x17, off)
  | some y =>
    if !x.mayTouch y.inst then .error (0x12, 0)
    else if (s.inst y.inst).state = .resetting then .error (0x17, off)
    else .ok y

/-- QUEUE_DESTROY (R368). -/
def execQueueDestroy (q : Nat) (s : State) : Res :=
  .next (s.runCmd q 0x25 (fun s x c =>
    let id := field c.body 0x10 2
    match s.namedQueue x id 0x10 with
    | .error (st, d) => s.refuse q c.no st d
    | .ok _ => (s.begin_ q c.no).applyFlush id [(q, c.no)] true))

/-- QUEUE_BIND (R362): for commands that have not started. -/
def execQueueBind (q : Nat) (s : State) : Res :=
  .next (s.runCmd q 0x26 (fun s x c =>
    let id := field c.body 0x10 2
    let gs := maskGalleys (field c.body 0x18 8)
    match s.namedQueue x id 0x10 with
    | .error (st, d) => s.refuse q c.no st d
    | .ok y =>
      if y.kind = 0 then s.refuse q c.no 0x17 0x10
      else match tget s.ctxs y.ctx with
        | none => s.refuse q c.no 0x17 0x10
        | some cx =>
          if !s.galleysOk y.inst cx.domain gs then s.refuse q c.no 0x12 0
          else
            let claim (l : List Nat) : List Nat := if y.kind = 1 then gs else if l.all gs.contains then l else gs.take 1
            let s := s.modQueue id (fun y => { y with
              ranks := gs, cmds := y.cmds.map (fun (d : Cmd) => match d.claimant with
                | some g => if d.st = .fetched ∧ !gs.contains g then { d with claimant := gs.head? } else d
                | none => d) })
            let s := { s with steps := tmap s.steps (fun _ (p : StepRec) =>
              if p.queue = id ∧ p.st = StepSt.pending ∧ (y.cmd p.no).map (fun (d : Cmd) => d.st) = some CmdSt.fetched then { p with galleys := claim p.galleys } else p) }
            s.succeed q c.no 0))

/-- QUEUE_FLUSH (R366). -/
def execQueueFlush (q : Nat) (s : State) : Res :=
  .next (s.runCmd q 0x27 (fun s x c =>
    let id := field c.body 0x10 2
    match s.namedQueue x id 0x10 with
    | .error (st, d) => s.refuse q c.no st d
    | .ok _ => (s.begin_ q c.no).applyFlush id [(q, c.no)] false))

/-! ## Fences -/

/-- FENCE_CREATE (R358). -/
def execFenceCreate (q : Nat) (s : State) : Res :=
  .next (s.runCmd q 0x28 (fun s x c =>
    let f (off n : Nat) := field c.body off n
    let no (st d : Nat) := s.refuse q c.no st d
    match s.namedCtx x (f 0x12 2) 0x12 with
    | .error (st, d) => no st d
    | .ok cx =>
      if badVector cx.inst (f 0x14 2) then no 0x16 0x14
      else match pickId s.fences 8192 (f 0x10 2 % 8192) 0x10 (bit (f 0x10 2) 15) with
        | .error (st, d) => no st d
        | .ok id =>
          if s.overQuota cx.inst 5 1 then no 0x24 0
          else State.succeed { s with fences := tput s.fences id ⟨f 0x12 2, cx.inst, f 0x18 8, f 0x14 2, false, 0⟩ } q c.no id))

/-- FENCE_DESTROY (R358). -/
def execFenceDestroy (q : Nat) (s : State) : Res :=
  .next (s.runCmd q 0x29 (fun s x c =>
    let id := field c.body 0x10 2
    match tget s.fences id with
    | none => s.refuse q c.no 0x17 0x10
    | some f =>
      match s.namedCtx x f.ctx 0x10 with
      | .error (st, d) => s.refuse q c.no st d
      | .ok _ => State.succeed { s with fences := tdel s.fences id } q c.no 0))

/-! ## Quotas -/

/-- R390: the first field of a QUOTA_SET outside its range; `dom` for the values of Table 11-8. -/
def quotaFail (kind mask value depth : Nat) : Option Nat :=
  let unlimited := value == (if kind = 0 then 0xFFFFFFFF else 2 ^ 64 - 1)
  let top := match kind with
    | 0 => 800000 | 1 => 7864320 | 2 => 4096 | 3 => 64 | 4 => 2048 | 5 => 8192 | 6 => 262144 | _ => 64000
  if 7 < kind then some 0x10
  else if (kind == 0) == (mask == 0) then some 0x12
  else if !unlimited && decide (top < value) then some 0x18
  else if kind = 0 then (if unlimited || within value (8 * value) depth then none else some 0x20)
  else if kind = 7 then (if unlimited || within value (1000 * value) depth then none else some 0x20)
  else if depth = 0 then none else some 0x20

/-- R390, R216, R378: set one quota of an instance that exists. -/
def State.setQuota (s : State) (kind inst mask value depth : Nat) : State :=
  match kind with
  | 0 => (List.range 8).foldl (fun s f =>
      if bit mask f then s.modPlaten f (fun p =>
        let b := (tget p.buckets inst).getD ⟨0, 0, 0, none, false⟩
        { p with buckets := tput p.buckets inst { b with newRate := some (value, depth, s.now) } })
      else s) s
  | 7 => s.modInst inst (fun y => { y with budget := { y.budget with
      set := some (if value = 2 ^ 64 - 1 then none else some (value, depth)) } })
  | k => s.modInst inst (fun y => { y with quotas := if value = 2 ^ 64 - 1 then tdel y.quotas k else tput y.quotas k value })

/-- QUOTA_SET. -/
def execQuotaSet (q : Nat) (s : State) : Res :=
  .next (s.runCmd q 0x30 (fun s _ c =>
    let f (off n : Nat) := field c.body off n
    let i := f 0x11 1
    match quotaFail (f 0x10 1) (f 0x12 1) (f 0x18 8) (f 0x20 8) with
    | some o => s.refuse q c.no 0x10 o
    | none =>
      if (s.inst i).state = .off ∨ (s.inst i).state = .resetting then s.refuse q c.no 0x17 0x11
      else (s.setQuota (f 0x10 1) i (f 0x12 1) (f 0x18 8) (f 0x20 8)).succeed q c.no 0))

end Sys2Proof.Machine
end

