-- ==== Sys2Proof/Machine/Doorbell.lean ====
section
/-! DEFINITION. Doorbells, fetch and claims, the bootstrap kernel queue (10_queues.md R339 to R342, R346, R360,
R361, R365, R366, R370). -/

namespace Sys2Proof.Machine

/-- Whether a function's register accesses are taken: it exists, is in D0 and is not being reset. -/
def State.fnServes (s : State) (fn : Nat) : Bool :=
  s.up && !(s.inst fn).d3 && ((s.inst fn).state == .enabled || (s.inst fn).state == .frozen)

/-- The queue behind a doorbell page of a function (12_host_port.md R416). -/
def State.doorQueue (s : State) (fn q : Nat) : Option QueueSt :=
  match tget s.queues q with
  | some x => if x.inst = fn && s.fnServes fn then some x else none
  | none => none

/-- A doorbell or head write is dropped, and counted (R342). -/
def QueueSt.drop (x : QueueSt) : QueueSt := { x with dbDropped := true, drops := (x.drops + 1) % 2 ^ 32 }

/-- R342: a write of DB_TAIL to a queue. -/
def QueueSt.ring (x : QueueSt) (value : Nat) : QueueSt :=
  let tail := value % 2 ^ 32
  let ahead (a b : Nat) : Nat := (a + 2 ^ 32 - b) % 2 ^ 32
  if value / 2 ^ 48 % 65536 ≠ x.epoch ∨ x.size < ahead tail x.head ∨ 2 ^ 31 ≤ ahead tail x.tail then x.drop
  else { x with tail := tail }

/-- DB_TAIL. -/
def execDbTail (fn q value : Nat) (s : State) : Res :=
  match s.doorQueue fn q with
  | none => .next s
  | some _ => .next (s.modQueue q (fun x => x.ring value))

/-- DB_CQ_HEAD (R365). -/
def execDbCqHead (fn q value : Nat) (s : State) : Res :=
  match s.doorQueue fn q with
  | none => .next s
  | some x =>
    let h := value % 2 ^ 32
    if x.unconsumed < (h + 2 ^ 32 - x.cqHead) % 2 ^ 32 then .next (s.modQueue q QueueSt.drop)
    else .next ((s.modQueue q (fun x => { x with cqHead := h })).settle)

/-- FLUSH (R366): 1 written to FLUSH in DB_STATUS. -/
def execFlush (fn q : Nat) (s : State) : Res :=
  match s.doorQueue fn q with
  | none => .next s
  | some _ => .next ((s.applyFlush q [] false).settle)

/-! ## Fetch -/

/-- Whether a queue has a published command to fetch, and nothing holds its fetch back. -/
def State.fetchable (s : State) (x : QueueSt) : Bool :=
  s.up && s.instRuns x.inst && x.flush.isNone && !x.stopped && x.fetch != x.tail

/-- COMMAND_FETCH (R346): the fetch units of a kernel or gang queue read its next command. -/
def execCommandFetch (q : Nat) (s : State) : Res :=
  match tget s.queues q with
  | none => .next s
  | some x =>
    if s.fetchable x && x.stalled.isNone && x.kind != 2 then .next ((s.fetchCommand q x none).settle) else .next s

/-- STALLED_REFETCH (R339): the command at which a queue is stalled is read again when its back-off is
through; in a spread queue it is then free to be claimed. -/
def execStalledRefetch (q : Nat) (s : State) : Res :=
  match tget s.queues q with
  | none => .next s
  | some x =>
    match x.stalled with
    | none => .next s
    | some (due, _) =>
      if !s.fetchable x || decide (s.now < due) then .next s
      else if x.kind ≠ 2 then .next ((s.fetchCommand q x none).settle)
      else
        match s.readCommand x x.fetch x.tail with
        | (.whole _, s) => .next (s.modQueue q (fun y => { y with stalled := none }))
        | (.unpublished, s) => .next s
        | (.torn, s) => .next (s.modQueue q (fun y => y.backOff s.now))
        | (.failed .retry, s) => .next (s.modQueue q (fun y => y.backOff s.now))
        | (.failed (.acc e), s) => .next (((s.modQueue q (fun y => { y with stopped := true })).accFault x.ctx e none).settle)

/-- R361: whether galley g's preload area is free: it has claimed no LAUNCH that has not started. -/
def State.preloadFree (s : State) (g : Nat) : Bool :=
  !s.queues.any (fun p => p.2.cmds.any (fun c => c.claimant == some g && c.op == 1 && c.st == .fetched))

/-- SPREAD_CLAIM (R361): the claim counter's command goes to galley g; held back at a BARRIER whose
predecessors are not complete. -/
def execSpreadClaim (q g : Nat) (s : State) : Res :=
  match tget s.queues q with
  | none => .next s
  | some x =>
    if !(s.fetchable x && x.stalled.isNone && x.kind == 2 && x.ranks.contains g && s.galleyUp g && s.preloadFree g
        && x.wait.isNone) then .next s
    else
      match s.readSlot x x.fetch with
      | (.ok b, _) =>
        let w := field b 0 8
        let barrier := bit w 9 || w % 256 == 3
        let clear := x.cmds.all (fun d => match d.st with | .done _ _ => true | _ => false)
        if x.intact x.fetch 0 w w && barrier && !clear then .next s
        else .next ((s.fetchCommand q x (some g)).settle)
      | _ => .next ((s.fetchCommand q x (some g)).settle)

/-! ## The bootstrap kernel queue (R370) -/

/-- Create the bootstrap queue from a function's registers, or set KQ_ERROR. -/
def State.kqCreate (s : State) (fn : Nat) : State :=
  let r := (s.inst fn).fn
  let bytes := 64 * 2 ^ r.kqLog2
  let top := if s.exclusive then (match (s.inst fn).staging with | some (_, n) => n | none => 0) else 2 ^ 64
  let fail := s.modFn fn (fun y => { y with kqError := true })
  if r.kqLog2 < 6 ∨ 12 < r.kqLog2 ∨ r.kqSq % bytes ≠ 0 ∨ r.kqCq % bytes ≠ 0 ∨ top < r.kqSq + bytes ∨ top < r.kqCq + bytes then fail
  else match s.pickQueue fn 0 0 true with
    | .error _ => fail
    | .ok id =>
      let x := { QueueSt.fresh 0 0 fn r.kqLog2 r.kqSq r.kqCq r.kqVector [] with bootstrap := true }
      State.modFn { s with queues := tput s.queues id x } fn (fun y => { y with kqId := some id, kqError := false })

/-- A write of FN_KQ_CTRL, under R18's rule for a register that holds its own locking bit. -/
def State.writeKqCtrl (s : State) (fn v : Nat) : State :=
  if s.bnd.power = .safe ∧ fn = 0 then
    -- safe mode (17_boundary.md R609)
    s.modFn 0 (fun y => { y with kqEnable := bit v 31, kqError := bit v 31 })
  else if !s.fnServes fn then s
  else
    let r := (s.inst fn).fn
    let on := bit v 31
    let same := decide (bits v 20 16 = r.kqLog2) && decide (bits v 15 0 = r.kqVector)
    let s := if r.kqEnable then (if same then s else s.lockViolation 0x018 (some fn))
      else s.modFn fn (fun y => { y with kqLog2 := bits v 20 16, kqVector := bits v 15 0 })
    let s := s.modFn fn (fun y => { y with kqEnable := on, kqError := false })
    if on && !r.kqEnable then s.kqCreate fn
    else if !on && r.kqEnable then
      (match r.kqId with
       | some id => (s.applyFlush id [] true).settle
       | none => s)
    else s

/-- KQ_ENABLE: a write of FN_KQ_CTRL with ENABLE set. -/
def execKqEnable (fn v : Nat) (s : State) : Res := if bit v 31 then .next (s.writeKqCtrl fn v) else .next s

/-- KQ_DISABLE: a write of FN_KQ_CTRL with ENABLE clear. -/
def execKqDisable (fn v : Nat) (s : State) : Res := if bit v 31 then .next s else .next (s.writeKqCtrl fn v)

end Sys2Proof.Machine
end

