-- ==== Sys2Proof/Machine/SchedCmd.lean ====
section
/-! DEFINITION. The end of a stop, budgets, the ledger and its journal (11_scheduling.md R378, R383, R384, R399
to R401). -/

namespace Sys2Proof.Machine

/-- A step's stop has ended on every galley of its set. -/
def State.stepStopped (s : State) (p : StepRec) : Bool := p.galleys.all (fun g => (s.galley g).allStopped)

/-- The galley of a stopped step, free for the next one. -/
def GalleySt.release (y : GalleySt) : GalleySt :=
  { y with owner := none, cur := none, next := none, share := none, slivers := [], moves := [], msgs := [], barS := [], barG := [],
           preempt := false, loading := false, storesCtx := none, comp := { y.comp with status := .idle } }

/-- PREEMPT_SAVE_DONE (R384): the stopped state of a step is in its save frame, and its galleys pass on.  A
failing write loses the context; the unit-reset response ends the step. -/
def execPreemptSaveDone (k : Nat) (s : State) : Res :=
  match tget s.steps k with
  | none => .next s
  | some p =>
    if p.st ≠ .stopping ∨ !s.stepStopped p then .next s
    else match (tget s.ctxs p.ctx).bind (fun x => s.freeFrame x) with
      | none => .next s
      | some fr =>
        let s0 := s
        let r := s.saveStep p fr
        let s := (State.keepTokens s0 r.2).tagInst s0 p.inst p.queue p.no
        match r.1 with
        | some (.fault code va info) => .next ((s.accFault p.ctx (.fault code va info) none).settle)
        | some .unitReset => .next (((s.finish p.queue p.no 0x23 0).endStep k true).settle)
        | none =>
          let kept : Tab GalleySt := p.galleys.foldl (fun t g => tput t g (s.galley g).stopKeep) []
          let s := p.galleys.foldl (fun s g => s.modGalley g GalleySt.release) s
          let s := s.modStep k (fun (y : StepRec) => { y with st := StepSt.stopped, frame := some fr, kept := kept })
          let s := s.modCtx p.ctx (fun y => { y with frames := tput y.frames fr k })
          .next ((s.account (some p.ctx) p.inst { Account.zero with preempts := 1 }).settle)

/-- One refill of a budget (R378): the count is held in galley-ticks. -/
def Budget.refill (b : Budget) : Budget :=
  match b.set with
  | some none => { b with limited := false, set := none }
  | some (some (v, d)) =>
    if b.limited then { b with value := v, depth := d, set := none, count := min (b.count + 100 * v) (100 * d) }
    else { limited := true, value := v, depth := d, count := 100 * d, set := none }
  | none => if b.limited then { b with count := min (b.count + 100 * b.value) (100 * b.depth) } else b

/-- DEADLINE_BUDGET_REFILL: the 1 ms boundary. -/
def execDeadlineBudgetRefill (s : State) : Res :=
  if s.due .budget then
    .next ((State.ran { s with host := { s.host with
      insts := tmap s.host.insts (fun _ (x : InstSt) => { x with budget := x.budget.refill }) } } .budget).settle)
  else .next s

/-! ## The ledger -/

def State.modLedger (s : State) (f : LedgerSt → LedgerSt) : State :=
  { s with mgmt := { s.mgmt with ledger := f s.mgmt.ledger } }

/-- The MC keeps the ledger: while the block runs, through a warm start and in safe mode; not before a cold start has
closed the open period (17_boundary.md Table 17-11). -/
def State.ledgerKept (s : State) : Bool :=
  s.mgmt.ledger.valid && (match s.bnd.power with
    | .running | .safe | .tripped => true
    | .starting .warm _ => true
    | .retry .warm _ => true
    | _ => false)

/-- The charges of every instance in the open period, and its totals; as last flushed once a failed cold start has
lost the instances. -/
def State.periodTotals (s : State) : Tab Account :=
  if s.host.insts.isEmpty then s.mgmt.ledger.openRec else s.host.insts.map (fun p => (p.1, p.2.period))
def State.sumTotals (s : State) : Tab Account :=
  if s.host.insts.isEmpty then s.mgmt.ledger.sums else s.host.insts.map (fun p => (p.1, p.2.acct))

/-- LEDGER_FLUSH (R400): every 10 ms. -/
def execLedgerFlush (s : State) : Res :=
  if s.ledgerKept && decide (s.mgmt.ledger.lastFlush + 1000000 ≤ s.now) then
    let tot := s.periodTotals
    let sums := s.sumTotals
    .next (s.modLedger (fun l => { l with openRec := tot, sums := sums, lastFlush := s.now, seq := (l.seq + 1) % 2 ^ 32 }))
  else .next s

/-- Wall time at a tick, in ns (R401). -/
def LedgerSt.wallAt (l : LedgerSt) (t : Nat) : Nat :=
  match l.wallBase with
  | some (ns, t0) => ns + 10 * (t - t0)
  | none => 0

/-- Flags of a period that opens (Table 11-11): `len` is the LEN of the period that ends. -/
def LedgerSt.openFlags (l : LedgerSt) (len newLen : Nat) : Nat :=
  b2n (len != newLen) * 8 + b2n l.wallBase.isNone * 4 + b2n l.wallStep

/-- R399, R400: the open period closes at a tick and the next opens at `start`. -/
def State.closePeriod (s : State) (end_ start flags newLen : Nat) (tot : Tab Account) : State :=
  let sums := s.sumTotals
  let s := s.modLedger (fun l => { l with
    sums := sums,
    closed := { l.open_ with end_ := end_, flags := l.open_.flags ||| flags }, closedRec := tot, bank := 1 - l.bank,
    open_ := ⟨l.open_.no + 1, start, 0, l.wallAt start, l.openFlags l.len newLen⟩, openRec := [], len := newLen,
    wallStep := false, seq := (l.seq + 1) % 2 ^ 32, lastFlush := s.now, toJournal := some s.now })
  { s with host := { s.host with insts := tmap s.host.insts (fun _ (x : InstSt) => { x with period := Account.zero }) } }

/-- The LEN of the next period (0x7000 object, R399). -/
def State.lenSet (s : State) : Nat :=
  match tget s.mgmt.objs (0x7000 * 256 + 1) with
  | some b => leNat b
  | none => 360000000000

/-- PERIOD_CLOSE (R399, R400). -/
def execPeriodClose (s : State) : Res :=
  let l := s.mgmt.ledger
  if s.ledgerKept && decide (l.open_.start + l.len ≤ s.now) then
    let at_ := l.open_.start + l.len
    .next (s.closePeriod at_ at_ 0 s.lenSet s.periodTotals)
  else .next s

/-- An instance record of the ledger (Table 11-10): ENGINE_US, HBM_SHEETS, HOST_64B, NET_64B and ENERGY_MJ. -/
def ledgerRecord (a : Account) : List Byte :=
  toLE 5 (a.ticks / 100) ++ toLE 6 (a.hbm / 256) ++ toLE 6 (a.host / 64) ++ toLE 6 (a.net / 64) ++ toLE 5 (a.pj / 1000000000)

/-- A journal entry (17_boundary.md Table 17-16). -/
def journalEntry (c : Period) (t : Tab Account) : List Byte :=
  let head := toLE 8 c.no ++ toLE 8 c.start ++ toLE 8 c.end_ ++ toLE 8 c.wall ++ toLE 4 c.flags ++ toLE 220 0
  let bank := (List.range 256).flatMap (fun i => ledgerRecord ((tget t i).getD Account.zero))
  let l := head ++ bank ++ toLE 764 0
  l ++ toLE 4 (crc32 l)

/-- JOURNAL_APPEND (R400): the closed period goes to the journal and is offered to the sessions. -/
def execJournalAppend (s : State) : Res :=
  match s.mgmt.ledger.toJournal with
  | none => .next s
  | some _ =>
    let c := s.mgmt.ledger.closed
    let a := 0x01300000 + c.no % 1024 * 8192
    let s := (s.flashErase a 8192).flashWrite a (journalEntry c s.mgmt.ledger.closedRec)
    let s := s.modLedger (fun l => { l with
      journal := (l.journal ++ [(l.closed, l.closedRec)]).drop (l.journal.length + 1 - 1024), toJournal := none })
    .next (s.notify 2 (toLE 8 c.no ++ toLE 8 c.start ++ toLE 8 c.end_ ++ toLE 8 c.wall ++ toLE 4 c.flags))

end Sys2Proof.Machine
end

