-- ==== Sys2Proof/Machine/InstCmd.lean ====
section
/-! DEFINITION. The meanings of the INSTANCE subops, but for streams and the saved state (12_host_port.md R406 to
R418, R425 to R429, R433, R439), and the end of a freeze. -/

namespace Sys2Proof.Machine

/-- Run a command whose opcode stands for several rows, when it is this row's. -/
def State.runIf (s : State) (q op : Nat) (sel : Cmd → Bool) (f : State → QueueSt → Cmd → State) : State :=
  match s.startable q op with
  | some (_, c) => if sel c then s.runCmd q op f else s
  | none => s

/-- A SUBOP field. -/
def subIs (n : Nat) (c : Cmd) : Bool := field c.body 0x10 1 == n

def cmdObj (c : Cmd) : Nat := field c.body 0x11 1
def cmdArg (c : Cmd) : Nat := field c.body 0x14 4
def cmdBuf (c : Cmd) : Nat := field c.body 0x18 8
def cmdLen (c : Cmd) : Nat := field c.body 0x20 4

/-- Run an INSTANCE subop: its ARG is in range, the profile offers it, and OBJECT is not being reset (R407,
R409, R423). -/
def State.runInst (s : State) (q : Nat) (sel : Cmd → Bool) (argOk : Nat → Bool) (offered : State → Bool)
    (f : State → QueueSt → Cmd → State) : State :=
  s.runIf q 0x40 sel (fun s x c =>
    if !argOk (cmdArg c) then s.refuse q c.no 0x10 0x14
    else if !offered s then s.refuse q c.no 0x65 s.profile
    else if (s.inst (cmdObj c)).state = .resetting then s.refuse q c.no 0x60 3
    else f s x c)

def always (_ : State) : Bool := true
/-- Migration is not offered in the Exclusive profile (R425). -/
def notExclusive (s : State) : Bool := !s.exclusive

/-- A buffer that a kernel command reads; its command ends FAULTED when the host refuses it (R414). -/
def State.withBuf (s : State) (q : Nat) (x : QueueSt) (c : Cmd) (a n : Nat) (f : State → List Byte → State) : State :=
  match s.kernelRead x.inst a n with
  | none => s.cmdFault q x c 0x2003 a (Config.linkStatus a)
  | some l => f ((s.kernelCharge x.inst a n).tagInst s x.inst q c.no) l

/-- The granule list of a command (Table 12-3). -/
def State.withGranules (s : State) (q : Nat) (x : QueueSt) (c : Cmd) (f : State → List Nat → State) : State :=
  let n := cmdLen c
  if n % 8 ≠ 0 ∨ n < 8 ∨ 32768 < n then s.refuse q c.no 0x10 0x20
  else s.withBuf q x c (cmdBuf c) n (fun s l => f s ((List.range (n / 8)).map (fun i => field l (8 * i) 8)))

/-- A granule address of context memory. -/
def granuleOk (a : Nat) : Bool := a % 2 ^ 21 == 0 && decide (a < 2 ^ 39) && contextByte a && contextByte (a + 2 ^ 21 - 1)

/-- Whether a granule meets the staging area of an instance, or the CXL.mem region. -/
def State.granuleTied (s : State) (i a : Nat) : Bool :=
  (match (s.inst i).staging with | some (b, n) => overlaps b n a (2 ^ 21) | none => false)
  || (match s.host.hdm with | some (b, n) => overlaps b n a (2 ^ 21) | none => false)

/-- Whether a page of the granule is mapped, or it holds a context record page, or a byte of a table's area in
one of the states of R408. -/
def State.granuleHolds (s : State) (a : Nat) : Bool :=
  (pages64 a (2 ^ 21)).any (fun p => (s.pageRec p).maps != 0) || s.recordIn a (2 ^ 21)
  || s.tables.any (fun p => p.2.state != .orphaned && areasMeet [(a, 2 ^ 21)] p.2.allAreas)

/-- The first granule of a list that is refused, with its index. -/
def firstBadOf (l : List Nat) (p : Nat → Bool) : Option Nat := l.findIdx? p

/-- GRANT (R408). -/
def execGrant (q : Nat) (s : State) : Res :=
  .next (s.runInst q (subIs 0) (fun a => a == 0) always (fun s x c => s.withGranules q x c (fun s l =>
    let i := cmdObj c
    match firstBadOf l (fun a => !granuleOk a || (match s.grantOf a with | some (j, _) => j != i | none => false)) with
    | some k => s.refuse q c.no 0x61 k
    | none =>
      let g := l.foldl (fun t a => if thas t (a / 2 ^ 21) then t else tput t (a / 2 ^ 21) (i, false)) s.host.grants
      State.succeed { s with host := { s.host with grants := g } } q c.no l.length)))

/-- REVOKE (R408). -/
def execRevoke (q : Nat) (s : State) : Res :=
  .next (s.runInst q (subIs 1) (fun a => a == 0) always (fun s x c => s.withGranules q x c (fun s l =>
    let i := cmdObj c
    match firstBadOf l (fun a => !granuleOk a || (match s.grantOf a with | some (j, pool) => j != i || pool | none => false)
        || s.granuleTied i a || s.granuleHolds a) with
    | some k => s.refuse q c.no 0x61 k
    | none =>
      let h := l.foldl (fun (h : HostSt) a => { h with
        grants := tdel h.grants (a / 2 ^ 21), pages := tkeep h.pages (fun k _ => k / 32 != a / 2 ^ 21),
        dirty := h.dirty.filter (fun k => k / 32 != a / 2 ^ 21) }) s.host
      State.succeed { s with host := h } q c.no l.length)))

def State.setPool (s : State) (i : Nat) (l : List Nat) (pool : Bool) : State :=
  { s with host := { s.host with grants := l.foldl (fun t a => tmod t (a / 2 ^ 21) (fun _ => (i, pool))) s.host.grants } }

/-- POOL without REMOVE (R411). -/
def execPoolAdd (q : Nat) (s : State) : Res :=
  .next (s.runInst q (fun c => subIs 2 c && !bit (cmdArg c) 0) (fun a => decide (a < 2)) always
    (fun s x c => s.withGranules q x c (fun s l =>
      let i := cmdObj c
      match firstBadOf l (fun a => !granuleOk a || (match s.grantOf a with | some (j, _) => j != i | none => true)
          || s.granuleTied i a || s.granuleHolds a) with
      | some k => s.refuse q c.no 0x61 k
      | none => ((s.setPool i l true).friskChanged i).succeed q c.no l.length)))

/-- POOL with REMOVE (R411): refused while a granule holds a table or a record, as the pool is laid out. -/
def execPoolRemove (q : Nat) (s : State) : Res :=
  .next (s.runInst q (fun c => subIs 2 c && bit (cmdArg c) 0) (fun a => decide (a < 2)) always
    (fun s x c => s.withGranules q x c (fun s l =>
      let i := cmdObj c
      let gs := s.poolGranules i
      match firstBadOf l (fun a => !granuleOk a || (match s.grantOf a with | some (j, _) => j != i | none => true)
          || (gs.contains a && decide (gs.idxOf a * 2 ^ 21 < s.poolUsed i))) with
      | some k => s.refuse q c.no 0x61 k
      | none => (s.setPool i l false).succeed q c.no l.length)))

/-- APERTURE (R416). -/
def execAperture (q : Nat) (s : State) : Res :=
  .next (s.runIf q 0x40 (subIs 3) (fun s _ c =>
    let a := cmdArg c
    let i := cmdObj c
    if !bit s.sec.prot.frPolicy 2 then s.refuse q c.no 0x12 0
    else if bits a 30 12 != 0 then s.refuse q c.no 0x10 0x14
    else if s.exclusive then s.refuse q c.no 0x65 s.profile
    else if (s.inst i).state = .resetting then s.refuse q c.no 0x60 3
    else if bit a 31 then (s.modInst i (fun y => { y with aperture := none })).succeed q c.no 0
    else if ((tget s.ctxs (a % 4096)).map (·.inst)) = some i then
      (s.modInst i (fun y => { y with aperture := some (a % 4096) })).succeed q c.no 0
    else s.refuse q c.no 0x17 0x14))

/-- Granules of a range. -/
def rangeGranules (a n : Nat) : List Nat := (List.range (n / 2 ^ 21)).map (fun i => a + 2 ^ 21 * i)

/-- HDM (R417). -/
def execHdm (q : Nat) (s : State) : Res :=
  .next (s.runIf q 0x40 (subIs 4) (fun s x c =>
    if !bit s.sec.prot.frPolicy 3 then s.refuse q c.no 0x12 0
    else if cmdObj c ≠ 0 then s.refuse q c.no 0x10 0x11
    else if cmdArg c ≠ 0 then s.refuse q c.no 0x10 0x14
    else if cmdLen c < 16 then s.refuse q c.no 0x10 0x20
    else if s.exclusive || !s.host.cxl then s.refuse q c.no 0x65 s.profile
    else s.withBuf q x c (cmdBuf c) 16 (fun s l =>
      let base := field l 0 8
      let size := field l 8 8
      if base % 2 ^ 28 ≠ 0 ∨ size % 2 ^ 28 ≠ 0 ∨ 61184 * 2 ^ 20 < size
          ∨ (size ≠ 0 ∧ (2 ^ 39 ≤ base ∨ !contextByte base ∨ !contextByte (base + size - 1) ∨ stackOf base ≠ stackOf (base + size - 1))) then
        s.refuse q c.no 0x10 0x18
      else if s.host.decoder.isSome then s.refuse q c.no 0x17 0x18
      else match firstBadOf (rangeGranules base size) (fun a => (s.grantOf a).map (·.1) != some 0
          || (pages64 a (2 ^ 21)).any (fun p => (s.pageRec p).maps != 0)) with
        | some k => s.refuse q c.no 0x61 k
        | none => State.succeed { s with host := { s.host with hdm := if size = 0 then none else some (base, size) } } q c.no 0)))

/-- STAGING (R433). -/
def execStaging (q : Nat) (s : State) : Res :=
  .next (s.runInst q (subIs 5) (fun a => a == 0) (fun s => s.exclusive) (fun s x c =>
    if cmdLen c < 16 then s.refuse q c.no 0x10 0x20
    else s.withBuf q x c (cmdBuf c) 16 (fun s l =>
      let base := field l 0 8
      let size := field l 8 8
      if base % 2 ^ 21 ≠ 0 ∨ size % 2 ^ 21 ≠ 0 ∨ size < 2 ^ 21 ∨ 2 ^ 32 < size then s.refuse q c.no 0x10 0x18
      else match firstBadOf (rangeGranules base size) (fun a => !s.granted (cmdObj c) a) with
        | some k => s.refuse q c.no 0x61 k
        | none => (s.modInst (cmdObj c) (fun y => { y with staging := some (base, size) })).succeed q c.no 0)))

/-! ## Dirty tracking and page copies -/

/-- Whether a dirty page belongs to an instance. -/
def State.pageOf (s : State) (i p : Nat) : Bool := (tget s.host.grants (p / 32)).map (·.1) == some i

/-- TRACK with START (R426). -/
def execTrackStart (q : Nat) (s : State) : Res :=
  .next (s.runInst q (fun c => subIs 8 c && bit (cmdArg c) 0) (fun a => decide (a < 2)) notExclusive (fun s _ c =>
    let i := cmdObj c
    let s := { s with host := { s.host with dirty := s.host.dirty.filter (fun p => !s.pageOf i p) } }
    (s.modInst i (fun y => { y with track := true })).succeed q c.no 0))

/-- TRACK without START (R426). -/
def execTrackStop (q : Nat) (s : State) : Res :=
  .next (s.runInst q (fun c => subIs 8 c && !bit (cmdArg c) 0) (fun a => decide (a < 2)) notExclusive (fun s _ c =>
    (s.modInst (cmdObj c) (fun y => { y with track := false })).succeed q c.no 0))

/-- DIRTY (R426). -/
def execDirty (q : Nat) (s : State) : Res :=
  .next (s.runInst q (subIs 9) (fun a => a == 0) notExclusive (fun s x c =>
    let i := cmdObj c
    let mine := s.host.dirty.filter (s.pageOf i)
    let grans := ((s.host.grants.map (·.1)).filter (fun g => mine.any (fun p => p / 32 == g))).take (cmdLen c / 16)
    let entry (g : Nat) : List Byte :=
      toLE 8 (g * 2 ^ 21) ++ toLE 4 ((List.range 32).foldl (fun m k => if mine.contains (32 * g + k) then m + 2 ^ k else m) 0) ++ toLE 4 0
    let bytes := grans.flatMap entry
    let s0 := s
    let s := if bytes.isEmpty then s else ((s.kernelWrite x.inst (cmdBuf c) bytes).2).tagInst s0 x.inst q c.no
    let s := { s with host := { s.host with dirty := s.host.dirty.filter (fun p => !(mine.contains p && grans.contains (p / 32))) } }
    s.succeed q c.no grans.length))

/-- A page descriptor list (R429). -/
def State.withPages (s : State) (q : Nat) (x : QueueSt) (c : Cmd) (f : State → List (List Byte) → State) : State :=
  let n := cmdLen c / 64
  if n = 0 then s.refuse q c.no 0x10 0x20
  else s.withBuf q x c (cmdBuf c) (64 * n) (fun s l =>
    let ds := (List.range n).map (fun i => (l.drop (64 * i)).take 64)
    match ds.findIdx? (fun d => field d 0 8 % 65536 != 0 || field d 8 8 % 65536 != 0) with
    | some _ => s.refuse q c.no 0x10 0x18
    | none =>
      match ds.findIdx? (fun d => (s.grantOf (field d 0 8)).map (·.1) != some (cmdObj c)) with
      | some k => s.refuse q c.no 0x61 k
      | none => f s ds)

/-- READ_PAGES of one page: its bytes with poisoned sheets as zeros, and the mask. -/
def State.readPage (s : State) (a : Nat) : List Byte × Nat × State :=
  let s := s.decodeRange a 65536
  let bad (i : Nat) : Bool := s.poisoned (a + 256 * i) 256
  ((List.range 256).flatMap (fun i => if bad i then List.replicate 256 0 else mread s.mem (a + 256 * i) 256),
   (List.range 256).foldl (fun m i => if bad i then m + 2 ^ i else m) 0, s)

/-- READ_PAGES (R429). -/
def execReadPages (q : Nat) (s : State) : Res :=
  .next (s.runInst q (subIs 0xA) (fun a => a == 0) notExclusive (fun s x c => s.withPages q x c (fun s ds =>
    let s := ds.zipIdx.foldl (fun (s : State) d =>
      let r := s.readPage (field d.1 0 8)
      let s := r.2.2.hostWrite (field d.1 8 8) r.1
      s.hostWrite (cmdBuf c + 64 * d.2 + 32) (toLE 32 r.2.1)) s
    s.succeed q c.no ds.length)))

/-- The sheets of a page that a mask names become poisoned (R284). -/
def State.poisonSheets (s : State) (a mask : Nat) : State :=
  { s with poison := ((List.range 256).filter (bit mask)).foldl (fun l i =>
      (List.range 4).foldl (fun l k => l.insert (a / 64 + 4 * i + k)) l) s.poison }

/-- WRITE_PAGES (R429). -/
def execWritePages (q : Nat) (s : State) : Res :=
  .next (s.runInst q (subIs 0xB) (fun a => a == 0) notExclusive (fun s x c => s.withPages q x c (fun s ds =>
    let r := ds.foldl (fun (r : Option Nat × State) d =>
      match r.1 with
      | some _ => r
      | none => match r.2.hostRead (field d 8 8) 65536 with
        | none => (some (field d 8 8), r.2)
        | some l => (none, (r.2.devWrite (field d 0 8) l false).poisonSheets (field d 0 8) (field d 32 32))) (none, s)
    match r.1 with
    | some a => r.2.cmdFault q x c 0x2003 a (Config.linkStatus a)
    | none => r.2.succeed q c.no ds.length)))

/-! ## Freezing (R427) -/

/-- Started commands of an instance, other than one. -/
def State.startedCount (s : State) (i : Nat) (own : Nat × Nat) : Nat :=
  ((s.queues.filter (fun p => p.2.inst == i)).map (fun p =>
    (p.2.cmds.filter (fun (c : Cmd) => c.st == .started && (p.1, c.no) != own)).length)).sum

/-- A granted step that no galley has taken gives its galleys back: it waits again. -/
def State.withdraw (s : State) (k : Nat) : State :=
  match tget s.steps k with
  | none => s
  | some p =>
    if !p.taken.isEmpty || !(p.st == .running || p.st == .stopping) then s
    else
      let s := p.galleys.foldl (fun s g => s.modGalley g (fun y =>
        if y.owner = some k then
          { y with owner := none, next := none, preempt := false, loading := false,
                   comp := { y.comp with status := if ((y.image.map (fun i => i.2.press)) == some true && !y.loading) then y.comp.status else .idle } }
        else y)) s
      s.modStep k (fun (p : StepRec) => { p with st := StepSt.pending })

/-- FREEZE. -/
def execFreeze (q : Nat) (s : State) : Res :=
  .next (s.runInst q (subIs 0xC) (fun a => within 1 10000 a) notExclusive (fun s _ c =>
    let i := cmdObj c
    match (s.inst i).state with
    | .frozen => s.succeed q c.no 0
    | .enabled =>
      let s := (s.begin_ q c.no).modInst i (fun y => { y with state := .frozen, freeze := some (q, c.no, s.now + 100000 * cmdArg c) })
      let s := { s with queues := tmap s.queues (fun _ y => if y.inst = i then { y with wait := none } else y) }
      let s := (s.steps.filter (fun p => p.2.inst == i)).foldl (fun s p => s.withdraw p.1) s
      if State.startedCount s i (q, c.no) = 0 then ((State.writeRecords s i).modInst i (fun y => { y with freeze := none })).finish q c.no 0 0 else s
    | y => s.refuse q c.no 0x60 y.code))

/-- FREEZE_QUIET: no started command of a freezing instance remains. -/
def execFreezeQuiet (i : Nat) (s : State) : Res :=
  match (s.inst i).freeze with
  | none => .next s
  | some (q, no, _) =>
    if s.startedCount i (q, no) = 0 then
      .next ((((s.writeRecords i).modInst i (fun y => { y with freeze := none })).finish q no 0 0).settle)
    else .next s

/-- FREEZE_TIMEOUT: the instance stays FROZEN. -/
def execFreezeTimeout (i : Nat) (s : State) : Res :=
  match (s.inst i).freeze with
  | none => .next s
  | some (q, no, due) =>
    let n := s.startedCount i (q, no)
    if n = 0 ∨ s.now < due then .next s
    else .next (((s.modInst i (fun y => { y with freeze := none })).finish q no 0x63 n).settle)

/-- THAW (R406). -/
def execThaw (q : Nat) (s : State) : Res :=
  .next (s.runInst q (subIs 0xF) (fun a => a == 0) notExclusive (fun s _ c =>
    match (s.inst (cmdObj c)).state with
    | .frozen => (s.modInst (cmdObj c) (fun y => { y with state := .enabled })).succeed q c.no 0
    | y => s.refuse q c.no 0x60 y.code))

/-- BCE_WEIGHT (R409, R439). -/
def execBceWeight (q : Nat) (s : State) : Res :=
  .next (s.runInst q (subIs 0x10) (fun a => within 1 16 a) always (fun s _ c =>
    (s.modInst (cmdObj c) (fun y => { y with weight := cmdArg c })).succeed q c.no 0))

end Sys2Proof.Machine
end

