-- ==== Sys2Proof/Machine/Bounce.lean ====
section
/-! DEFINITION. The bounce crypto engine: streams, messages, slots, arbitration (12_host_port.md R433 to R440). -/

namespace Sys2Proof.Machine

def State.modBce (s : State) (f : BceSt → BceSt) : State := { s with host := { s.host with bce := f s.host.bce } }
def State.pair (s : State) (k : Nat) : Option Pair := tget s.host.bce.pairs k
def State.modPair (s : State) (k : Nat) (f : Pair → Pair) : State := s.modBce (fun b => { b with pairs := tmod b.pairs k f })

/-- Bounce traffic of an instance: bytes on the host link, and the engine's energy (11_scheduling.md R396). -/
def State.chargeBounce (s : State) (i n : Nat) (crypt : Bool) : State :=
  s.account none i { Account.zero with host := n, pj := energyOf 7 ((n + 63) / 64) + (if crypt then energyOf 9 ((n + 63) / 64) else 0) }

/-- R435: the initialisation vector of a message. -/
def bounceIV (inst pair : Nat) (out : Bool) (count seq : Nat) : Nat :=
  (b2n out * 2 ^ 31 + (2 * pair + b2n out) * 2 ^ 27 + inst * 2 ^ 19 + count % 2 ^ 19) * 2 ^ 64 + seq % 2 ^ 64

/-! ## Outbound messages and closing -/

/-- A message of the block waits for ring space; its header is completed when it is sent. -/
def State.queueOut (s : State) (k typ reqSeq : Nat) (payload : List Byte) : State :=
  match s.pair k with
  | none => s
  | some _ =>
    let hdr := toLE 4 0x4D534742 ++ toLE 1 typ ++ toLE 1 0 ++ toLE 2 0 ++ toLE 8 0 ++ toLE 8 0 ++ toLE 4 payload.length ++ toLE 4 0
      ++ toLE 8 0 ++ toLE 2 0 ++ toLE 6 0 ++ toLE 8 0 ++ toLE 8 reqSeq
    let m : BMsg := { inst := k / 8, pair := k % 8, out := true, hdr := hdr, data := payload, tag := 0, segs := 0, inSlot := false,
                      no := 0, ringBytes := 128 + payload.length }
    s.modBce (fun b => { b with outq := b.outq ++ [m] })

/-- An ERROR message: causes are numbered 0 wrong SEQ, 1 wrong MAGIC, 2 malformed, 3 tag, 4 frisket, 5 unit reset. -/
def State.bounceErr (s : State) (k cause seq : Nat) : State :=
  s.queueOut k 0x83 seq ((List.range 64).map (Config.bounceError cause seq))

/-- R435: the stream breaks. -/
def State.breakStream (s : State) (k cause seq : Nat) : State :=
  let i := k / 8
  let s := (s.modPair k (fun p => { p with broken := true })).modFn i (fun y => { y with bncBroken := true })
  let s := s.fault { faultOf 0xC002 with inst := some i, unitType := 0x09, logical := i, info0 := 2 * (k % 8), info1 := seq } []
  s.bounceErr k cause seq

/-- A pair is gone: its parked reads and messages with it. -/
def State.dropPair (s : State) (k : Nat) : State :=
  let mine (inst pair : Nat) : Bool := inst * 8 + pair == k
  s.modBce (fun b => { b with
    pairs := tdel b.pairs k, parked := b.parked.filter (fun p => !mine p.inst p.pair),
    msgs := b.msgs.filter (fun m => !mine m.inst m.pair), outq := b.outq.filter (fun m => !mine m.inst m.pair) })

/-- Closing pairs whose messages in slots have finished are closed, and their STREAM_CLOSE completes (R440). -/
def State.closePairs (s : State) : State :=
  (s.host.bce.pairs.filter (fun p => p.2.closing && !s.host.bce.msgs.any (fun m => m.inst * 8 + m.pair == p.1 && m.inSlot))).foldl
    (fun s p =>
      let s := s.dropPair p.1
      match p.2.closeCmd with
      | some (q, no) => s.finish q no 0 0
      | none => s) s

/-- R440: the streams that use a key slot close after their messages in slots. -/
def State.closeStreamsOf (s : State) (slot : Nat) : State :=
  (s.modBce (fun b => { b with pairs := tmap b.pairs (fun _ (p : Pair) =>
    if p.keyIn = slot ∨ p.keyOut = slot then { p with closing := true } else p) })).closePairs

/-! ## Slots (R439) -/

/-- Messages of an instance in slots, and in all. -/
def BceSt.held (b : BceSt) (i : Nat) : Nat := (b.msgs.filter (fun m => m.inst == i && m.inSlot)).length

/-- The message that takes the next slot: the first to reach the front end, but an instance that holds 16 is
passed over while another waits. -/
def BceSt.nextSlot (b : BceSt) : Option BMsg :=
  let w := b.msgs.filter (fun m => !m.inSlot)
  match w.find? (fun m => decide (b.held m.inst < 16)) with
  | some m => some m
  | none => if (w.map (fun m => m.inst)).dedup.length ≤ 1 then w.head? else none

/-- Grant slots while some are free: each begins a use of its key. -/
def State.grantSlots : Nat → State → State
  | 0, s => s
  | n + 1, s =>
    let b := s.host.bce
    if 64 ≤ (b.msgs.filter (fun m => m.inSlot)).length then s
    else match b.nextSlot with
      | none => s
      | some m =>
        let s := s.modBce (fun b => { b with msgs := b.msgs.map (fun (x : BMsg) => if x.no = m.no then { x with inSlot := true } else x) })
        let s := match s.pair (m.inst * 8 + m.pair) with
          | some p => s.useSlot (if m.out then p.keyOut else p.keyIn)
          | none => s
        State.grantSlots n s

def State.slotsDue (s : State) : State := State.grantSlots s.host.bce.msgs.length s

/-- A message reaches the front end. -/
def State.frontEnd (s : State) (m : BMsg) : State :=
  (s.modBce (fun b => { b with msgs := b.msgs ++ [{ m with no := b.nextMsg }], nextMsg := b.nextMsg + 1 })).slotsDue

/-! ## Targets (R438) -/

/-- Bits of a header. -/
def bTyp (h : List Byte) : Nat := field h 4 1
def bStaging (h : List Byte) : Bool := bit (field h 5 1) 0
def bSeq (h : List Byte) : Nat := field h 8 8
def bAddr (h : List Byte) : Nat := field h 0x10 8

/-- Device ranges that n bytes at a message's ADDR reach; the cause of the ERROR when a check fails. -/
def State.bounceRanges (s : State) (i : Nat) (h : List Byte) (n : Nat) (write : Bool) : Except Nat (List (Nat × Nat)) :=
  if bStaging h then
    match s.stagingAddr i (bAddr h) n with
    | some a => if s.formeUp (stackOf a) then .ok [(a, n)] else .error 5
    | none => .error 4
  else
    match tget s.ctxs (field h 6 2 % 4096) with
    | none => .error 4
    | some x =>
      if x.inst ≠ i ∨ x.state = .lost then .error 4
      else (rangePieces (bAddr h) n).foldl (fun (r : Except Nat (List (Nat × Nat))) p =>
        match r with
        | .error e => .error e
        | .ok l => match x.translate p.1 write with
          | .ok (false, a) => if s.formeUp (stackOf a) then .ok (l ++ [(a, p.2)]) else .error 5
          | _ => .error 4) (.ok [])

/-- The part of ranges from byte o, n bytes. -/
def subRanges : List (Nat × Nat) → Nat → Nat → List (Nat × Nat)
  | [], _, _ => []
  | (a, m) :: l, o, n =>
    if m ≤ o then subRanges l (o - m) n
    else
      let k := min (m - o) n
      if k = 0 then [] else (a + o, k) :: subRanges l 0 (n - k)

/-- Context that a message's accesses are charged to. -/
def bCtx (h : List Byte) : Option Nat := if bStaging h then none else some (field h 6 2 % 4096)

/-- Write bytes over ranges. -/
def State.writeRanges (s : State) (ctx : Option Nat) (i : Nat) : List (Nat × Nat) → List Byte → State
  | [], _ => s
  | (a, n) :: l, bytes =>
    State.writeRanges ((s.devWrite a (bytes.take n) false).chargeTo (stackOf a) ctx i (sheetsOf a n)) ctx i l (bytes.drop n)

/-- Poison the sheets of ranges (08_memory.md R284). -/
def State.poisonRanges (s : State) (l : List (Nat × Nat)) : State :=
  l.foldl (fun s r =>
    let lo := r.1 / 256 * 4
    let n := sheetsOf r.1 r.2 * 4
    { s with poison := (List.range n).foldl (fun p k => p.insert (lo + k)) s.poison }) s

/-! ## Reading the inbound ring -/

/-- What is wrong with the header of an inbound message: its cause (R434, R435); `left` bytes up to PROD, `room` up
to the end of the ring. -/
def headFail (h : List Byte) (want left room : Nat) : Option Nat :=
  let t := bTyp h
  let len := field h 0x18 4
  let rlen := field h 0x1C 4
  let fl := field h 5 1
  let sized (n : Nat) : Bool := n % 64 == 0 && decide (64 ≤ n) && decide (n ≤ 2 ^ 24)
  if field h 0 4 ≠ 0x4D534742 then some 1
  else if bSeq h ≠ want then some 0
  else if t = 0 then (if left < room then some 2 else none)
  else
    let ok := (t == 1 || t == 2) && decide (fl < 8) && (bStaging h || decide (field h 6 2 < 4096)) && bAddr h % 64 == 0
      && field h 0x2A 6 == 0 && field h 0x38 8 == 0 && decide (128 + len ≤ left) && decide (128 + len ≤ room)
      && (if t = 1 then sized len && rlen == 0 && field h 0x20 8 == 0 else len == 0 && sized rlen && decide (fl < 2))
      && (bit fl 2 || (field h 0x28 2 == 0 && field h 0x30 8 == 0)) && decide (field h 0x28 2 < 2048)
    if ok then none else some 2

/-- CONS of an inbound ring is written. -/
def State.writeCons (s : State) (k n : Nat) : State :=
  match s.pair k with
  | none => s
  | some p =>
    let c := p.inCons + n
    ((s.modPair k (fun p => { p with inCons := c })).hostWrite (p.inBase + 8) (toLE 8 c)).chargeBounce (k / 8) 8 false

/-- The next inbound message of a pair when one may be taken: the pair, its header, where it lies. -/
def State.nextInbound (s : State) (i p : Nat) : Option (Pair × List Byte × Nat) :=
  let k := i * 8 + p
  match s.pair k with
  | none => none
  | some y =>
    if !s.up || !s.exclusive || y.broken || y.closing || decide (8 ≤ p) || y.inProd == y.inNext
        || s.host.bce.msgs.any (fun m => m.inst == i && m.pair == p && !m.out) || (s.inst i).state == .resetting then none
    else
      let a := y.inBase + 0x1000 + y.inNext % 2 ^ y.log2
      (s.hostRead a 64).map (fun h => (y, h, a))

/-- Take the next inbound message of a pair when its header is good and of type `t`; a header that is not good
breaks the stream. -/
def State.inbound (s : State) (i p t : Nat) (f : State → Pair → List Byte → Nat → State) : State :=
  match s.nextInbound i p with
  | none => s
  | some (y, h, a) =>
    let room := 2 ^ y.log2 - y.inNext % 2 ^ y.log2
    match headFail h (y.inSeq + 1) (y.inProd - y.inNext) room with
    | some cause => ((s.chargeBounce i 64 false).breakStream (i * 8 + p) cause (y.inSeq + 1)).settle
    | none => if bTyp h = t then (f (s.chargeBounce i 64 false) y h a).settle else s

/-- A message of n ring bytes is taken from the stream. -/
def State.takeInbound (s : State) (k n : Nat) : State :=
  s.modPair k (fun p => { p with inNext := p.inNext + n, inSeq := p.inSeq + 1 })

/-- BOUNCE_WRITE (R438): the target is checked, then the message waits for its segments. -/
def execBounceWrite (i p : Nat) (s : State) : Res :=
  .next (s.inbound i p 1 (fun s y h a =>
    let k := i * 8 + p
    let len := field h 0x18 4
    match s.bounceRanges i h len true with
    | .error cause => (((s.takeInbound k (128 + len)).writeCons k (128 + len)).bounceErr k cause (bSeq h))
    | .ok _ =>
      match s.hostRead (a + 64) (len + 16) with
      | none => s
      | some l =>
        let m : BMsg := { inst := i, pair := p, out := false, hdr := h, data := l.take len, tag := field l len 16, segs := 0,
                          inSlot := false, no := 0, ringBytes := 128 + len }
        ((s.chargeBounce i (len + 64) true).takeInbound k (128 + len)).frontEnd m))

/-- A READ that is due: DATA with the bytes as they stand. -/
def State.answerRead (s : State) (i p : Nat) (h : List Byte) : State :=
  let k := i * 8 + p
  let n := field h 0x1C 4
  match s.bounceRanges i h n false with
  | .error cause => s.bounceErr k cause (bSeq h)
  | .ok rs =>
    let s := rs.foldl (fun s r => (s.decodeRange r.1 r.2).chargeTo (stackOf r.1) (bCtx h) i (sheetsOf r.1 r.2)) s
    if rs.any (fun r => s.poisoned (r.1 / 256 * 256) (r.1 % 256 + r.2)) then s.bounceErr k 4 (bSeq h)
    else s.queueOut k 0x82 (bSeq h) (rs.flatMap (fun r => mread s.mem r.1 r.2))

/-- The 64-bit value that a READ's THRESHOLD is compared with. -/
def State.readValue (s : State) (i : Nat) (h : List Byte) : Except Nat Nat :=
  match s.bounceRanges i h 8 false with
  | .error cause => .error cause
  | .ok rs =>
    if rs.any (fun r => s.poisoned (r.1 / 256 * 256) 256) then .error 4 else .ok (leNat (rs.flatMap (fun r => mread s.mem r.1 r.2)))

/-- BOUNCE_READ (R438). -/
def execBounceRead (i p : Nat) (s : State) : Res :=
  .next (s.inbound i p 2 (fun s y h a =>
    let k := i * 8 + p
    let iv := bounceIV i p false y.count (bSeq h)
    match s.hostRead (a + 64) 16 with
    | none => s
    | some tag =>
      let thr := field h 0x20 8
      let taken (s : State) : State := (((s.chargeBounce i 64 true).takeInbound k 128).writeCons k 128)
      if toLE 16 (gcmTag (s.kslot y.keyIn).key iv h []) ≠ tag then s.breakStream k 3 (bSeq h)
      else match s.bounceRanges i h (field h 0x1C 4) false with
        | .error cause => (taken s).bounceErr k cause (bSeq h)
        | .ok _ =>
          let now_ : Except Nat Bool := if thr = 0 then .ok true
            else match s.readValue i h with
              | .ok v => .ok (decide (thr ≤ v))
              | .error e => .error e
          match now_ with
          | .error cause => (taken s).bounceErr k cause (bSeq h)
          | .ok true => (taken s).answerRead i p h
          | .ok false =>
            if 64 ≤ (s.host.bce.parked.filter (fun x => x.inst == i)).length then s
            else
              let w : Parked := { inst := i, pair := p, hdr := h, next := s.now + 100, gap := 100 }
              State.modBce (taken s) (fun b => { b with parked := b.parked ++ [w] })))

/-- BOUNCE_PAD (R434): the rest of the ring is skipped. -/
def execBouncePad (i p : Nat) (s : State) : Res :=
  .next (s.inbound i p 0 (fun s y _ _ =>
    let k := i * 8 + p
    let room := 2 ^ y.log2 - y.inNext % 2 ^ y.log2
    (s.takeInbound k room).writeCons k room))

/-- PARKED_READ_RECHECK (R438, timing of R356) of the n-th parked read. -/
def execParkedReadRecheck (n : Nat) (s : State) : Res :=
  match s.host.bce.parked[n]? with
  | none => .next s
  | some w =>
    if s.now < w.next then .next s
    else
      let drop_ (s : State) : State := s.modBce (fun b => { b with parked := b.parked.eraseIdx n })
      match s.readValue w.inst w.hdr with
      | .error cause => .next ((drop_ s).bounceErr (w.inst * 8 + w.pair) cause (bSeq w.hdr))
      | .ok v =>
        if field w.hdr 0x20 8 ≤ v then .next ((drop_ s).answerRead w.inst w.pair w.hdr)
        else
          let gap := min 5000 (2 * w.gap)
          .next (s.modBce (fun b => { b with parked := b.parked.set n { w with next := s.now + gap, gap := gap } }))

/-! ## Segments (R439) -/

/-- The instance served next in a direction, with the turns then left. -/
def State.nextInst (s : State) (out : Bool) : Option (Nat × Nat) :=
  let b := s.host.bce
  let turn := if out then b.turnOut else b.turnIn
  let ready := ((b.msgs.filter (fun m => m.inSlot && m.out == out)).map (fun m => m.inst)).dedup
  if turn.2 ≠ 0 ∧ ready.contains turn.1 then some (turn.1, turn.2 - 1)
  else ((List.range 256).find? (fun d => ready.contains ((turn.1 + 1 + d) % 256))).map (fun d =>
    let i := (turn.1 + 1 + d) % 256
    (i, (s.inst i).weight - 1))

/-- A message leaves its slot: the use of its key ends. -/
def State.leaveSlot (s : State) (m : BMsg) (key : Nat) : State :=
  ((s.modBce (fun b => { b with msgs := b.msgs.filter (fun x => x.no != m.no) })).unuseSlot key).slotsDue

/-- An inbound message ends: its tag decides. -/
def State.finishInbound (s : State) (m : BMsg) (y : Pair) (good : Bool) : State :=
  let k := m.inst * 8 + m.pair
  let h := m.hdr
  let len := m.data.length
  let s := s.leaveSlot m y.keyIn
  if good then
    let s := if bit (field h 5 1) 2 then
        match s.doorQueue m.inst (field h 0x28 2) with
        | some _ => s.modQueue (field h 0x28 2) (fun x => x.ring (field h 0x30 8))
        | none => s
      else s
    let s := if bit (field h 5 1) 1 then s.queueOut k 0x82 (bSeq h) [] else s
    s.writeCons k m.ringBytes
  else
    let s := match s.bounceRanges m.inst h len true with
      | .ok rs => s.poisonRanges rs
      | .error _ => s
    s.breakStream k 3 (bSeq h)

/-- An outbound message ends: it stands in its ring whole, and PROD moves past it. -/
def State.finishOutbound (s : State) (m : BMsg) (y : Pair) : State :=
  let k := m.inst * 8 + m.pair
  let e := gcmEncrypt (s.kslot y.keyOut).key (bounceIV m.inst m.pair true y.countOut (bSeq m.hdr)) m.hdr m.data
  let s := s.leaveSlot m y.keyOut
  let a := y.outBase + 0x1000 + y.outProd % 2 ^ y.log2
  let prod := y.outProd + m.ringBytes
  let s := (s.hostWrite a (m.hdr ++ e.1 ++ e.2 ++ toLE 48 0)).hostWrite y.outBase (toLE 8 prod)
  (s.modPair k (fun p => { p with outProd := prod })).chargeBounce m.inst (m.ringBytes + 8) true

/-- BCE_SEGMENT_DONE: a pipe of a direction processes the next segment that arbitration gives it. -/
def execBceSegmentDone (out : Bool) (s : State) : Res :=
  match s.nextInst out with
  | none => .next s
  | some (i, left) =>
    match s.host.bce.msgs.find? (fun m => m.inSlot && m.out == out && m.inst == i) with
    | none => .next s
    | some m =>
      let k := i * 8 + m.pair
      match s.pair k with
      | none => .next s
      | some y =>
        let s := s.modBce (fun b => if out then { b with turnOut := (i, left) } else { b with turnIn := (i, left) })
        let last := decide (m.data.length ≤ (m.segs + 1) * 16384)
        let s := s.modBce (fun b => { b with msgs := b.msgs.map (fun (x : BMsg) => if x.no = m.no then { x with segs := x.segs + 1 } else x) })
        if out then
          .next ((if last then s.finishOutbound m y else s).closePairs).settle
        else
          let key := (s.kslot y.keyIn).key
          let iv := bounceIV i m.pair false y.count (bSeq m.hdr)
          let pt := gcmXor key iv m.data
          match s.bounceRanges i m.hdr m.data.length true with
          | .error cause =>
            .next ((((s.leaveSlot m y.keyIn).writeCons k m.ringBytes).bounceErr k cause (bSeq m.hdr)).closePairs).settle
          | .ok rs =>
            let s := s.writeRanges (bCtx m.hdr) i (subRanges rs (m.segs * 16384) 16384) ((pt.drop (m.segs * 16384)).take 16384)
            if last then
              .next ((s.finishInbound m y (gcmTag key iv m.hdr pt % 2 ^ 128 == m.tag)).closePairs).settle
            else .next s

/-- OUTBOUND_MESSAGE_SEND (R438): the first waiting message of a pair once its ring has space; a PAD to the end of
the ring where it would cross it. -/
def execOutboundMessageSend (i p : Nat) (s : State) : Res :=
  let k := i * 8 + p
  match s.pair k, s.host.bce.outq.find? (fun m => m.inst == i && m.pair == p) with
  | some y, some m =>
    if !s.up || y.closing || s.host.bce.msgs.any (fun x => x.inst == i && x.pair == p && x.out) then .next s
    else match s.hostRead (y.outBase + 8) 8 with
      | none => .next s
      | some l =>
        let s := s.chargeBounce i 8 false
        let cons := leNat l
        let size := 2 ^ y.log2
        let room := size - y.outProd % size
        let pad := decide (room < m.ringBytes) && decide (room < size)
        if pad then
          if y.outProd + room - cons ≤ size then
            let seq := y.outSeq + 1
            let hdr := toLE 4 0x4D534742 ++ toLE 4 0 ++ toLE 8 seq ++ toLE 48 0
            let s := (s.hostWrite (y.outBase + 0x1000 + y.outProd % size) hdr).hostWrite y.outBase (toLE 8 (y.outProd + room))
            .next ((s.modPair k (fun z => { z with outSeq := seq, outProd := z.outProd + room })).chargeBounce i 72 false)
          else .next s
        else if y.outProd + m.ringBytes - cons ≤ size then
          let seq := y.outSeq + 1
          let hdr := m.hdr.take 8 ++ toLE 8 seq ++ m.hdr.drop 16
          let s := s.modBce (fun b => { b with outq := eraseFirst (fun x => x.inst == i && x.pair == p) b.outq })
          .next ((s.modPair k (fun z => { z with outSeq := seq })).frontEnd { m with hdr := hdr })
        else .next s
  | _, _ => .next s

/-! ## PROD -/

/-- Read PROD of one inbound ring; one that runs ahead by more than the ring breaks the stream. -/
def State.readProd (s : State) (k : Nat) : State :=
  match s.pair k with
  | none => s
  | some y =>
    if y.broken || y.closing then s
    else match s.hostRead y.inBase 8 with
      | none => s
      | some l =>
        let p := leNat l
        let s := (s.modPair k (fun z => { z with polled := s.now })).chargeBounce (k / 8) 8 false
        if (p + 2 ^ 64 - y.inCons) % 2 ^ 64 ≤ 2 ^ y.log2 ∧ y.inNext ≤ p then s.modPair k (fun z => { z with inProd := p })
        else s.breakStream k 2 (y.inSeq + 1)

/-- FN_BNC_KICK: value bits [3:0] name an inbound stream. -/
def execFnBncKick (i v : Nat) (s : State) : Res :=
  let st := v % 16
  if s.exclusive && s.fnServes i && st % 2 == 0 then .next (s.readProd (i * 8 + st / 2)) else .next s

/-- BOUNCE_PROD_POLL: the rings whose PROD was last read 10 µs ago. -/
def execBounceProdPoll (s : State) : Res :=
  if !s.up || !s.exclusive then .next s
  else .next (s.host.bce.pairs.foldl (fun s p => if p.2.polled + 1000 ≤ s.now then s.readProd p.1 else s) s)

/-! ## Opening and closing -/

/-- A key slot that a stream of an instance may open with (R436, R437). -/
def State.bceKeyOk (s : State) (i slot : Nat) : Bool :=
  let k := s.kslot slot
  s.assignable slot && k.state == .ready && k.attr == 1 && k.owner == some i
  && (k.origin != 3 || (k.session.map (·.1)) == some i) && decide (k.opens + 1 < 2 ^ 19)

/-- Both streams open with SEQ 0 and empty rings; the open counts of the slots go up. -/
def State.openPair (s : State) (i p log2 kin kout inBase outBase : Nat) : State :=
  let s := ([kin, kout].dedup).foldl (fun s k => s.modSlot k (fun x => { x with opens := x.opens + 1 })) s
  let y : Pair := { log2 := log2, keyIn := kin, keyOut := kout, inBase := inBase, outBase := outBase, inSeq := 0, outSeq := 0,
                    inProd := 0, inNext := 0, inCons := 0, outProd := 0, count := (s.kslot kin).opens, countOut := (s.kslot kout).opens,
                    broken := false, closing := false, closeCmd := none, polled := s.now }
  s.modBce (fun b => { b with pairs := tput b.pairs (i * 8 + p) y })

/-- STREAM_OPEN (R436). -/
def execStreamOpen (q : Nat) (s : State) : Res :=
  .next (s.runInst q (subIs 0x11) (fun a => a == 0) State.exclusive (fun s x c =>
    if cmdLen c < 32 then s.refuse q c.no 0x10 0x20
    else s.withBuf q x c (cmdBuf c) 32 (fun s l =>
      let i := cmdObj c
      let p := field l 0 1
      let log2 := field l 1 1
      let kin := field l 2 1
      let kout := field l 3 1
      let ib := field l 8 8
      let ob := field l 16 8
      if p = 0 ∨ 7 < p ∨ log2 < 16 ∨ 26 < log2 ∨ field l 4 4 ≠ 0 ∨ ib % 4096 ≠ 0 ∨ ob % 4096 ≠ 0 ∨ field l 24 8 ≠ 0 then
        s.refuse q c.no 0x10 0x18
      else if (s.pair (i * 8 + p)).isSome then s.refuse q c.no 0x17 0x18
      else if !s.bceKeyOk i kin then s.refuse q c.no 0x66 kin
      else if !s.bceKeyOk i kout then s.refuse q c.no 0x66 kout
      else
        let s := s.openPair i p log2 kin kout ib ob
        s.succeed q c.no (s.kslot kin).opens)))

/-- STREAM_CLOSE (R440). -/
def execStreamClose (q : Nat) (s : State) : Res :=
  .next (s.runInst q (subIs 0x12) (fun a => within 1 7 a) State.exclusive (fun s _ c =>
    let k := cmdObj c * 8 + cmdArg c
    match s.pair k with
    | none => s.refuse q c.no 0x17 0x14
    | some y =>
      if y.closing then s.refuse q c.no 0x17 0x14
      else ((s.begin_ q c.no).modPair k (fun z => { z with closing := true, closeCmd := some (q, c.no) })).closePairs))

/-- R420, R440: streams, by instance × 8 + pair, close at once; what their messages wrote is poisoned when `poison`. -/
def State.bceDropPairs (s : State) (mine : Nat → Bool) (poison : Bool) : State :=
  let ms := s.host.bce.msgs.filter (fun m => mine (m.inst * 8 + m.pair))
  let s := ms.foldl (fun s m =>
    let s := if poison && !m.out && decide (0 < m.segs) then
        match s.bounceRanges m.inst m.hdr m.data.length true with
        | .ok rs => s.poisonRanges (subRanges rs 0 (m.segs * 16384))
        | .error _ => s
      else s
    match s.pair (m.inst * 8 + m.pair) with
    | some y => if m.inSlot then s.unuseSlot (if m.out then y.keyOut else y.keyIn) else s
    | none => s) s
  (s.host.bce.pairs.filter (fun p => mine p.1)).foldl (fun s p =>
    let s := s.dropPair p.1
    match p.2.closeCmd with
    | some (q, no) => s.finish q no 0 0
    | none => s) s

/-- Every stream of the instances. -/
def State.bceDrop (s : State) (mine : Nat → Bool) (poison : Bool) : State := s.bceDropPairs (fun k => mine (k / 8)) poison

/-! ## Pair 0 (Tables 12-12, 12-13) -/

/-- The slots of a function's secure session for a pair: the lower one is the inbound one (R544). -/
def State.sessionSlots (s : State) (i p : Nat) : Option (Nat × Nat) :=
  match s.sec.slots.filter (fun k => k.2.session == some (i, p)) with
  | (a, _) :: (b, _) :: _ => some (a, b)
  | _ => none

/-- A write of FN_BNC_CTRL: LOG2 is locked while ENABLE is 1; ENABLE opens or closes pair 0. -/
def State.writeBncCtrl (s : State) (i v : Nat) : State :=
  let x := (s.inst i).fn
  let en := bit v 31
  let s := if !x.bncEnable then s.modFn i (fun y => { y with bncLog2 := bits v 20 16 })
    else if bits v 20 16 ≠ x.bncLog2 then s.lockViolation 0x090 (some i) else s
  if en = x.bncEnable then s
  else if !en then
    ((s.modFn i (fun y => { y with bncEnable := false })).modPair (i * 8) (fun z => { z with closing := true })).closePairs
  else
    let x := (s.inst i).fn
    let s := s.modFn i (fun y => { y with bncEnable := true, bncNoSession := false })
    match s.sessionSlots i 0 with
    | none => s.modFn i (fun y => { y with bncNoSession := true })
    | some (a, b) =>
      if (s.pair (i * 8)).isSome || decide (x.bncLog2 < 16) || decide (26 < x.bncLog2) || !s.bceKeyOk i a || !s.bceKeyOk i b then s
      else
        let s := s.openPair i 0 x.bncLog2 a b x.bncIn x.bncOut
        s.modFn i (fun y => { y with bncCount := (s.kslot a).opens, bncBroken := false })

/-- BNC_ENABLE: a write of FN_BNC_CTRL with ENABLE set. -/
def execBncEnable (i v : Nat) (s : State) : Res :=
  if s.exclusive && s.fnServes i && bit v 31 then .next (s.writeBncCtrl i v).settle else .next s

/-- BNC_DISABLE: a write of FN_BNC_CTRL with ENABLE clear. -/
def execBncDisable (i v : Nat) (s : State) : Res :=
  if s.exclusive && s.fnServes i && !bit v 31 then .next (s.writeBncCtrl i v).settle else .next s

end Sys2Proof.Machine
end

