-- ==== Sys2Proof/Machine/Scalar.lean ====
section
/-! DEFINITION. Running one instruction on a sort or on the compositor pair, and the scalar instructions
both have (03_sort.md R89, R94, R95, R101 to R103, R129; 04_galleys.md R149). -/

namespace Sys2Proof.Machine

/-! ## Running an instruction -/

/-- Which statuses let a sort execute: running, or already stalled at the same kind of instruction. -/
def isRunning (st : SortStatus) : Bool := st == .running

/-- A hard mismatch (R124): the sort stops before the instruction writes; the stick's spare adopts the
sliver, or the spare stick replaces the stick (04_galleys.md R159); in a retried attempt of the slug, or
with no spare left (R160), the galley is reset. -/
def State.hardMismatch (s : State) (g sl : Nat) (t : SortSt) (injected : Bool) : State :=
  let y := s.galley g
  let j := stickOf sl
  if t.book.retried then s.residueExhausted g sl
  else if (tget y.spares.sortSpare j).isNone then
    s.setSliver g sl { t.abandon with status := .adopting injected }
  else if y.spares.stickSpare.isNone && y.spares.replacing.isNone then
    (s.setSliver g sl { t.abandon with status := .adopting injected }).modGalley g (fun y =>
      { y with spares := { y.spares with replacing := some j } })
  else s.sparesExhausted g

/-- Sequential completion: PC + 4, or PC_RANGE past 0x1FFC (R103). -/
def State.sortNext (s : State) (g sl : Nat) (t : SortSt) : State :=
  if t.pc = 0x1FFC then (s.setSliver g sl t).coreException ⟨g, some sl⟩ .pcRange 0x2000
  else s.setSliver g sl { t with pc := t.pc + 4, status := .running }

/-- Execute an instruction on the sort of a sliver.  A sliver that does not exist or does not execute
takes no command. -/
def State.runSort (s : State) (g sl : Nat) (ok : SortStatus → Bool) (f : SortEnv → SortSt → SortRes) : State :=
  match (s.galley g).sliver sl with
  | none => s
  | some t =>
    if ok t.status then
      match f (s.sortEnv g sl) t with
      | .next u corr =>
        let s := if corr then { s with corrected := s.corrected + 1 } else s
        s.sortNext g sl u
      | .jump u => s.setSliver g sl { u with status := .running }
      | .stall u => s.setSliver g sl u
      | .exc c => s.coreException ⟨g, some sl⟩ c t.pc.toNat
      | .hard u => s.hardMismatch g sl u true
    else s

/-- As `runSort` for an instruction of an energy class (11_scheduling.md R396): charged when it completes. -/
def State.runUnit (s : State) (g sl cls : Nat) (f : SortEnv → SortSt → SortRes) : State :=
  let u := s.runSort g sl isRunning f
  match (s.galley g).sliver sl with
  | none => u
  | some t =>
    match isRunning t.status, f (s.sortEnv g sl) t with
    | true, .next _ _ => u.stepCharge g { Account.zero with pj := energyOf cls 1 }
    | _, _ => u

/-- What one instruction does to the compositor pair. -/
inductive CompRes
  | next (c : CompSt)
  | jump (c : CompSt)
  | stall
  | exc (c : Cause)
  deriving DecidableEq, Repr

def CompSt.gs (c : CompSt) (r : Reg) : W64 := if r = 0 then 0 else vget c.s r.toNat 0
def CompSt.ss (c : CompSt) (r : Reg) (x : W64) : CompSt := if r = 0 then c else { c with s := vset c.s r.toNat x }

/-- Compositor instruction offsets run to 0x7FFF (R149). -/
def compPcLimit : Nat := 0x8000

def State.compNext (s : State) (g : Nat) (c : CompSt) : State :=
  if c.pc = 0x7FFC then (s.modGalley g (fun y => { y with comp := c })).coreException ⟨g, none⟩ .pcRange compPcLimit
  else s.modGalley g (fun y => { y with comp := { c with pc := c.pc + 4 } })

/-- Execute an instruction on the compositor pair of a galley; `f` may also change the galley. -/
def State.runComp (s : State) (g : Nat) (f : GalleySt → CompSt → CompRes) : State :=
  let y := s.galley g
  if y.comp.status = .running then
    match f y y.comp with
    | .next c => s.compNext g c
    | .jump c => s.modGalley g (fun y => { y with comp := c })
    | .stall => s
    | .exc c => s.coreException ⟨g, none⟩ c y.comp.pc.toNat
  else s

/-- An instruction that writes one scalar register with a value of the registers, on either core. -/
def State.scalarWrite (s : State) (c : CoreId) (chk bad : Bool) (rd : Reg) (val : (Reg → W64) → W64) : State :=
  match c.sliver with
  | some sl => s.runSort c.galley sl isRunning (fun _ t =>
      if bad then .exc .illegalInstr else t.maybeChecked chk (fun u => u.ss rd (val u.gs)))
  | none => s.runComp c.galley (fun _ k => if bad then .exc .compIllegal else .next (k.ss rd (val k.gs)))

/-- A branch or jump: target (none: not taken) and the link register written with PC + 4; a PC beyond the
instruction memory raises PC_RANGE and links nothing (R103). -/
def State.scalarJump (s : State) (c : CoreId) (link : Reg) (target : (Reg → W64) → Nat → Option Nat) : State :=
  match c.sliver with
  | some sl => s.runSort c.galley sl isRunning (fun _ t =>
      match target t.gs t.pc.toNat with
      | none => .next t false
      | some a =>
        if 0x2000 ≤ a then .exc .pcRange
        else .jump { t.ss link (BitVec.ofNat 64 (t.pc.toNat + 4)) with pc := BitVec.ofNat 13 a })
  | none => s.runComp c.galley (fun _ k =>
      match target k.gs k.pc.toNat with
      | none => .next k
      | some a =>
        if compPcLimit ≤ a then .exc .pcRange
        else .jump { k.ss link (BitVec.ofNat 64 (k.pc.toNat + 4)) with pc := BitVec.ofNat 15 a })

/-! ## Meanings -/

/-- ADD SUB AND OR XOR SHL SHR SAR (Table 03-6). -/
def execAlu (c : CoreId) (op : AluOp) (rd rs rt : Reg) (s : State) : Res :=
  .next (s.scalarWrite c (aluChecked op) false rd (fun x => aluOp op (x rs) (x rt)))

/-- MUL MULHU MULHS. -/
def execMul (c : CoreId) (op : MulOp) (rd rs rt : Reg) (s : State) : Res :=
  .next (s.scalarWrite c true false rd (fun x => mulOp op (x rs) (x rt)))

/-- DIVU REMU DIVS REMS (R102). -/
def execDiv (c : CoreId) (op : DivOp) (rd rs rt : Reg) (s : State) : Res :=
  .next (s.scalarWrite c true false rd (fun x => divOp op (x rs) (x rt)))

/-- SLT SLTU MIN MAX MINU MAXU. -/
def execCmp (c : CoreId) (op : CmpOp) (rd rs rt : Reg) (s : State) : Res :=
  .next (s.scalarWrite c false false rd (fun x => cmpOp op (x rs) (x rt)))

/-- POPC CLZ; a nonzero rt field is illegal (Table 03-6, R100). -/
def execCount (c : CoreId) (op : CountOp) (rd rs rt : Reg) (s : State) : Res :=
  .next (s.scalarWrite c false (rt != 0) rd (fun x => countOp op (x rs)))

/-- ADDI ANDI ORI XORI SHLI SHRI SARI SLTI. -/
def execAluImm (c : CoreId) (op : ImmOp) (rd rs : Reg) (imm : BitVec 12) (s : State) : Res :=
  .next (s.scalarWrite c (op == .addi) (immIllegal op imm) rd (fun x => immOp op (x rs) imm))

/-- LUI. -/
def execLui (c : CoreId) (rd : Reg) (imm : BitVec 20) (s : State) : Res :=
  .next (s.scalarWrite c false false rd (fun _ => luiVal imm))

/-- Conditional branches (R103). -/
def execBranch (c : CoreId) (op : BrOp) (rs rt : Reg) (off : BitVec 12) (s : State) : Res :=
  .next (s.scalarJump c 0 (fun x pc => if brTaken op (x rs) (x rt) then some (relTarget pc off.toInt) else none))

/-- JAL. -/
def execJal (c : CoreId) (rd : Reg) (off : BitVec 20) (s : State) : Res :=
  .next (s.scalarJump c rd (fun _ pc => some (relTarget pc off.toInt)))

/-- JALR: bits [1:0] of the target cleared. -/
def execJalr (c : CoreId) (rd rs : Reg) (imm : BitVec 12) (s : State) : Res :=
  .next (s.scalarJump c rd (fun x _ => some ((x rs + imm64 imm).toNat / 4 * 4)))

/-- Where a compositor address lies (R149): data memory or galley store; none otherwise. -/
def compSpace (a n : Nat) : Option (Bool × Nat) :=
  if a + n ≤ 0x8000 then some (false, a)
  else if 0x400000 ≤ a ∧ a + n ≤ 0x400000 + galleyBytes then some (true, a - 0x400000)
  else none

/-- LB LH LW LD LBU LHU LWU (R94, R149). -/
def execLoad (c : CoreId) (op : LoadOp) (rd rs : Reg) (imm : BitVec 12) (s : State) : Res :=
  let n := (loadShape op).1
  .next (match c.sliver with
    | some sl => s.runSort c.galley sl isRunning (fun _ t =>
        t.caseLoad (t.ea rs imm) n (fun x => t.ss rd (loadVal op x)))
    | none => s.runComp c.galley (fun y k =>
        let a := (k.gs rs + imm64 imm).toNat
        if a % n ≠ 0 then .exc .misaligned
        else match compSpace a n with
          | none => .exc .compRange
          | some (gs, o) => .next (k.ss rd (loadVal op (mload (if gs then y.store else k.dmem) o n)))))

/-- Whether a compositor store to the galley store meets the image area (R149). -/
def inImageArea (o n : Nat) : Bool := overlaps o n codeBase (generalBase - codeBase)

/-- SB SH SW SD (R95, R149). -/
def execStore (c : CoreId) (op : StoreOp) (rs rt : Reg) (imm : BitVec 12) (s : State) : Res :=
  let n := storeBytes op
  match c.sliver with
  | some sl => .next (s.runSort c.galley sl isRunning (fun _ t => t.caseStore (t.ea rs imm) n (t.gs rt).toNat))
  | none =>
    let y := s.galley c.galley
    let k := y.comp
    let a := (k.gs rs + imm64 imm).toNat
    if k.status ≠ .running then .next s
    else if a % n ≠ 0 then .next (s.coreException c .misaligned k.pc.toNat)
    else match compSpace a n with
      | none => .next (s.coreException c .compRange k.pc.toNat)
      | some (false, o) => .next (s.compNext c.galley { k with dmem := mstore k.dmem o n (k.gs rt).toNat })
      | some (true, o) =>
        if inImageArea o n then .next (s.coreException c .compRange k.pc.toNat)
        else .next (((s.modGalley c.galley (fun y => { y with store := mstore y.store o n (k.gs rt).toNat })).compNext
          c.galley k).forwardReport c.galley o n)

end Sys2Proof.Machine
end

