-- ==== Sys2Proof/Machine/Compositor.lean ====
section
/-! DEFINITION. The meanings of the compositor instructions (04_galleys.md Table 04-7, R149 to R154). -/

namespace Sys2Proof.Machine

/-- The fields that a compositor instruction does not use must be 0 (Table 04-7): none is legal. -/
def compLegal (l : List Reg) (r : CompRes) : CompRes := if l.any (fun x => x != 0) then .exc .compIllegal else r

/-- DSTART: start a share of the current LAUNCH; stalls while one is running; SHARE_INDEX for a share not
in the galley's bitmap; after an exception no further share of the LAUNCH starts (R158). -/
def execDstart (g : Nat) (rd rs rt : Reg) (s : State) : Res :=
  let y := s.galley g
  let k := y.comp
  if k.status ≠ .running then .next s
  else if rd ≠ 0 ∨ rt ≠ 0 then .next (s.coreException ⟨g, none⟩ .compIllegal k.pc.toNat)
  else if y.share.isSome || y.lastShare == 2 then .next s
  else
    let i := (k.gs rs).toNat % 64
    match y.cur, y.image with
    | some l, some im =>
      if l.shares.contains i then
        .next ((s.setGalley g (y.startShare i im.2.slivers)).compNext g k)
      else .next (s.coreException ⟨g, none⟩ .shareIndex k.pc.toNat)
    | _, _ => .next (s.coreException ⟨g, none⟩ .shareIndex k.pc.toNat)

/-- DWAIT: stalls while a share runs; rd = 0, or 2 after an exception. -/
def execDwait (g : Nat) (rd rs rt : Reg) (s : State) : Res :=
  .next (s.runComp g (fun y k => compLegal [rs, rt]
    (if y.share.isSome then .stall else .next (k.ss rd (BitVec.ofNat 64 y.lastShare)))))

/-- Slivers of the running share that have ended. -/
def GalleySt.endedCount (y : GalleySt) : Nat := (y.slivers.filter (fun p => p.2.status == .ended)).length

/-- DSTAT: [63] running, [53:48] share index, [47:39] slivers ended. -/
def execDstat (g : Nat) (rd rs rt : Reg) (s : State) : Res :=
  .next (s.runComp g (fun y k => compLegal [rs, rt] (.next (k.ss rd (match y.share with
    | none => 0
    | some sh => BitVec.ofNat 64 (2 ^ 63 + sh.index % 64 * 2 ^ 48 + y.endedCount * 2 ^ 39))))))

/-- R151: a move descriptor; none when a field is outside its range. -/
def parseMove (l : List Byte) : Option GMove :=
  let a := field l 0 8
  let b := field l 8 8
  let side (x : Nat) : Option (Bool × Nat) :=
    if bit x 63 then (if x % 2 ^ 63 < 2 ^ 22 then some (true, x % 2 ^ 22) else none)
    else if x < 2 ^ 48 then some (false, x) else none
  let len := field l 0x10 4
  let rows := field l 0x14 2
  let ss := field l 0x18 4
  let ds := field l 0x1C 4
  match side a, side b with
  | some (sg, sa), some (dg, da) =>
    if sa % 64 = 0 ∧ da % 64 = 0 ∧ len % 64 = 0 ∧ 64 ≤ len ∧ len ≤ 2 ^ 24 ∧ 1 ≤ rows ∧ field l 0x16 2 = 0
        ∧ ss % 64 = 0 ∧ ds % 64 = 0
        ∧ (!sg || decide (sa + (rows - 1) * ss + len ≤ galleyBytes)) = true
        ∧ (!dg || (decide (generalBase ≤ da) && decide (da + (rows - 1) * ds + len ≤ galleyBytes))) = true then
      some ⟨sg, sa, dg, da, len, rows, ss, ds, true, []⟩
    else none
  | _, _ => none

/-- Row r of one side of a move. -/
def GMove.rowAt (base stride r : Nat) : Nat := base + r * stride

/-- GMOVE: start the move described at a data-memory offset; the lowest free tag; stalls while all 16 are
busy; MOVE_FORMAT moves nothing. -/
def execGmove (g : Nat) (rd rs rt : Reg) (s : State) : Res :=
  let y := s.galley g
  let k := y.comp
  if k.status ≠ .running then .next s
  else if rt ≠ 0 then .next (s.coreException ⟨g, none⟩ .compIllegal k.pc.toNat)
  else
    let a := (k.gs rs).toNat
    if 0x8000 < a + 32 then .next (s.coreException ⟨g, none⟩ .compRange k.pc.toNat)
    else if a % 8 ≠ 0 then .next (s.coreException ⟨g, none⟩ .moveFormat k.pc.toNat)
    else match parseMove (mread k.dmem a 32) with
      | none => .next (s.coreException ⟨g, none⟩ .moveFormat k.pc.toNat)
      | some m =>
        match lowestFree y.moves 16 0 with
        | none => .next s
        | some tag =>
          let old := if m.srcGs then (List.range m.rows).flatMap (fun r => mread y.store (GMove.rowAt m.src m.srcStride r) m.len) else []
          .next ((s.setGalley g { y with moves := tput y.moves tag { m with old := old } }).compNext g
            (k.ss rd (BitVec.ofNat 64 tag)))

/-- GMWAIT: stalls until every masked tag is free; a mask of 0 waits for all. -/
def execGmwait (g : Nat) (rd rs rt : Reg) (s : State) : Res :=
  .next (s.runComp g (fun y k => compLegal [rd, rt]
    (let m := (k.gs rs).toNat % 65536
     if y.moves.any (fun p => m == 0 || bit m p.1) then .stall else .next k)))

/-- GFLUSH: completed moves' writes are accepted at their ordering points when their tag is released, so
nothing is left to wait for. -/
def execGflush (g : Nat) (rd rs rt : Reg) (s : State) : Res :=
  .next (s.runComp g (fun _ k => compLegal [rd, rs, rt] (.next k)))

/-- QWAIT: press loop only; stalls until a LAUNCH is available; rd = its queue ID (R150). -/
def execQwait (g : Nat) (rd rs rt : Reg) (s : State) : Res :=
  let press : Bool := ((s.galley g).image.map (fun i => i.2.press)) == some true
  let s := if press && (s.galley g).comp.status == .running && rs == 0 && rt == 0 then s.noteTook g else s
  .next (s.runComp g (fun y k => compLegal [rs, rt]
    (if !press then .exc .compIllegal
     else match y.next with
       | none => .stall
       | some l => .next (k.ss rd (BitVec.ofNat 64 l.queue)))))

/-- Bitmap of share indices. -/
def shareMap (l : List Nat) : W64 := BitVec.ofNat 64 ((List.range 64).foldl (fun x i => if l.contains i then x + 2 ^ i else x) 0)

/-- QTAKE: the available LAUNCH becomes current and its area active; rd = the galley's shares of it. -/
def execQtake (g : Nat) (rd rs rt : Reg) (s : State) : Res :=
  let y := s.galley g
  let k := y.comp
  if k.status ≠ .running then .next s
  else if rs ≠ 0 ∨ rt ≠ 0 then .next (s.coreException ⟨g, none⟩ .compIllegal k.pc.toNat)
  else match y.next with
    | none => .next s
    | some l =>
      let s := (s.setGalley g { y with cur := some l, next := none, areaB := !y.areaB, lastShare := 0 }).noteTook g
      let s := s.modCmd l.queue l.pos (fun c => if c.st = .fetched then { c with st := .started, start := s.now } else c)
      let s := (s.openMailbox g l.queue l.pos).modStep l.step (fun p => { p with taken := p.taken.insert g })
      .next (s.compNext g (k.ss rd (shareMap l.shares)))

/-- QINFO: [63] STORES_KEPT, [62] area B active, [59:48] context, [47:40] instance. -/
def execQinfo (g : Nat) (rd rs rt : Reg) (s : State) : Res :=
  .next (s.runComp g (fun y k => compLegal [rs, rt] (.next (k.ss rd
    (BitVec.ofNat 64 (b2n y.storesKept * 2 ^ 63 + b2n y.areaB * 2 ^ 62
      + ((y.cur.map (·.ctx)).getD 0) % 4096 * 2 ^ 48 + ((y.cur.map (·.inst)).getD 0) % 256 * 2 ^ 40))))))

/-- QEXIT: the compositor program ends and the galley idles. -/
def execQexit (g : Nat) (rd rs rt : Reg) (s : State) : Res :=
  let y := s.galley g
  if y.comp.status ≠ .running then .next s
  else if rd ≠ 0 ∨ rs ≠ 0 ∨ rt ≠ 0 then .next (s.coreException ⟨g, none⟩ .compIllegal y.comp.pc.toNat)
  else .next (s.setGalley g { y with comp := { y.comp with status := .idle } })

/-- A step's access failed: a fault loses its context, and its LAUNCH completes FAULTED; the unit-reset
response ends the step with UNIT_RESET and keeps the context (12_host_port.md R414, 14_recovery.md R477,
R493). -/
def State.stepAccess (s : State) (g : Nat) (e : AccErr) : State :=
  match (s.galley g).owner, s.ownerOf g, e with
  | _, some p, .fault 0x2004 va info =>
    s.loseContext p.ctx { faultOf 0x2004 with unitType := 0x03, logical := g, phys := s.physGalley g, addr := va, info0 := info }
      (some (p.queue, p.no))
  | _, some p, .fault _ _ _ => s.accFault p.ctx e (some (p.queue, p.no))
  | some k, some p, .unitReset => (s.finish p.queue p.no 0x23 0).endStep k true
  | _, _, _ =>
    match (s.galley g).ctx with
    | some c => s.accFault c e none
    | none => s

/-- One row of a move: read, then write (R161, R36). -/
def State.moveRow (s : State) (g c : Nat) (m : GMove) (r : Nat) : Option AccErr × State :=
  let sa := GMove.rowAt m.src m.srcStride r
  let da := GMove.rowAt m.dst m.dstStride r
  let got : Except AccErr (List Byte) × State :=
    if m.srcGs then
      (.ok (raceChunks (fun i => Config.raceNew s.fresh (r * 262144 + i)) (m.len / 64) 0
        ((m.old.drop (r * m.len)).take m.len) (mread (s.galley g).store sa m.len)), s)
    else s.ctxRead c (sa % 2 ^ 64) m.len
  match got with
  | (.error e, s) => (some e, s)
  | (.ok l, s) =>
    if m.dstGs then (none, s.modGalley g (fun y => { y with store := mwrite y.store da l }))
    else s.ctxWrite c da l

/-- MOVE_DONE (R151, R152): every row is read and written in turn and the tag is free; a failing access
stops the move there. -/
def execMoveDone (g tag : Nat) (s : State) : Res :=
  let y := s.galley g
  match tget y.moves tag, y.ctx with
  | some m, some c =>
    let s0 := s
    let r := (List.range m.rows).foldl (fun (r : Option AccErr × State) i =>
      match r.1 with
      | some _ => r
      | none => r.2.moveRow g c m i) (none, s)
    let s := State.tagCmd { r.2 with fresh := r.2.fresh + 1 } s0 g
    let s := s.modGalley g (fun y => { y with moves := tdel y.moves tag })
    match r.1 with
    | none => .next (s.stepCharge g { Account.zero with pj := energyOf 4 (m.rows * (m.len / 64)) })
    | some e => .next ((s.stepAccess g e).settle)
  | _, _ => .next s

/-- QDONE: stalls until no share runs and every move tag is free; reports the galley's shares done with
result flags s(rs)[15:0].  The last galley of the step completes the LAUNCH (R150, R137, R393). -/
def execQdone (g : Nat) (rd rs rt : Reg) (s : State) : Res :=
  let y := s.galley g
  let k := y.comp
  if k.status ≠ .running then .next s
  else if rd ≠ 0 ∨ rt ≠ 0 then .next (s.coreException ⟨g, none⟩ .compIllegal k.pc.toNat)
  else if y.share.isSome || !y.moves.isEmpty then .next s
  else match y.cur with
    | none => .next (s.compNext g k)
    | some l =>
      let fl := (k.gs rs).toNat % 65536
      let s := (s.setGalley g { y with cur := none, owner := none, storesKept := true }).compNext g k
      let s := s.modStep l.step (fun p => { p with doneBy := p.doneBy.insert g, rflags := p.rflags ||| fl })
      match tget s.steps l.step with
      | none => .next s
      | some p =>
        if p.galleys.all (fun x => p.doneBy.contains x) then
          .next (((s.endStep l.step false).finish p.queue p.no 0 0).settle)
        else .next s.settle

/-- LOCKSTEP_CHECK (R148): the two compositors' checksums are compared; where they differ the galley is
reset. -/
def execLockstepCheck (g : Nat) (differ : Bool) (s : State) : Res :=
  let k := (s.galley g).comp
  if differ && s.galleyUp g then
    .next (s.takeFault (s.causeRecord ⟨g, none⟩ 0x7015 k.pc.toNat) (.galley g))
  else .next s

/-- The image of a galley's load is placed, and the program starts or goes on (R140, R154). -/
def GalleySt.loaded (y : GalleySt) (key : Nat) (im : ImageInfo) (l : List Byte) : GalleySt :=
  let y := ({ y with loading := false }).place key im l
  if y.comp.status = .stopped then
    (match y.next with
     | some n => y.writeArea n.cmd n.patch
     | none => y).goOn
  else match y.next with
    | some n => y.offer n
    | none => y

/-- IMAGE_LOAD_VERIFY (10_queues.md R351): the image is read and its tag recomputed; a mismatch loses the
context, an erased seal key ends the step with KEY_DESTROYED (15_security.md R521). -/
def execImageLoadVerify (g : Nat) (s : State) : Res :=
  let y := s.galley g
  match y.owner, s.ownerOf g with
  | some k, some p =>
    if !y.loading then .next s
    else if s.sec.keyless then .next (((s.finish p.queue p.no 0x69 1).endStep k true).settle)
    else
      let se := p.sealed_
      let s0 := s
      match s.ctxRead p.ctx se.imageVA se.bytes with
      | (.error e, s) => .next ((s.stepAccess g e).settle)
      | (.ok l, s) =>
        let s := s.tagCmd s0 g
        if sealTag s.sealKey p.ctx p.sealNo p.sealGen se.imageVA se.info l = se.tag then
          .next (s.modGalley g (fun y => y.loaded (imageKey p.sealNo p.sealGen) se.info l))
        else
          let r := { faultOf 0x3001 with unitType := 0x0F, phys := 1, addr := se.imageVA, info0 := p.sealNo, info1 := p.sealGen }
          .next ((s.loseContext p.ctx r (some (p.queue, p.no))).settle)
  | _, _ => .next s

end Sys2Proof.Machine
end

