-- ==== Sys2Proof/Machine/NetOps.lean ====
section
/-! DEFINITION. Shared operations of the network ports and the quire transport: frames, ports, ACKs, the ends of
messages sent and received, broken connections (13_network.md R443 to R457, R461 to R464). -/

namespace Sys2Proof.Machine

/-! ## Connections and ports -/

def State.conn (s : State) (n : Nat) : ConnSt := (tget s.net.conns n).getD ConnSt.fresh
def State.modConn (s : State) (n : Nat) (f : ConnSt → ConnSt) : State :=
  { s with net := { s.net with conns := tmod s.net.conns n f } }
def State.isOpen (s : State) (n : Nat) : Bool := (s.conn n).state == .opened

def State.port (s : State) (p : Nat) : PortSt := vget s.net.ports p PortSt.reset
def State.modPort (s : State) (p : Nat) (f : PortSt → PortSt) : State :=
  { s with net := { s.net with ports := vset s.net.ports p (f (s.port p)) } }

/-- Whether a logical port exists in the mode of its physical port (R441). -/
def State.portExists (s : State) (p : Nat) : Bool :=
  decide (p < 8) && (p % 2 == 0 || (tget s.net.mode (p / 2)).getD 0 == 1)

/-- A counted event of a port, by the SUB of its counter (R443): 1 frames received, 2 sent, 3 MAC drops, 4 parse
drops, 5 PFC overruns, 6 lossy drops, 7 raw drops. -/
def State.portCount (s : State) (p kind : Nat) : State :=
  s.count (0x8300 + p) kind 1

/-! ## Transmit (R442, R444, R445) -/

def PortSt.pausedNow (y : PortSt) (pri now : Nat) : Bool :=
  match tget y.paused pri with
  | some t => decide (now < t)
  | none => false

/-- A frame to send: discarded while the link is down, queued while its priority is paused. -/
def State.sendFrame (s : State) (p pri : Nat) (l : List Byte) (front : Bool) : State :=
  let y := s.port p
  if !y.up then s
  else if y.pausedNow pri s.now then
    s.modPort p (fun y =>
      let q := (tget y.txq pri).getD []
      { y with txq := tput y.txq pri (if front then l :: q else q ++ [l]) })
  else State.portCount { s with out := s.out ++ [.frame p l] } p 2

/-- The priority served next by the weighted round robin, with the turns then left. -/
def PortSt.nextTurn (y : PortSt) (now : Nat) : Option (Nat × Nat) :=
  let ready (pri : Nat) : Bool := !((tget y.txq pri).getD []).isEmpty && !y.pausedNow pri now
  if y.turn.2 ≠ 0 ∧ ready y.turn.1 then some (y.turn.1, y.turn.2 - 1)
  else match (List.range 8).find? (fun i => ready ((y.turn.1 + 1 + i) % 8)) with
    | some i =>
      let pri := (y.turn.1 + 1 + i) % 8
      some (pri, (y.weights[pri]?).getD 1 - 1)
    | none => none

/-- Send the queued frames of priorities that are not paused. -/
def State.drainPort (p : Nat) : Nat → State → State
  | 0, s => s
  | n + 1, s =>
    let y := s.port p
    match y.nextTurn s.now with
    | none => s
    | some (pri, left) =>
      let q := (tget y.txq pri).getD []
      let s := s.modPort p (fun y => { y with turn := (pri, left), txq := tput y.txq pri (q.drop 1) })
      State.drainPort p n (State.portCount { s with out := s.out ++ (q.take 1).map (fun l => Out.frame p l) } p 2)

def State.drainTx (s : State) (p : Nat) : State :=
  State.drainPort p ((s.port p).txq.map (fun q => q.2.length)).sum s

/-! ## Frames -/

/-- Sum of big-endian 16-bit words, an odd last byte padded with 0. -/
def sum16 : List Byte → Nat
  | a :: b :: l => a.toNat * 256 + b.toNat + sum16 l
  | [a] => a.toNat * 256
  | [] => 0

def foldSum (x : Nat) : Nat := (x % 65536 + x / 65536) % 65536 + (x % 65536 + x / 65536) / 65536

/-- The Internet checksum of bytes, before the rule for 0. -/
def inetSum (l : List Byte) : Nat := 65535 - foldSum (foldSum (sum16 l)) % 65536

/-- What the UDP checksum covers beside the datagram: the IPv6 pseudo-header. -/
def pseudoHdr (src dst : List Byte) (len : Nat) : List Byte := src ++ dst ++ toBE 4 len ++ toLE 3 0 ++ [17]

/-- The quire header (Table 13-4). -/
structure QHdr where
  typ : Nat
  enc : Bool
  payLen : Nat
  dst : Nat
  src : Nat
  epoch : Nat
  seq : Nat
  ref : Nat
  off : Nat
  exec : Nat
  code : Nat
  frame : Nat
  nonce : Nat
  deriving DecidableEq, Repr

def QHdr.bytes (h : QHdr) : List Byte :=
  toLE 2 0x5157 ++ toLE 1 1 ++ toLE 1 h.typ ++ toLE 1 (b2n h.enc) ++ toLE 1 0 ++ toLE 2 h.payLen ++ toLE 2 h.dst ++ toLE 2 h.src
    ++ toLE 4 h.epoch ++ toLE 4 h.seq ++ toLE 4 h.ref ++ toLE 4 h.off ++ toLE 2 h.exec ++ toLE 2 h.code ++ toLE 8 h.frame
    ++ toLE 4 h.nonce ++ toLE 4 0

def QHdr.read (l : List Byte) : QHdr :=
  { typ := field l 3 1, enc := bit (field l 4 1) 0, payLen := field l 6 2, dst := field l 8 2, src := field l 0x0A 2,
    epoch := field l 0x0C 4, seq := field l 0x10 4, ref := field l 0x14 4, off := field l 0x18 4, exec := field l 0x1C 2,
    code := field l 0x1E 2, frame := field l 0x20 8, nonce := field l 0x28 4 }

/-- A whole frame of connection n around a quire header, payload and tag (Table 13-3). -/
def quireFrame (pt : PortSt) (n : Nat) (y : ConnSt) (body : List Byte) : List Byte :=
  let len := 8 + body.length
  let src := toBE 16 pt.ip
  let dst := toBE 16 y.peerIp
  let udp0 := toBE 2 (49152 + n) ++ toBE 2 pt.quirePort ++ toBE 2 len
  let c := inetSum (pseudoHdr src dst len ++ udp0 ++ toLE 2 0 ++ body)
  let l := toBE 6 y.peerMac ++ toBE 6 pt.mac ++ toBE 2 0x8100 ++ toBE 2 (y.pcp * 8192 + y.vid) ++ toBE 2 0x86DD
    ++ toBE 4 (6 * 2 ^ 28 + y.dscp * 4 * 2 ^ 20 + n) ++ toBE 2 len ++ [17, 64] ++ src ++ dst
    ++ udp0 ++ toBE 2 (if c = 0 then 65535 else c) ++ body
  l ++ toLE 4 (crc32 l)

/-- Whether no frame of a connection may start: its TX_KEY is being replaced (R462). -/
def State.keyHeld (s : State) (n : Nat) : Bool :=
  let y := s.conn n
  y.enc && (s.kslot y.txKey).state != .ready

/-- Send one quire frame of an OPEN connection (R446, R448, R461); none starts while its key is being replaced (R462). -/
def State.sendQuire (s : State) (n typ seq ref off exec code : Nat) (pay : List Byte) (front : Bool) : State :=
  if s.keyHeld n then s
  else
  let y := s.conn n
  let h : QHdr := { typ := typ, enc := y.enc, payLen := pay.length, dst := y.peerConn, src := n, epoch := y.txEpoch,
                    seq := seq, ref := ref, off := off, exec := exec, code := code, frame := y.frame,
                    nonce := if y.enc then y.nonce else 0 }
  let body := if y.enc then
      let e := gcmEncrypt (s.kslot y.txKey).key (y.nonce * 2 ^ 64 + y.frame) h.bytes pay
      h.bytes ++ e.1 ++ e.2
    else h.bytes ++ pay
  let s := (s.modConn n (fun y => { y with frame := (y.frame + 1) % 2 ^ 64 })).account none y.inst
    { Account.zero with pj := energyOf 8 ((pay.length + 63) / 64) }
  s.sendFrame y.port y.pcp (quireFrame (s.port y.port) n y body) front

/-- Payload bytes of a message, counted for the connection's instance, and for its context when `ctx` (R464). -/
def State.netBytes (s : State) (n bytes : Nat) (ctx : Bool) : State :=
  let y := s.conn n
  s.account (if ctx then some y.ctx else none) y.inst { Account.zero with net := bytes }

/-! ## The receiving side (R453) -/

/-- The distance from b up to a in serial arithmetic. -/
def seqAhead (a b : Nat) : Nat := (a + 2 ^ 32 - b) % 2 ^ 32

/-- CUM moved past every SEQ that is done. -/
def cumOf (done : Tab RxDone) : Nat → Nat → Nat
  | 0, c => c
  | n + 1, c => if thas done c then cumOf done n ((c + 1) % 2 ^ 32) else c

/-- Base of the block of 2,048 that holds a SEQ above CUM; 0 for any other. -/
def ackBase (cum seq : Nat) : Nat :=
  let d := seqAhead seq cum
  if d = 0 ∨ 16384 ≤ d then 0 else (d - 1) / 2048 * 2048

/-- A report or an ACK is due within 2 µs. -/
def ConnSt.wantAck (y : ConnSt) (base now : Nat) : ConnSt :=
  { y with ackBases := if y.ackBases.contains base then y.ackBases else y.ackBases ++ [base],
           ackDue := some (match y.ackDue with | some t => t | none => now + 200) }

/-- A received message is done: its entry of the receive state, CUM, an ACK, and a report of a TABLE_UPDATE
with failures.  What the entry's flags hold is not stated: a free value. -/
def State.msgDone (s : State) (n seq fail word : Nat) (update : Bool) : State :=
  let y := s.conn n
  let flags := Config.freeValue s.fresh % 65536
  let r := State.ctxWrite { s with fresh := s.fresh + 1 } y.ctx (y.rxStateVA + seq % 16384 * 16)
    (toLE 4 seq ++ toLE 2 fail ++ toLE 2 flags ++ toLE 8 word)
  let s := match r.1 with
    | some e => r.2.accFault y.ctx e none
    | none => r.2
  s.modConn n (fun y =>
    let done := tput (tkeep y.done (fun k _ => decide (seqAhead y.cum k ≤ 16384) || decide (seqAhead k y.cum < 16384))) seq ⟨fail, word⟩
    let cum := cumOf done 16384 y.cum
    let y := { y with done := done, cum := cum,
                      reports := if update && fail != 0 then y.reports ++ [(seq, fail, word)] else y.reports }
    y.wantAck (ackBase cum seq) s.now)

/-- Send an ACK with base B (R453). -/
def State.sendAck (s : State) (n base : Nat) : State :=
  let y := s.conn n
  let map := (List.range 2048).foldl (fun m i => if thas y.done ((y.cum + 1 + base + i) % 2 ^ 32) then m + 2 ^ i else m) 0
  let reps := y.reports.take 32
  let pay := toLE 256 map ++ toLE 2 reps.length ++ toLE 6 0
    ++ reps.flatMap (fun r => toLE 4 r.1 ++ toLE 2 r.2.1 ++ toLE 2 0 ++ toLE 8 r.2.2)
  (s.modConn n (fun y => { y with reports := y.reports.drop 32 })).sendQuire n 5 0 y.cum base 0 0 pay true

/-- Refuse a message (R455). -/
def State.sendNack (s : State) (n seq code : Nat) : State := s.sendQuire n 6 0 seq 0 0 code [] true

/-! ## The sending side (R452, R454) -/

/-- Write the outcome of the entries at the front of the send ring that are done, and move CONS past them. -/
def State.retireSends (n : Nat) : Nat → State → State
  | 0, s => s
  | k + 1, s =>
    let y := s.conn n
    match y.outst with
    | [] => s
    | o :: rest =>
      match o.outcome with
      | none => s
      | some (fail, word, out) =>
        let va := y.sendVA + o.pos % 2 ^ y.sendLog2
        let cons := o.pos + o.len
        let wr (r : Option AccErr × State) (a : Nat) (l : List Byte) : Option AccErr × State :=
          match r.1 with
          | some e => (some e, r.2)
          | none => r.2.ctxWrite y.ctx a l
        let r : Option AccErr × State := (none, s)
        let r := if o.type = 0 then r else wr r (va + 0x20) (toLE 8 word ++ toLE 2 fail ++ toLE 1 out)
        let r := if o.type = 0 ∨ o.doneVA = 0 then r else wr r o.doneVA (toLE 8 (o.doneValue % 2 ^ 63 + b2n (out == 1) * 2 ^ 63))
        let r := wr r (y.sendCtrl + 8) (toLE 8 cons)
        match r.1 with
        | some .unitReset => s
        | some e => r.2.accFault y.ctx e none
        | none => State.retireSends n k (r.2.modConn n (fun y => { y with outst := rest, cons := cons }))

def State.retireAll (s : State) (n : Nat) : State := State.retireSends n (s.conn n).outst.length s

/-- One entry of a connection has its outcome. -/
def State.sendDone (s : State) (n seq fail word : Nat) : State :=
  (s.modConn n (fun y => { y with outst := y.outst.map (fun (o : Outst) =>
    if o.seq = seq ∧ o.type ≠ 0 ∧ o.outcome.isNone then { o with outcome := some (fail, word, 0) } else o) })).retireAll n

/-- What breaking does to the send side and to what is being received. -/
def State.stopConn (s : State) (n : Nat) (state : ConnState) : State :=
  let s := s.modConn n (fun y => { y with
    outst := y.outst.map (fun (o : Outst) => if o.outcome.isNone then { o with outcome := some (0, 0, 1) } else o) })
  let s := s.retireAll n
  let s := { s with gathers := tkeep s.gathers (fun _ g => g.conn != n) }
  s.modConn n (fun y => { y with state := state, waiting := [], applying := [], ackBases := [], ackDue := none, reports := [], outst := [] })

/-- CONNECTION_BREAK (R454). -/
def State.breakConn (s : State) (n code : Nat) : State :=
  if !s.isOpen n then s
  else
    let y := s.conn n
    let s := (s.modConn n (fun y => { y with breakCode := code })).stopConn n .broken
    s.fault { faultOf 0x3006 with inst := some y.inst, unitType := 0x0A, logical := y.port, phys := n, info0 := n, info1 := code } []

/-- A connection's own access to its context's memory failed. -/
def State.connFault (s : State) (n : Nat) (e : AccErr) : State := s.accFault (s.conn n).ctx e none

end Sys2Proof.Machine
end

