-- ==== Sys2Proof/Machine/TableLife.lean ====
section
/-! DEFINITION. Defining, retiring and adopting tables (05_tables.md R168 to R178). -/

namespace Sys2Proof.Machine

/-- The table command in execution: one at a time (R168). -/
def State.tableCmd (s : State) : Option (Nat × Cmd) :=
  s.queues.findSome? (fun p => (p.2.cmds.find? (fun (c : Cmd) =>
    c.st == .started && (c.op == 0x50 || c.op == 0x51))).map (fun c => (p.1, c)))

/-- Run a table command; it waits while another one is in execution. -/
def State.runTable (s : State) (q op : Nat) (f : State → QueueSt → Cmd → State) : State :=
  if s.tableCmd.isSome then s else s.runCmd q op f

/-- The device address of a range of a context that is mapped in one piece with TABLE, read and write (R173). -/
def CtxSt.tableRange (x : CtxSt) (va n : Nat) : Option Nat :=
  match x.leafAt va with
  | none => none
  | some (_, a) =>
    let ok (p : Nat × Nat) : Bool := match x.leafAt p.1 with
      | some (l, b) => !l.host && l.table && l.r && l.w && b == a + (p.1 - va)
      | none => false
    if (rangePieces va n).all ok then some a else none

/-- Whether every page of a device range is mapped by a context with TABLE, read and write, at any address. -/
def CtxSt.tableMapped (x : CtxSt) (a n : Nat) : Bool :=
  (rangePieces a n).all (fun p => x.leaves.any (fun l =>
    !l.2.host && l.2.table && l.2.r && l.2.w && decide (l.2.target ≤ p.1)
    && decide (p.1 + p.2 ≤ l.2.target + (if l.2.big then 2 ^ 21 else 65536))))

/-- A supplied descriptor with its addresses translated; none where an area is not one range of device memory
with the table attribute (R171, R173). -/
def CtxSt.tablePhys (x : CtxSt) (d : TableDesc) : Option TableDesc :=
  let len (i : Nat) : Nat := match d.areas.filter (fun a => a.1 == i) with
    | a :: _ => a.2.1
    | [] => 0
  let aux := d.flags.dynamic || d.flags.mapped
  match x.tableRange d.rowBase (len d.rowBase),
      (if aux then x.tableRange d.auxBase (len d.auxBase) else some 0),
      (if aux then x.tableRange d.freeBase (len d.freeBase) else some 0),
      (if 14 ≤ d.rowFormat then x.tableRange d.codebookBase (len d.codebookBase) else some 0) with
  | some r, some a, some f, some c => some { d with rowBase := r, auxBase := a, freeBase := f, codebookBase := c }
  | _, _, _, _ => none

/-- TABLE_DEFINE (R170 to R175): an accepted one enters DEFINING. -/
def execTableDefine (q : Nat) (s : State) : Res :=
  .next (s.runTable q 0x50 (fun s x c =>
    let t := field c.body 0x10 2
    let no (s : State) (st d : Nat) := s.refuse q c.no st d
    match s.namedCtx x (field c.body 0x12 2) 0x12 with
    | .error (st, d) => no s st d
    | .ok cx =>
      if cx.state = .lost then no s 0x17 0x12
      else if thas s.tables t then no s 0x41 0x10
      else
        let va := field c.body 0x18 8
        match s.kernelRead x.inst va 128 with
        | none => s.cmdFault q x c 0x2003 va (Config.linkStatus va)
        | some l =>
          let s := (s.kernelCharge x.inst va 128).tagInst s x.inst q c.no
          let d := tableOfImage l
          let home := match cx.leafAt d.rowBase with
            | some (_, a) => stackOf a
            | none => 8
          if !tableImageOk l t || (x.inst != 0 && d.owner != x.inst) || (d.flags.mirrored && d.mirrorStack == home) then no s 0x40 0x18
          else match cx.tablePhys d with
            | none => no s 0x42 0x18
            | some d =>
              if !s.areasPlaced t d
                  || (d.flags.mirrored && !(d.areas.filter (·.2.2)).all (fun a => cx.tableMapped (d.copyAddr true a.1) a.2.1)) then
                no s 0x42 0x18
              else State.begin_ { s with tables := tput s.tables t d } q c.no))

/-- TABLE_DEFINE_DONE (R175): the buckets are zeroed, and the table serves.  A mirror whose forme is not in
service starts STALE, all its granules to copy. -/
def execTableDefineDone (t : Nat) (s : State) : Res :=
  match tget s.tables t, s.tableCmd with
  | some d, some (q, c) =>
    if d.state ≠ .defining ∨ c.op ≠ 0x50 ∨ field c.body 0x10 2 ≠ t ∨ !s.formeUp d.home then .next s
    else
      let n := ((tget s.generations t).getD 0 + 1) % 2 ^ 32
      let s := State.zeroBuckets { s with generations := tput s.generations t n } d
      let dyn := if d.flags.preloaded then d.dyn else { d.dyn with freeCount := 0, fresh := 0, liveCount := 0 }
      let dyn := { dyn with generation := n }
      let dyn := if d.flags.mirrored && !s.formeUp d.mirrorStack then
          { dyn with mirrorState := .stale, staleStack := d.mirrorStack, dirty := (List.range (2 ^ 15)).filter d.granules }
        else dyn
      let s := (s.modTable t (fun d => { d with state := .live, dyn := dyn })).descWritten t
      .next ((s.finish q c.no 0 0).settle)
  | _, _ => .next s

/-- TABLE_RETIRE (R174, R177): inserts and quarantined slots of the table are discarded. -/
def execTableRetire (q : Nat) (s : State) : Res :=
  .next (s.runTable q 0x51 (fun s x c =>
    let t := field c.body 0x10 2
    match tget s.tables t with
    | none => s.refuse q c.no 0x43 0x10
    | some d =>
      if !x.mayTouch d.owner then s.refuse q c.no 0x12 0
      else if d.state = .retiring ∨ (d.state = .orphaned ∧ x.inst ≠ 0) then s.refuse q c.no 0x43 0x10
      else
        let s := (s.modTable t (fun d => { d with state := .retiring })).mapPlatens (fun p => { p with
          inserts := p.inserts.filter (fun i => i.table != t || i.record.isSome),
          quarantine := p.quarantine.filter (fun y => y.table != t) })
        (s.descWritten t).begin_ q c.no))

/-- Whether lookups, inserts, frequency increments or updates for a table remain in a platen. -/
def State.tableBusy (s : State) (t : Nat) : Bool :=
  s.platens.toList.any (fun p => p.intake.any (fun e => e.table == t) || p.collect.any (fun e => e.table == t)
    || p.windows.any (fun w => w.entries.any (fun e => e.table == t && e.stage != .settled))
    || p.inserts.any (fun i => i.table == t) || p.freqQ.any (fun x => x.1 == t))
  || s.upd.recs.any (fun r => r.2.table == t && r.2.platen.isSome && r.2.result.isNone)

/-- TABLE_RETIRE_DONE (R177): no work is left, and no forme with a copy is in reset. -/
def execTableRetireDone (t : Nat) (s : State) : Res :=
  match tget s.tables t, s.tableCmd with
  | some d, some (q, c) =>
    if d.state ≠ .retiring ∨ c.op ≠ 0x51 ∨ field c.body 0x10 2 ≠ t ∨ s.tableBusy t ∨ (s.forme d.home).status = .resetting
        ∨ (d.flags.mirrored ∧ (s.forme d.mirrorStack).status = .resetting) then .next s
    else .next (((s.freeTable t).finish q c.no 0 0).settle)
  | _, _ => .next s

/-- TABLE_ADOPT (R174, R178). -/
def execTableAdopt (q : Nat) (s : State) : Res :=
  .next (s.runTable q 0x52 (fun s _ c =>
    let t := field c.body 0x10 2
    let i := field c.body 0x12 1
    let no (st d : Nat) := s.refuse q c.no st d
    match tget s.ctxs (field c.body 0x14 2) with
    | none => no 0x17 0x14
    | some cx =>
      if cx.state = .lost ∨ cx.inst ≠ i then no 0x17 0x14
      else match tget s.tables t with
        | none => no 0x43 0x10
        | some d =>
          if d.state ≠ .orphaned then no 0x43 0x10
          else if !d.allAreas.all (fun a => cx.tableMapped a.1 a.2 && (rangePieces a.1 a.2).all (fun p => s.granted i p.1))
              || s.tables.any (fun p => p.1 != t && areasMeet d.allAreas p.2.allAreas) then no 0x42 0x10
          else
            let n := ((tget s.generations t).getD 0 + 1) % 2 ^ 32
            let s := State.modTable { s with generations := tput s.generations t n } t (fun d => { d with
              owner := i, state := .live, dyn := { d.dyn with generation := n } })
            (s.descWritten t).succeed q c.no 0))

/-- R178: the tables of some owners are orphaned or freed; a table command cut off by it completes with
UNIT_RESET. -/
def State.orphanCut (s : State) (owner : Nat → Bool) : State :=
  let s := s.orphanTables owner
  match s.tableCmd with
  | some (q, c) => if thas s.tables (field c.body 0x10 2) then s else s.finish q c.no 0x23 0
  | none => s

end Sys2Proof.Machine
end

