-- ==== Sys2Proof/Machine/Updates.lean ====
section
/-! DEFINITION. The update front end: records, buffers, rings, results (07_updates.md R240 to R248, R264, R265,
R620; 14_recovery.md R493). -/

namespace Sys2Proof

/-- The connection of a record that came by network. -/
def UpdSrc.conn? (x : UpdSrc) : Option Nat :=
  match x with | .net n _ => some n | _ => none

end Sys2Proof

namespace Sys2Proof.Machine

/-! ## Records -/

/-- Bytes of a record (R240). -/
def updBytes (pay : Nat) : Nat := 32 + roundUp pay 32

/-- R620 step 1: a fault of a header that needs no table. -/
def recMalformed (l : List Byte) (ring : Bool) : Bool :=
  let op := field l 0x0A 1
  let uf := field l 0x0B 1
  let pay := field l 0x10 2
  let area := bits uf 2 1
  bits uf 7 3 != 0 || field l 0x12 2 != 0 || !(decide (op ≤ 5) || (op == 0x7F && ring)) || area == 3
  || (area != 0 && op != 5) || (bit uf 0 && op == 5) || (op == 5 && field l 0 8 % 256 != 0)
  || ((op == 2 || op == 3 || op == 4 || op == 0x7F) && pay != 0)
  || (op == 5 && (pay % 256 != 0 || decide (pay < 256) || decide (65280 < pay)))

/-- The area that a RAW_SHEETS record names: base and size; none when the table lacks it. -/
def TableDesc.rawArea (d : TableDesc) (area : Nat) : Option (Nat × Nat) :=
  let find (a : Nat) : Option (Nat × Nat) := (d.areas.find? (fun x => x.1 == a)).map (fun x => (x.1, x.2.1))
  match area with
  | 0 => find d.rowBase
  | 1 => if d.flags.dynamic || d.flags.mapped then find d.auxBase else none
  | _ => if 14 ≤ d.rowFormat then find d.codebookBase else none

/-- R620: the status of a record that the front end refuses. -/
def State.recRefusal (s : State) (src : UpdSrc) (inst : Nat) (l : List Byte) : Option Nat :=
  let op := field l 0x0A 1
  let pay := field l 0x10 2
  let key := field l 0 8
  let uf := field l 0x0B 1
  if recMalformed l (match src with | .ring _ _ => true | _ => false) then some 4
  else match tget s.tables (field l 8 2) with
    | none => some 5
    | some d =>
      let allowed := match src with
        | .cmd _ _ => bit d.updSrc 0
        | .net _ _ => bit d.updSrc 1 && (s.inst inst).state != .frozen
        | .ring _ _ => bit d.updSrc 2
      let aux := d.flags.dynamic || d.flags.mapped
      let raw := d.rawArea (bits uf 2 1)
      if d.state ≠ .live then some 5
      else if !allowed || d.owner != inst then some 6
      else if ((op == 1 || op == 2) && !aux) || ((op == 3 || op == 4) && !d.flags.dynamic)
          || (decide (op ≤ 1) && pay != d.rowBytes) || (bit uf 0 && !d.flags.dynamic) || (op == 5 && raw.isNone) then some 4
      else if op ≠ 5 ∧ !d.flags.dynamic ∧ d.indexLimit ≤ key then some 7
      else if op = 5 ∧ (raw.map (·.2)).getD 0 < key + pay then some 7
      else none

/-- R248, R263, R269: the platen that a record goes to now, or the result of a record with none. -/
def State.recTarget (s : State) (d : TableDesc) : Option Nat :=
  if s.copyUp d false then some d.home
  else if d.flags.mirrored && s.copyUp d true then some d.mirrorStack else none

def State.modRec (s : State) (n : Nat) (f : UpdRec → UpdRec) : State :=
  { s with upd := { s.upd with recs := tmod s.upd.recs n f } }

/-- Records that a platen holds without a result: it takes up to 4,096 (R248). -/
def State.recsAt (s : State) (f : Nat) : Nat :=
  (s.upd.recs.filter (fun p => p.2.platen == some f && p.2.result.isNone)).length

/-- Send the accepted records to their platens, oldest first, as far as these have room (R242, R248). -/
def State.forwardRecs (s : State) : State :=
  s.upd.recs.foldl (fun s p =>
    if p.2.platen.isSome || p.2.result.isSome then s
    else match tget s.tables p.2.table with
      | none => s.modRec p.1 (fun (r : UpdRec) => { r with result := some 5 })
      | some d =>
        if d.state ≠ .live then s.modRec p.1 (fun (r : UpdRec) => { r with result := some 5 })
        else match s.recTarget d with
          | none => s.modRec p.1 (fun (r : UpdRec) => { r with result := some 9 })
          | some f => if s.recsAt f < 4096 then s.modRec p.1 (fun (r : UpdRec) => { r with platen := some f }) else s) s

/-! ## Results -/

/-- Whether a context is there and not lost. -/
def State.ctxLive (s : State) (c : Nat) : Bool :=
  match tget s.ctxs c with
  | some x => x.state != .lost
  | none => false

/-- The result word (R242); `res` holds PRIOR_VER × 256 + STATUS. -/
def UpdRec.word (r : UpdRec) (res : Nat) : Nat := r.seq * 2 ^ 32 + res % 2 ^ 20

/-- Write one RESULT; false when its page is on a forme in reset. -/
def State.writeResult (s : State) (r : UpdRec) (res : Nat) : Bool × State :=
  let bytes := toLE 8 (r.word res)
  match r.src with
  | .net _ _ => (true, s)
  | .cmd q no =>
    match tget s.queues q with
    | none => (true, s)
    | some x =>
      if r.noResult || (x.kind != 0 && !s.ctxLive x.ctx) then (true, s)
      else
        let t := s.queueWrite x (r.place + 0x18) bytes
        match t.1 with
        | some .unitReset => (false, s)
        | some e => (true, t.2.accFault x.ctx e (some (q, no)))
        | none => (true, t.2)
  | .ring c k =>
    match tget s.upd.rings (4 * c + k) with
    | none => (true, s)
    | some y =>
      if !s.ctxLive c then (true, s)
      else
        let t := s.ctxWrite c (y.va + r.place % 2 ^ y.log2 + 0x18) bytes
        match t.1 with
        | some .unitReset => (false, s)
        | some e => (true, t.2.accFault c e none)
        | none => (true, t.2)

/-- Write the results that can be written, in order within a ring; the records leave, and their buffers count
the ones that failed. -/
def State.flushResults (s : State) : State :=
  (s.upd.recs.foldl (fun (a : State × List UpdSrc) p =>
    match p.2.result with
    | none => (a.1, p.2.src :: a.2)
    | some res =>
      let ring := match p.2.src with | .ring _ _ => true | _ => false
      if ring && a.2.contains p.2.src then a
      else
        let t := a.1.writeResult p.2 res
        if !t.1 then (a.1, p.2.src :: a.2)
        else
          let s := t.2
          ({ s with upd := { s.upd with
              recs := tdel s.upd.recs p.1,
              bufs := s.upd.bufs.map (fun (b : UpdBuf) =>
                if b.src = p.2.src ∧ res % 256 ≠ 0 then
                  { b with bad := b.bad + 1, firstBad := if b.bad = 0 then p.2.word res else b.firstBad }
                else b) } }, a.2)) (s, [])).1

/-- A source has no record left that waits for its result. -/
def State.srcDone (s : State) (src : UpdSrc) : Bool := !s.upd.recs.any (fun p => p.2.src == src)

/-- Buffers that are read and have all their results: UPDATE_ROWS completes (R244), a message is done (13_network.md
R453).  A command of a lost context completes with its teardown. -/
def State.endBufs (s : State) : State :=
  s.upd.bufs.foldl (fun s b =>
    if b.off < b.len || !s.srcDone b.src then s
    else
      let s := { s with upd := { s.upd with bufs := s.upd.bufs.filter (fun x => x.src != b.src) } }
      match b.src with
      | .cmd q no =>
        match tget s.queues q with
        | some x => if x.kind != 0 && !s.ctxLive x.ctx then s else s.finish q no 0 b.bad
        | none => s
      | .net n seq =>
        if s.isOpen n then
          (s.modConn n (fun y => { y with applying := y.applying.filter (fun k => k != seq) })).msgDone n seq (min b.bad 65535) b.firstBad true
        else s
      | .ring _ _ => s) s

/-- CONS of each ring moves past the records that have their results; a removal whose ring is through completes
(R245, R246). -/
def State.endRings (s : State) : State :=
  s.upd.rings.foldl (fun s p =>
    let c := p.1 / 4
    let src := UpdSrc.ring c (p.1 % 4)
    let cons := match s.upd.recs.find? (fun r => r.2.src == src) with
      | some r => r.2.place
      | none => p.2.next
    let t : Bool × State :=
      if cons = p.2.cons ∨ !s.ctxLive c then (true, s)
      else
        let w := s.ctxWrite c (p.2.ctrl + 8) (toLE 8 cons)
        match w.1 with
        | some .unitReset => (false, s)
        | some e => (true, w.2.accFault c e none)
        | none => (true, { w.2 with upd := { w.2.upd with rings := tmod w.2.upd.rings p.1 (fun (y : UpdRing) => { y with cons := cons }) } })
    let s := t.2
    match p.2.removing with
    | some (q, no) =>
      if t.1 && s.srcDone src then
        State.finish { s with upd := { s.upd with rings := tdel s.upd.rings p.1 } } q no 0 0
      else s
    | none => s) s

/-- What follows any change of the records. -/
def State.updSettle (s : State) : State := (s.forwardRecs.flushResults.endBufs.endRings).settle

/-! ## Reading records -/

/-- A record read and checked: accepted, or refused with its status. -/
def State.takeRecord (s : State) (src : UpdSrc) (inst ctx place : Nat) (l pay : List Byte) (bytes : Nat) (noResult : Bool)
    (res : Option Nat) : State :=
  let r : UpdRec :=
    { src := src, inst := inst, ctx := ctx, place := place, bytes := bytes, key := field l 0 8, table := field l 8 2,
      op := field l 0x0A 1, area := bits (field l 0x0B 1) 2 1, verCheck := bit (field l 0x0B 1) 0,
      version := field l 0x0C 4, seq := field l 0x14 4, payload := pay, noResult := noResult, platen := none,
      inserting := false, result := res }
  { s with upd := { s.upd with recs := tput s.upd.recs s.upd.nextRec r, nextRec := s.upd.nextRec + 1 } }

/-- Bytes of a buffer or message that its records are read from. -/
def State.bufRead (s : State) (b : UpdBuf) (off n : Nat) : Except AccErr (List Byte) × State :=
  match b.src with
  | .cmd q _ =>
    match tget s.queues q with
    | some x => s.queueRead x (b.va + off) n
    | none => (.error .unitReset, s)
  | _ => (.ok ((b.data.drop off).take n), s)

def State.modBuf (s : State) (src : UpdSrc) (f : UpdBuf → UpdBuf) : State :=
  { s with upd := { s.upd with bufs := s.upd.bufs.map (fun b => if b.src = src then f b else b) } }

/-- A buffer whose reading failed: its command ends, its context is lost (R247). -/
def State.bufFault (s : State) (b : UpdBuf) (e : AccErr) : State :=
  match e, b.src with
  | .unitReset, _ => s
  | .fault code va info, .cmd q no =>
    let s := { s with upd := { s.upd with bufs := s.upd.bufs.filter (fun x => x.src != b.src) } }
    match tget s.queues q, s.cmd q no with
    | some x, some c => s.cmdFault q x c code va info
    | _, _ => s
  | _, _ => s

/-- The next record of a buffer or message. -/
def State.bufRecord (s : State) (b : UpdBuf) : State :=
  let left := b.len - b.off
  let s0 := s
  let tag (s : State) : State := match b.src with
    | .cmd q no => s.tagInst s0 b.inst q no
    | _ => s
  match s.bufRead b b.off (min 32 left) with
  | (.error e, s) => (tag s).bufFault b e
  | (.ok l, s) =>
    let pay := field l 0x10 2
    let n := updBytes pay
    if left < 32 ∨ left < n then
      ((tag s).takeRecord b.src b.inst b.ctx (b.va + b.off) l [] left b.noResult (some 4)).modBuf b.src (fun b => { b with off := b.len })
    else match s.bufRead b (b.off + 32) pay with
      | (.error e, s) => (tag s).bufFault b e
      | (.ok p, s) =>
        ((tag s).takeRecord b.src b.inst b.ctx (b.va + b.off) l p n b.noResult (s.recRefusal b.src b.inst l)).modBuf b.src
          (fun b => { b with off := b.off + n })

/-- A ring stops and its context is lost (R245). -/
def State.ringFault (s : State) (c k : Nat) (y : UpdRing) : State :=
  s.loseContext c { faultOf 0x3002 with unitType := 0x0B, addr := y.va, info0 := y.prod, info1 := y.cons } none

/-- The next record of an update ring; `pad` says which of PAD and the other operations is read. -/
def State.ringRecord (s : State) (c k : Nat) (y : UpdRing) (pad : Bool) : State :=
  let src := UpdSrc.ring c k
  let off := y.next % 2 ^ y.log2
  let toEnd := 2 ^ y.log2 - off
  let left := y.prod - y.next
  let advance (s : State) (n : Nat) : State :=
    { s with upd := { s.upd with rings := tmod s.upd.rings (4 * c + k) (fun (y : UpdRing) => { y with next := y.next + n }) } }
  match s.ctxRead c (y.va + off) (min 32 left) with
  | (.error .unitReset, _) => s
  | (.error e, s) => s.accFault c e none
  | (.ok l, s1) =>
    let pay := field l 0x10 2
    let n := updBytes pay
    let isPad := field l 0x0A 1 == 0x7F && !recMalformed l true && decide (32 ≤ left)
    if isPad != pad then s
    else if isPad then advance (s1.takeRecord src y.inst c y.next l [] toEnd false (some 0)) toEnd
    else if toEnd < n then s1.ringFault c k y
    else if left < 32 ∨ left < n then advance (s1.takeRecord src y.inst c y.next l [] left false (some 4)) left
    else match s1.ctxRead c (y.va + off + 32) pay with
      | (.error .unitReset, _) => s
      | (.error e, s) => s.accFault c e none
      | (.ok p, s) => advance (s.takeRecord src y.inst c y.next l p n false (s.recRefusal src y.inst l)) n

/-- An update ring with a published record that may be read. -/
def State.readyRing (s : State) (c k : Nat) : Option UpdRing :=
  match tget s.upd.rings (4 * c + k) with
  | some y => if y.stopped || y.removing.isSome || decide (y.prod ≤ y.next) || !s.ctxLive c
      || (s.inst y.inst).state == .frozen then none else some y
  | none => none

/-- The buffer of a source that may be read: the oldest unread one of its queue or connection (R247). -/
def State.readyBuf (s : State) (src : UpdSrc) : Option UpdBuf :=
  let same (x : UpdSrc) : Bool := match x, src with
    | .cmd q _, .cmd r _ => q == r
    | .net n _, .net m _ => n == m
    | _, _ => false
  match s.upd.bufs.find? (fun b => same b.src && decide (b.off < b.len)) with
  | some b => if b.src = src then some b else none
  | none => none

/-- UPDATE_RECORD: the front end reads and checks one record of a source; it holds 65,536. -/
def execUpdateRecord (src : UpdSrc) (s : State) : Res :=
  if 65536 ≤ s.upd.recs.length then .next s
  else match src with
    | .ring c k =>
      match s.readyRing c k with
      | some y => .next ((s.ringRecord c k y false).updSettle)
      | none => .next s
    | _ =>
      match s.readyBuf src with
      | some b => .next ((s.bufRecord b).updSettle)
      | none => .next s

/-- PAD (R245): the front end skips to the start of a ring. -/
def execPad (c k : Nat) (s : State) : Res :=
  if 65536 ≤ s.upd.recs.length then .next s
  else match s.readyRing c k with
    | some y => .next ((s.ringRecord c k y true).updSettle)
    | none => .next s

/-! ## Commands -/

/-- UPDATE_ROWS (R244). -/
def execUpdateRows (q : Nat) (s : State) : Res :=
  .next (s.runCmd q 0x53 (fun s x c =>
    let b : UpdBuf :=
      { src := .cmd q c.no, inst := x.inst, ctx := if x.kind = 0 then 4096 else x.ctx, va := field c.body 0x18 8,
        len := field c.body 0x10 4, off := 0, noResult := bit (field c.body 0x14 1) 0, data := [], bad := 0, firstBad := 0,
        fault := none }
    State.begin_ { s with upd := { s.upd with bufs := s.upd.bufs ++ [b] } } q c.no))

/-- UPDATE_RING without REMOVE (R245). -/
def execUpdateRingRegister (q : Nat) (s : State) : Res :=
  .next (s.runIf q 0x55 (fun c => !bit (field c.body 0x10 1) 7) (fun s x c =>
    let cid := field c.body 0x12 2
    let key := 4 * cid + field c.body 0x10 1 % 4
    match s.namedCtx x cid 0x12 with
    | .error (st, d) => s.refuse q c.no st d
    | .ok cx =>
      if cx.state = .lost then s.refuse q c.no 0x17 0x12
      else if thas s.upd.rings key then s.refuse q c.no 0x17 0x10
      else if 256 ≤ s.upd.rings.length then s.refuse q c.no 0x18 0
      else
        let y : UpdRing :=
          { inst := cx.inst, log2 := field c.body 0x11 1, va := field c.body 0x18 8, ctrl := field c.body 0x20 8, prod := 0,
            next := 0, cons := 0, polled := s.now, stopped := false, removing := none }
        State.succeed { s with upd := { s.upd with rings := tput s.upd.rings key y } } q c.no 0))

/-- UPDATE_RING with REMOVE (R246). -/
def execUpdateRingRemove (q : Nat) (s : State) : Res :=
  .next ((s.runIf q 0x55 (fun c => bit (field c.body 0x10 1) 7) (fun s x c =>
    let key := 4 * field c.body 0x12 2 + field c.body 0x10 1 % 4
    match tget s.upd.rings key with
    | none => s.refuse q c.no 0x17 0x10
    | some y =>
      if !x.mayTouch y.inst then s.refuse q c.no 0x12 0
      else if y.removing.isSome then s.refuse q c.no 0x17 0x10
      else State.begin_ { s with upd := { s.upd with
        rings := tput s.upd.rings key { y with removing := some (q, c.no) } } } q c.no)).updSettle)

/-- UPDATE_RING_POLL (R245): the block reads a ring's PROD. -/
def execUpdateRingPoll (c k : Nat) (s : State) : Res :=
  match tget s.upd.rings (4 * c + k) with
  | none => .next s
  | some y =>
    if y.stopped || y.removing.isSome || !s.ctxLive c || (s.inst y.inst).state == .frozen then .next s
    else match s.ctxRead c y.ctrl 8 with
      | (.error .unitReset, _) => .next s
      | (.error e, s) => .next ((s.accFault c e none).settle)
      | (.ok l, s) =>
        let y := { y with prod := leNat l, polled := s.now }
        let s := { s with upd := { s.upd with rings := tput s.upd.rings (4 * c + k) y } }
        if y.prod < y.cons ∨ 2 ^ y.log2 < y.prod - y.cons then .next ((s.ringFault c k y).settle) else .next s

/-- EPOCH_FENCE (R264, R265): accepted after the buffers of its queue are read. -/
def execEpochFence (q : Nat) (s : State) : Res :=
  let busy := s.upd.bufs.any (fun b => decide (b.off < b.len) && (match b.src with | .cmd r _ => r == q | _ => false))
  if busy then .next s
  else .next (s.runCmd q 0x54 (fun s x c =>
    let recs := (s.upd.recs.filter (fun p => p.2.inst == x.inst && p.2.result.isNone)).map (·.1)
    let mine (t : Nat) : Bool := ((tget s.tables t).map (·.owner)) == some x.inst
    let ins := if bit (field c.body 0x10 1) 0 then
        (s.platens.toList.flatMap (fun p => p.inserts.map (fun i => (i.table, i.id)))).filter (fun i => mine i.1)
      else []
    State.begin_ { s with upd := { s.upd with fences := s.upd.fences ++ [⟨q, c.no, recs, ins⟩] } } q c.no))

/-- EPOCH_FENCE_DONE (R264): every covered record has its result, every covered insert is placed or dropped. -/
def execEpochFenceDone (q no : Nat) (s : State) : Res :=
  match s.upd.fences.find? (fun f => f.queue == q && f.no == no) with
  | none => .next s
  | some f =>
    let waits := f.recs.any (fun n => match tget s.upd.recs n with | some r => r.result.isNone | none => false)
      || f.inserts.any (fun i => s.platens.toList.any (fun p => p.inserts.any (fun j => (j.table, j.id) == i)))
    if waits then .next s
    else
      let s := { s with upd := { s.upd with fences := s.upd.fences.filter (fun g => !(g.queue == q && g.no == no)) } }
      .next ((s.finish q no 0 0).settle)

/-- RECENT_WRITE_ROTATE (08_memory.md R276): the oldest bitmap of each stack is cleared and becomes current. -/
def execRecentWriteRotate (s : State) : Res :=
  if s.due .recent then
    .next (State.ran { s with hbm := s.hbm.map (fun (x : StackSt) => { x with recent := [] :: x.recent.take 2 }) } .recent)
  else .next s

end Sys2Proof.Machine
end

