-- ==== Sys2Proof/Machine/RowUpdates.lean ====
section
/-! DEFINITION. Applying records and placing inserts at the platens (05_tables.md R192, R193; 07_updates.md R249 to
R263, R266 to R269). -/

namespace Sys2Proof.Machine

/-- What applying a record gave: wait, an insert queued, or a result with its PRIOR_VER. -/
inductive Applied
  | wait
  | queued (s : State)
  | done (s : State) (status prior : Nat)

/-- An entry of a dynamic table, or that a bucket sheet it needs is poisoned. -/
def State.findEntry (s : State) (d : TableDesc) (mirror : Bool) (v : Nat) : Except Unit (Option (Nat × Nat × BucketSheet)) × State :=
  match s.readSheet d mirror (d.bucketAddr (hash1 d v)) with
  | (none, s) => (.error (), s)
  | (some l1, s) =>
    let b1 := decodeBucket l1
    match b1.find v with
    | some k => (.ok (some (hash1 d v, k, b1)), s)
    | none =>
      if hash1 d v = hash2 d v ∨ b1.ovf = 0 then (.ok none, s)
      else match s.readSheet d mirror (d.bucketAddr (hash2 d v)) with
        | (none, s) => (.error (), s)
        | (some l2, s) => (.ok (((decodeBucket l2).find v).map (fun k => (hash2 d v, k, decodeBucket l2))), s)

/-- R254: whether a checked record is stale against the entry's VER. -/
def UpdRec.stale (r : UpdRec) (ver : Nat) : Bool :=
  r.verCheck && !within 1 2047 ((r.version % 4096 + 4096 - ver) % 4096)

/-- The entry's bucket with a new content. -/
def State.putEntry (s : State) (t : Nat) (d : TableDesc) (b k : Nat) (sh : BucketSheet) (e : BEntry) : State :=
  s.tableWrite t d (d.bucketAddr b) (encodeBucket (sh.set k e))

/-- A row-map entry with the sheet that holds it (R183). -/
def State.mapEntry (s : State) (d : TableDesc) (mirror : Bool) (key : Nat) : Option (Nat × List Byte) × State :=
  match s.readSheet d mirror (d.auxBase + 4 * key) with
  | (none, s) => (none, s)
  | (some l, s) => (some (field l (4 * key % 256) 4, l), s)

/-- Write one row-map entry. -/
def State.putMap (s : State) (t : Nat) (d : TableDesc) (key : Nat) (sheet : List Byte) (slot : Nat) : State :=
  let off := 4 * key % 256
  s.tableWrite t d ((d.auxBase + 4 * key) / 256 * 256) (sheet.take off ++ toLE 4 slot ++ sheet.drop (off + 4))

/-- R251: a shadow write: a fresh slot with the row, then the pointer, then the old slot freed. -/
def State.shadow (s : State) (t : Nat) (d : TableDesc) (row : List Byte) (old prior : Nat) (ptr : State → Nat → State) : Applied :=
  match s.slotWithRow t d row 2 with
  | (.error true, s) => .done s 8 prior
  | (.error false, s) => .done s 3 prior
  | (.ok k, s) => .done ((ptr s k).freeSlot t d old) 0 prior

/-- R251, R262, R268: write a present row whose slot is known; `ptr` writes the row's pointer. -/
def State.writeRow (s : State) (t : Nat) (d : TableDesc) (mirror : Bool) (row : List Byte) (slot prior : Nat)
    (after : State → State) (ptr : State → Nat → State) : Applied :=
  if d.slots ≤ slot then .done s 7 prior
  else if 1 < d.spr then (if mirror then .done s 9 prior else s.shadow t d row slot prior ptr)
  else match s.writeSlot t d mirror slot row with
    | (true, s) => .done (after s) 0 prior
    | (false, s) => if mirror then .done s 8 prior else s.shadow t d row slot prior ptr

/-- WRITE and WRITE_INSERT of an entry that is present (R251, R254). -/
def State.writeEntryRow (s : State) (t : Nat) (d : TableDesc) (mirror : Bool) (r : UpdRec) (b k : Nat) (sh : BucketSheet) : Applied :=
  let e := sh.get k
  let ver := r.version % 4096
  if r.stale e.ver then .done s 1 e.ver
  else s.writeRow t d mirror r.payload e.slot e.ver
    (fun s => s.putEntry t d b k sh { e with ver := ver })
    (fun s n => s.putEntry t d b k sh { e with slot := n, ver := ver })

/-- R251: WRITE, and WRITE_INSERT with `ins`. -/
def State.applyWrite (s : State) (n : Nat) (r : UpdRec) (d : TableDesc) (mirror ins : Bool) : Applied :=
  let t := r.table
  if d.flags.dynamic then
    match s.findEntry d mirror r.key with
    | (.error _, s) => .done s 8 0
    | (.ok (some (b, k, sh)), s) => s.writeEntryRow t d mirror r b k sh
    | (.ok none, s) =>
      if !ins then .done s 2 0
      else if mirror then .done s 9 0
      else match s.queueInsert t d r.key (some n) with
        | (true, s) => .queued s
        | (false, s) => .done s 0xA 0
  else if d.flags.mapped then
    match s.mapEntry d mirror r.key with
    | (none, s) => .done s 8 0
    | (some (e, sheet), s) =>
      let ptr (s : State) (k : Nat) := s.putMap t d r.key sheet k
      if e ≠ 0xFFFFFFFF then s.writeRow t d mirror r.payload e 0 (fun s => s) ptr
      else if !ins then .done s 2 0
      else if mirror then .done s 9 0
      else match s.slotWithRow t d r.payload 2 with
        | (.error true, s) => .done s 8 0
        | (.error false, s) => .done s 3 0
        | (.ok k, s) => .done (ptr s k) 0 0
  else
    match s.writeSlot t d mirror r.key r.payload with
    | (true, s) => .done s 0 0
    | (false, s) => .done s 8 0

/-- R252: DELETE. -/
def State.applyDelete (s : State) (r : UpdRec) (d : TableDesc) (mirror : Bool) : Applied :=
  let t := r.table
  if mirror then .done s 9 0
  else if d.flags.dynamic then
    match s.findEntry d false r.key with
    | (.error _, s) => .done s 8 0
    | (.ok none, s) => .done s 2 0
    | (.ok (some (b, k, sh)), s) =>
      let e := sh.get k
      if r.stale e.ver then .done s 1 e.ver
      else match (if e.alt then s.readSheet d false (d.bucketAddr (hash1 d e.id)) else (some [], s)) with
        | (none, s) => .done s 8 e.ver
        | (some _, s) => .done (s.evict t d b k) 0 e.ver
  else match s.mapEntry d false r.key with
    | (none, s) => .done s 8 0
    | (some (e, sheet), s) =>
      if e = 0xFFFFFFFF then .done s 2 0
      else .done ((s.putMap t d r.key sheet 0xFFFFFFFF).freeSlot t d e) 0 0

/-- R252: PIN and UNPIN. -/
def State.applyPin (s : State) (r : UpdRec) (d : TableDesc) (mirror pin : Bool) : Applied :=
  match s.findEntry d mirror r.key with
  | (.error _, s) => .done s 8 0
  | (.ok none, s) => .done s 2 0
  | (.ok (some (b, k, sh)), s) =>
    let e := sh.get k
    if r.stale e.ver then .done s 1 e.ver
    else if d.slots ≤ e.slot then .done s 7 e.ver
    else .done (s.putEntry r.table d b k sh { e with pin := pin }) 0 e.ver

/-- R253, R266: RAW_SHEETS; a codebook write waits for the entries that use the resident codebook, and for its
load, and drops it. -/
def State.applyRaw (s : State) (f : Nat) (r : UpdRec) (d : TableDesc) (mirror : Bool) : Applied :=
  if mirror then .done s 9 0
  else match d.rawArea r.area with
    | none => .done s 4 0
    | some (base, _) =>
      let copies := d.home :: (if d.flags.mirrored then [d.mirrorStack] else [])
      let uses (g : Nat) : Bool :=
        let p := s.platen g
        let needs (e : LkEntry) : Bool := e.table == r.table && e.stage != .settled
        let held := p.codebooks.any (fun c => c.table == r.table && c.resident)
        p.codebooks.any (fun c => c.table == r.table && !c.resident)
          || (held && (p.collect.any (fun e => e.table == r.table) || p.windows.any (fun w => w.entries.any needs)))
      if r.area = 2 ∧ copies.any uses then .wait
      else
        let s := s.tableWrite r.table d (base + r.key) r.payload
        let s := if r.area = 2 then copies.foldl (fun s g => s.modPlaten g (fun p =>
            { p with codebooks := p.codebooks.filter (fun c => c.table != r.table) })) s else s
        .done s 0 0

/-- Whether a platen's quarantine would hold more than it can: what frees the slot waits (R191). -/
def State.quarantineOver (s : State) (d : TableDesc) : Bool := decide (65536 < (s.platen d.home).quarantine.length)

/-- Whether record n may be applied now: at its platen, in service, with tokens, and first for its key there
(R218, R249). -/
def State.recReady (s : State) (n op : Nat) : Option (UpdRec × Nat) :=
  match tget s.upd.recs n with
  | none => none
  | some r =>
    match r.platen with
    | none => none
    | some f =>
      let before := s.upd.recs.any (fun p => decide (p.1 < n) && p.2.platen == some f && p.2.result.isNone
        && p.2.table == r.table && p.2.key == r.key && (p.2.op == 5) == (r.op == 5))
      if r.op = op && r.result.isNone && !r.inserting && !before && s.formeUp f && s.hasTokens f r.inst then some (r, f) else none

/-- Apply record n at its platen. -/
def State.applyRec (s : State) (n op : Nat) (f : State → UpdRec → Nat → TableDesc → Bool → Applied) : State :=
  match s.recReady n op with
  | none => s
  | some (r, p) =>
    match tget s.tables r.table with
    | none => (s.modRec n (fun (r : UpdRec) => { r with result := some 5 })).updSettle
    | some d =>
      match f s r p d (p != d.home) with
      | .wait => s
      | .queued s => (s.modRec n (fun (r : UpdRec) => { r with inserting := true })).updSettle
      | .done s' st prior =>
        if s'.quarantineOver d then s
        else (s'.modRec n (fun (r : UpdRec) => { r with result := some (prior * 256 + st) })).updSettle

/-- WRITE (R251). -/
def execWrite (n : Nat) (s : State) : Res := .next (s.applyRec n 0 (fun s r _ d m => s.applyWrite n r d m false))
/-- WRITE_INSERT (R251). -/
def execWriteInsert (n : Nat) (s : State) : Res := .next (s.applyRec n 1 (fun s r _ d m => s.applyWrite n r d m true))
/-- DELETE (R252). -/
def execDelete (n : Nat) (s : State) : Res := .next (s.applyRec n 2 (fun s r _ d m => s.applyDelete r d m))
/-- PIN (R252). -/
def execPin (n : Nat) (s : State) : Res := .next (s.applyRec n 3 (fun s r _ d m => s.applyPin r d m true))
/-- UNPIN (R252). -/
def execUnpin (n : Nat) (s : State) : Res := .next (s.applyRec n 4 (fun s r _ d m => s.applyPin r d m false))
/-- RAW_SHEETS (R253). -/
def execRawSheets (n : Nat) (s : State) : Res := .next (s.applyRec n 5 (fun s r f d m => s.applyRaw f r d m))

/-- What placing the head insert gives: the state, and the result of the record that waited for it. -/
def State.placeHead (s : State) (t : Nat) (d : TableDesc) (i : InsertReq) (r : Option UpdRec) : State × Nat :=
  match s.placeInsert t d i.id (r.map (fun r => (r.payload, r.version % 4096))) with
  | (.placed _ _, s) => (s, 0)
  | (.dropped p, s) => (s, if p then 8 else 3)
  | (.present b k, s) =>
    match r with
    | none => (s, 0)
    | some r =>
      match s.readSheet d false (d.bucketAddr b) with
      | (none, s) => (s, 8)
      | (some l, s) =>
        match s.writeEntryRow t d false r b k (decodeBucket l) with
        | .done s st prior => (s, prior * 256 + st)
        | _ => (s, 3)

/-- INSERT_PLACE (R192): the home platen places the insert at the head of its queue. -/
def execInsertPlace (f : Nat) (s : State) : Res :=
  match (s.platen f).inserts with
  | [] => .next s
  | i :: rest =>
    if !s.formeUp f then .next s
    else
      let s1 := s.modPlaten f (fun p => { p with inserts := rest })
      let give (s : State) (res : Nat) : State := match i.record with
        | some n => (s.modRec n (fun (r : UpdRec) => { r with result := some res, inserting := false })).updSettle
        | none => s
      match tget s.tables i.table with
      | none => .next (give s1 5)
      | some d =>
        if !s.hasTokens f d.owner then .next s
        else
          let t := s1.placeHead i.table d i (i.record.bind (fun n => tget s.upd.recs n))
          if t.1.quarantineOver d then .next s else .next (give t.1 t.2)

end Sys2Proof.Machine
end

