-- ==== Sys2Proof/Machine/InstReset.lean ====
section
/-! DEFINITION. Instance resets and the events that start them (12_host_port.md R405, R406, R420 to R423; 06_platens.md
R238; 07_updates.md R267; 13_network.md R463; 15_security.md R530), and the RESET command (14_recovery.md R487 to R495). -/

namespace Sys2Proof.Machine

/-! ## Squashing lookups (06_platens.md R238) -/

def LkSrc.galley? (x : LkSrc) : Option Nat := match x with | .sliver g _ _ _ => some g | .gather _ => none

/-- Every list of an instance that is under way: entries not read yet leave the fabric and the platens, with their
bags and accumulator positions; gathers of the instance end. -/
def State.squashLookups (s : State) (i : Nat) : State :=
  let mineG (g : Nat) : Bool := match ((s.galley g).ctx).bind (fun c => tget s.ctxs c) with
    | some x => x.inst == i
    | none => false
  let srcIs (x : LkSrc) : Bool := match x with
    | .sliver g _ _ _ => mineG g
    | .gather k => (tget s.gathers k).map (fun (y : GatherSt) => y.inst) == some i
  let stale (l : List LkEntry) : List LkSrc := (l.filter (fun e => e.inst == i)).map (fun e => e.src)
  let ofMsgs (l : List LkMsg) : List LkEntry := l.filterMap (fun m => match m with | .entry e => some e | .endMark _ _ => none)
  let all := s.fabric.flatMap (fun p => stale (ofMsgs p.2)) ++ stale (s.answers.map (·.2))
    ++ s.platens.toList.flatMap (fun p => stale (p.intake ++ p.collect ++ p.windows.flatMap (fun w => w.entries)))
  let dead (x : LkSrc) : Bool := srcIs x || all.contains x
  let msgDead (m : LkMsg) : Bool := match m with | .entry e => dead e.src | .endMark x _ => dead x
  { s with
    fabric := tmap s.fabric (fun _ (l : List LkMsg) => l.filter (fun m => !msgDead m)),
    answers := s.answers.filter (fun p => !dead p.2.src),
    gathers := tkeep s.gathers (fun _ (y : GatherSt) => y.inst != i),
    platens := s.platens.map (fun (p : PlatenSt) => { p with
      intake := p.intake.filter (fun e => !dead e.src), collect := p.collect.filter (fun e => !dead e.src),
      windows := p.windows.map (fun (w : Window) => { w with entries := w.entries.filter (fun e => !dead e.src) }),
      bags := p.bags.filter (fun b => !dead b.src), ends := p.ends.filter (fun x => !dead x.src),
      accUsed := p.accUsed - ((p.bags.filter (fun b => dead b.src)).map (fun b => b.held)).sum }) }

/-! ## Start (R420, R421, R423) -/

/-- An instance reset starts, or joins the one in progress: `writes` when what completes is still written to the
host, `gone` when the function ceases to exist. -/
def State.resetInstance (s : State) (i : Nat) (waiting : List (Nat × Nat)) (writes gone : Bool) : State :=
  let x := s.inst i
  match x.state, x.reset with
  | .off, _ => s
  | .resetting, some r =>
    s.modInst i (fun y => { y with reset := some { r with waiting := r.waiting ++ waiting, gone := r.gone || gone, writes := r.writes && writes } })
  | _, _ =>
    let s := match x.freeze with
      | some (q, no, _) => s.finish q no 0x60 3
      | none => s
    let r : InstReset := ⟨s.now, waiting, gone, writes⟩
    let s := s.modInst i (fun y => { y with state := .resetting, freeze := none, reset := some r, fn := { y.fn with ready := false } })
    let s := s.squashLookups i
    let s := (s.steps.filter (fun p => p.2.inst == i)).foldl (fun s p => s.endStep p.1 true) s
    let mineCtx (c : Nat) : Bool := ((tget s.ctxs c).map (fun y => y.inst)) == some i
    { s with
      galleys := s.galleys.map (fun (y : GalleySt) => if (y.ctx.map mineCtx).getD false ∧ y.owner = none then y.cutOff else y),
      queues := tmap s.queues (fun _ (y : QueueSt) => if y.inst = i then { y with wait := none } else y),
      upd := { s.upd with
        recs := tkeep s.upd.recs (fun _ r => !(r.inst == i && r.platen.isNone && r.result.isNone)),
        bufs := s.upd.bufs.filter (fun b => b.inst != i),
        fences := s.upd.fences.filter (fun f => ((tget s.queues f.queue).map (fun y => y.inst)) != some i),
        rings := tmap s.upd.rings (fun _ (y : UpdRing) => if y.inst = i then { y with stopped := true } else y) } }

/-! ## End (R422) -/

/-- The queues of the instance: what is published and unstarted completes FLUSHED, what has started UNIT_RESET. -/
def State.flushInstance (s : State) (i : Nat) : State :=
  (s.queues.filter (fun p => p.2.inst == i)).foldl (fun s p =>
    let (more, s) := if p.2.stopped || p.2.flush.isSome then ([], s) else State.parsePublished p.2 p.2.size s p.2.fetch []
    s.modQueue p.1 (fun y =>
      let y := more.foldl (fun y c => y.push c) y
      { y with fetch := y.tail, cmds := y.cmds.map (fun c => match c.st with
          | .fetched => c.finish 0x20 0
          | _ => c.finish 0x23 0) })) s

/-- Its queues are freed; commands of other queues that waited on them complete. -/
def State.freeQueues (s : State) (i : Nat) : State :=
  let mine := s.queues.filter (fun p => p.2.inst == i)
  let waiting := mine.flatMap (fun p => match p.2.flush with | some f => f.waiting | none => [])
    ++ (s.upd.rings.filter (fun p => p.2.inst == i)).filterMap (fun p => p.2.removing)
  let s := { s with queues := tkeep s.queues (fun _ y => y.inst != i) }
  waiting.foldl (fun s w => s.finish w.1 w.2 0 0) s

/-- Every object of the instance but what Table 12-7 and R422 keep. -/
def State.freeObjects (s : State) (i : Nat) : State :=
  let s := { s with fences := tkeep s.fences (fun _ f => f.inst != i) }
  let s := (s.ctxs.filter (fun p => p.2.inst == i)).foldl (fun s p =>
    let s := if s.formeUp (stackOf p.2.recordPA) then s
      else s.modCtx p.1 (fun (x : CtxSt) => { x with state := CtxState.idle, slot := none })
    s.freeCtx p.1) s
  let s := (s.orphanCut (fun o => o == i)).bceDrop (fun k => k == i) false
  let s := (s.sec.slots.filter (fun p => p.2.origin == 3 && decide (16 ≤ p.1) && p.2.owner == some i)).foldl (fun s p => s.emptySlot p.1) s
  { s with
    sec := { s.sec with spdm := tmod s.sec.spdm i (fun (x : SpdmSt) => { x with session := none, updates := 0 }) },
    net := { s.net with conns := tmap s.net.conns (fun _ (y : ConnSt) => if y.inst = i then
      { y with state := .disabled, outst := [], waiting := [], applying := [], ackBases := [], ackDue := none, reports := [] } else y) },
    platens := s.platens.map (fun (p : PlatenSt) => { p with buckets := tmod p.buckets i (fun (b : Bucket) => { b with count := b.depth }) }) }

/-- Function registers after the reset: a function-level reset returns them to their reset values (R405). -/
def FnRegs.afterReset (x : FnRegs) (clear : Bool) : FnRegs :=
  let y := if clear then FnRegs.reset else { x with kqId := none }
  { y with instReset := true, ready := true }

/-- INSTANCE_RESET_DONE. -/
def execInstanceResetDone (i : Nat) (s : State) : Res :=
  match (s.inst i).reset with
  | none => .next s
  | some r =>
    let own := r.waiting
    let s := if r.writes then (s.flushInstance i) else s
    let s := if r.writes then (own.foldl (fun s w => s.modCmd w.1 w.2 (fun c => { c with st := .started })) s).pump else s
    -- the tag check, then the entries of the RESET commands and of what stands behind them
    let s := (own.foldl (fun s w => s.finish w.1 w.2 0 0) s).pump
    let s := (s.freeQueues i).freeObjects i
    let s := s.modInst i (fun y =>
      if r.gone then { y with state := .off, reset := none, fn := FnRegs.reset, msix := Msix.reset, d3 := false }
      else { y with state := .enabled, reset := none, fn := y.fn.afterReset (!r.writes),
                    msix := if r.writes then y.msix else Msix.reset, d3 := false })
    .next s.settle

/-! ## What starts an instance reset (R421) -/

/-- Whether a function exists: the PF, or a VF while VF Enable is set (R406). -/
def State.fnExists (s : State) (i : Nat) : Bool :=
  i == 0 || (decide (i < 256) && s.host.vfEnable && decide (i ≤ s.host.numVFs))

/-- FLR_VF. -/
def execFlrVf (i : Nat) (s : State) : Res :=
  if s.up && i != 0 && s.fnExists i then .next (s.resetInstance i [] false false).settle else .next s

/-- FLR_PF: every instance. -/
def execFlrPf (s : State) : Res :=
  if s.up then .next ((s.host.insts.map (·.1)).foldl (fun s i => s.resetInstance i [] false false) s).settle else .next s

/-- D3HOT_TO_D0: a VF that software put into D3hot returns to D0. -/
def execD3hotToD0 (i : Nat) (s : State) : Res :=
  if s.up && i != 0 && s.fnExists i && (s.inst i).d3 then .next ((s.modInst i (fun y => { y with d3 := false })).resetInstance i [] false false).settle
  else .next s

/-- VF_ENABLE_SET: VF Enable is set with NumVFs n, or, where it is set already, NumVFs is raised to n (R406: a VF
exists while VF Enable is set and NumVFs is at least its number). -/
def execVfEnableSet (n : Nat) (s : State) : Res :=
  if !s.up || (s.host.vfEnable && decide (n ≤ s.host.numVFs)) || decide (255 < n) then .next s
  else
    let s := { s with host := { s.host with vfEnable := true, numVFs := n } }
    .next ((List.range n).foldl (fun s k => s.modInst (k + 1) (fun y =>
      if y.state = .off then { y with state := .enabled, fn := { y.fn with ready := true } }
      else { y with reset := y.reset.map (fun (r : InstReset) => { r with gone := false }) })) s)

/-- VF_ENABLE_CLEAR: NumVFs is lowered to n, or VF Enable cleared when n is 0: each VF that ceases to exist is reset
(R421). -/
def execVfEnableClear (n : Nat) (s : State) : Res :=
  if !s.up || !s.host.vfEnable || decide (s.host.numVFs ≤ n) then .next s
  else
    let gone := (List.range s.host.numVFs).filter (fun k => decide (n ≤ k))
    let s := { s with host := { s.host with vfEnable := n != 0, numVFs := n } }
    .next (gone.foldl (fun s k => s.resetInstance (k + 1) [] false true) s).settle

/-! ## The RESET command (14_recovery.md Table 14-8) -/

def cmdTarget (c : Cmd) : Nat := field c.body 0x12 2

/-- RESET with SCOPE 0: level 1, code WATCHDOG with INFO1 0. -/
def execResetContext (q : Nat) (s : State) : Res :=
  .next (s.runIf q 0x38 (subIs 0) (fun s x c =>
    let t := cmdTarget c
    match s.namedCtx x t 0x12 with
    | .error (st, d) => s.refuse q c.no st d
    | .ok _ =>
      let r : FaultRec := { faultOf 0x4002 with unitType := 0x07, queue := some q, info0 := q }
      (s.loseContext t r none).succeed q c.no 0))

/-- RESET with SCOPE 1: a flush, and the watchdog restarts. -/
def execResetQueue (q : Nat) (s : State) : Res :=
  .next (s.runIf q 0x38 (subIs 1) (fun s x c =>
    let t := cmdTarget c
    match s.namedQueue x t 0x12 with
    | .error (st, d) => s.refuse q c.no st d
    | .ok _ => ((s.begin_ q c.no).applyFlush t [(q, c.no)] false).modQueue t (fun y => { y with wdog := 0 })))

/-- RESET with SCOPE 2: an instance reset. -/
def execResetInstance (q : Nat) (s : State) : Res :=
  .next (s.runIf q 0x38 (subIs 2) (fun s _ c =>
    let t := cmdTarget c
    if (s.inst t).state = .off then s.refuse q c.no 0x17 0x12
    else (s.begin_ q c.no).resetInstance t [(q, c.no)] true false))

/-- RESET with SCOPE 3: a galley reset in place (R489). -/
def execResetGalley (q : Nat) (s : State) : Res :=
  .next (s.runIf q 0x38 (subIs 3) (fun s _ c =>
    let g := cmdTarget c
    if s.fm.retired.contains g || !((s.forme (formeOf g)).status == .inService || (s.forme (formeOf g)).status == .resetting) then
      s.refuse q c.no 0x17 0x12
    else (s.begin_ q c.no).levelTwo g (faultOf 0) [(q, c.no)] true))

/-- RESET with SCOPE 4: level 3. -/
def execResetForme (q : Nat) (s : State) : Res :=
  .next (s.runIf q 0x38 (subIs 4) (fun s _ c =>
    let f := cmdTarget c
    if !((s.forme f).status == .inService || (s.forme f).status == .resetting) then s.refuse q c.no 0x17 0x12
    else (s.begin_ q c.no).levelThree f (faultOf 0) [(q, c.no)]))

/-- RESET with SCOPE 5: level 4 warm; there is no completion entry. -/
def execResetBlock (q : Nat) (s : State) : Res :=
  .next (s.runIf q 0x38 (subIs 5) (fun s _ _ => s.levelFour (faultOf 0) false))

end Sys2Proof.Machine
end

