-- ==== Sys2Proof/Machine/ServeOps.lean ====
section
/-! DEFINITION. Shared operations of serving: entries and slices, the proof map, losing and restoring a slice
(09_serving.md R301 to R305, R331 to R333; 14_recovery.md R498 to R504). -/

namespace Sys2Proof.Machine

/-! ## Accesses charged to no instance (06_platens.md R217) -/

/-- A read through a context's frisket that no instance pays for; none when any byte of it fails. -/
def State.proofRead (s : State) (c va n : Nat) : Option (List Byte) × State :=
  match tget s.ctxs c with
  | none => (none, s)
  | some x =>
    (rangePieces va n).foldl (fun (r : Option (List Byte) × State) p =>
      match r.1 with
      | none => r
      | some l =>
        match x.translate p.1 false with
        | .error _ => (none, r.2)
        | .ok (true, a) => ((r.2.hostRead a p.2).map (fun m => l ++ m), r.2)
        | .ok (false, a) =>
          let s := r.2.decodeRange a p.2
          if !s.formeUp (stackOf a) || s.poisoned (a / 256 * 256) (a % 256 + p.2) then (none, s)
          else (some (l ++ mread s.mem a p.2), s)) (some [], s)

/-- A write through a context's frisket that no instance pays for; false when it could not be made whole. -/
def State.proofWrite (s : State) (c va : Nat) (l : List Byte) : Bool × State :=
  match tget s.ctxs c with
  | none => (false, s)
  | some x =>
    let ok (p : Nat × Nat) : Bool := match x.translate p.1 true with
      | .ok (host, a) => host || s.formeUp (stackOf a)
      | .error _ => false
    let ps := rangePieces va l.length
    if !ps.all ok then (false, s)
    else (true, ps.foldl (fun s p =>
      match x.translate p.1 true with
      | .ok (true, a) => s.hostWrite a ((l.drop (p.1 - va)).take p.2)
      | .ok (false, a) => s.devWrite a ((l.drop (p.1 - va)).take p.2) false
      | .error _ => s) s)

/-! ## Entries and slices -/

/-- Slice of an entry, and the slices of a domain. -/
def sliceOf (i : Nat) : Nat := i / 2 ^ 15
def State.domainSlices (s : State) (d : Nat) : List Nat := (List.range 8).filter (fun f => s.domainOf f == d)

/-- Change an entry: its change bit is set (14_recovery.md R501). -/
def State.modSeq (s : State) (i : Nat) (f : SeqEntry → SeqEntry) : State :=
  { s with serve := { s.serve with seqs := tmod s.serve.seqs i (fun e => { f e with changed := true }) } }

/-- An entry becomes FREE; the batches forget it. -/
def State.freeSeq (s : State) (i : Nat) : State := { s with serve := { s.serve with seqs := tdel s.serve.seqs i } }

/-- R498: the stack that holds the proofs of slice v. -/
def State.proofStack (s : State) (v : Nat) : Nat :=
  let n := 8 / s.domains
  if n = 1 then (v + 1) % 8 else (let a := v / n * n; a + (v - a + 1) % n)

/-- Device address of the state pool of slice v (R499). -/
def State.poolBase (s : State) (v : Nat) : Nat := s.proofStack v * 2 ^ 36 + 0xC00000 + 0x400000

/-- Reservations in the pool of slice v, as start and size (R500). -/
def State.poolUsedBy (s : State) (v : Nat) : List (Nat × Nat) :=
  (s.serve.seqs.filter (fun p => sliceOf p.1 == v && p.2.proof)).map (fun p => (p.2.poolOff, 2 * p.2.stateBytes))

/-- R500: the lowest free offset of a pool for n bytes: 0, or the end of a reservation. -/
def lowestGap (used : List (Nat × Nat)) (n : Nat) : Option Nat :=
  let ok (o : Nat) : Bool := decide (o + n ≤ 0x3C00000) && used.all (fun u => !(decide (o < u.1 + u.2) && decide (u.1 < o + n)))
  (0 :: used.map (fun u => u.1 + u.2)).foldl (fun (b : Option Nat) o =>
    if ok o then some (match b with | some x => min x o | none => o) else b) none

/-- Whether a context's virtual address lies in memory that answers: on the host or on a stack in service. -/
def State.vaUp (s : State) (c va : Nat) : Bool :=
  match s.transCtx c va with
  | some (host, a) => host || s.formeUp (stackOf a)
  | none => false

/-! ## Losing a slice (R333, R504) -/

/-- SLICE_LOST: every entry of the slice becomes FREE. -/
def State.dropSlice (s : State) (v : Nat) : State :=
  let mine := s.serve.seqs.filter (fun p => sliceOf p.1 == v)
  let s := { s with serve := { s.serve with
    seqs := tkeep s.serve.seqs (fun i _ => sliceOf i != v), fromProof := s.serve.fromProof.erase v, lost := s.serve.lost.erase v } }
  ((mine.map (fun p => p.2.inst)).dedup).foldl (fun s i =>
    s.fault { faultOf 0x9003 with inst := some i, unitType := 0x05, logical := v, phys := v, info0 := v } []) s

/-- The content of stack f is lost, or the stack is out of service: its slice waits for its proofs, and the
proofs it held are gone. -/
def State.servingLost (s : State) (f : Nat) : State :=
  let s := (List.range 8).foldl (fun s v =>
    if s.proofStack v = f then
      let s := { s with serve := { s.serve with
        proofs := tkeep s.serve.proofs (fun i _ => sliceOf i != v),
        seqs := tmap s.serve.seqs (fun i (e : SeqEntry) => if sliceOf i = v then { e with changed := true } else e),
        proofLost := s.serve.proofLost.insert v } }
      if s.serve.lost.contains v || s.serve.fromProof.contains v then s.dropSlice v else s
    else s) s
  if s.serve.fromProof.contains f || s.serve.lost.contains f then s
  else if s.serve.proofLost.contains f then s.dropSlice f
  else { s with serve := { s.serve with lost := s.serve.lost.insert f, writeBack := s.serve.writeBack.erase f } }

/-- R333: a sequence goes back to its proof: its state half is rewritten through the frisket. -/
def State.rollBack (s : State) (i : Nat) (r : ProofRec) : Bool × State :=
  let e := r.entry
  let src := s.poolBase (sliceOf i) + e.poolOff + b2n r.half * e.stateBytes
  let w := if e.stateBytes = 0 ∨ e.stateVA = 0 then (true, s)
    else s.proofWrite e.ctx (e.stateVA + e.proofStep % 2 * e.stateBytes) (mread s.mem src e.stateBytes)
  if w.1 then (true, w.2.modSeq i (fun x => { x with steps := e.proofStep, resumed := true })) else (false, w.2)

/-- Forme f is back in service with its stack: a slice served from its proof is written back, and suspended
sequences whose state region lies on it are rolled back and become READY. -/
def State.servingBack (s : State) (f : Nat) : State :=
  let s := if s.serve.fromProof.contains f then
      { s with serve := { s.serve with fromProof := s.serve.fromProof.erase f, writeBack := s.serve.writeBack.insert f } }
    else s
  s.serve.seqs.foldl (fun s p =>
    if p.2.st = .suspended ∧ p.2.proof ∧ s.vaUp p.2.ctx p.2.stateVA then
      match tget s.serve.proofs p.1 with
      | some r =>
        match s.rollBack p.1 r with
        | (true, s) => s.modSeq p.1 (fun x => { x with st := .ready, readyTime := s.now })
        | (false, s) => s
      | none => s
    else s) s

end Sys2Proof.Machine
end

