-- ==== Sys2Proof/Machine/MemCmd.lean ====
section
/-! DEFINITION. The meanings of the memory controllers' own events: patrol, retirement, write turns, refresh,
temperature, training, restores, lost content (08_memory.md R280, R286 to R300). -/

namespace Sys2Proof.Machine

/-! ## Patrol and retirement -/

/-- Sheets of a stack that the patrol reads: 60 GiB of frames below the overs pool, then the overs frames in
use (R286). -/
def StackSt.lastSheet (x : StackSt) : Nat := 0xF00000000 / 256 + x.oversUsed * 256

/-- One beat group read by the patrol: a poisoned one is counted, left as it is (Table 08-6). -/
def State.patrolGroup (s : State) (f g : Nat) : State :=
  if s.groupBad g then (s.memLog f g 1).count (0x4020 + f) 4 1 else s.decodeGroup g

/-- SCRUB_STEP (R286): the patrol of stack f reads its next sheet. -/
def execScrubStep (f : Nat) (s : State) : Res :=
  let x := s.stack f
  if decide (8 ≤ f) || x.state != .inService then .next s
  else
    let sh := if x.lastSheet ≤ x.scrubAt then 0 else x.scrubAt
    let s := s.modStack f (fun x => { x with scrubAt := sh + 1, scrubTick := s.now })
    .next ((List.range 4).foldl (fun s i => s.patrolGroup f (f * 2 ^ 30 + 4 * sh + i)) s).settle

/-- FRAME_RETIRE_DONE (R288): the frame is copied, its remap entry committed. -/
def execFrameRetireDone (f : Nat) (s : State) : Res :=
  match (s.stack f).retiring with
  | none => .next s
  | some r =>
    if (s.stack f).state != .inService then .next s
    else
      let g0 := f * 2 ^ 30 + r.frame * 1024
      let errs := ((s.stack f).errors.map (·.1)).filter (fun g => decide (g0 ≤ g) && decide (g < g0 + 1024))
      let s := errs.foldl (fun s g => s.decodeGroup g) s
      let s := s.modStack f (fun x => { x with
        remap := tput x.remap r.frame r.overs, toFlash := x.toFlash ++ [(r.frame, r.overs, s.now)], retiring := none,
        tracker := x.tracker.filter (fun p => p.1 != r.frame), toRetire := x.toRetire.filter (fun k => k != r.frame) })
      let s := s.fault { stackRecord f 0x5005 (f * 2 ^ 36 + r.frame * 65536) none with info0 := r.overs } []
      .next (s.nextRetire f).settle

/-- FLASH_LIST_APPEND (R288): the oldest committed retirement goes to the flash list, unless the persistent
store is out of service (17_boundary.md R617). -/
def execFlashListAppend (f : Nat) (s : State) : Res :=
  match (s.stack f).toFlash with
  | [] => .next s
  | (fr, ov, _) :: rest =>
    if s.bnd.store.fault || !s.up then .next s
    else
      let base := 0x01B00000 + f * 0x80000
      let i := ((List.range 65536).find? (fun i => mload s.bnd.fp.flash (base + 8 * i) 8 == 0)).getD 65535
      let s := s.flashWrite (base + 8 * i) (toLE 8 (2 ^ 64 - 2 ^ 36 + ov * 2 ^ 20 + fr))
      .next (s.modStack f (fun x => { x with flashList := tput x.flashList fr ov, toFlash := rest }))

/-- CE_TRACKER_CLEAR (R287). -/
def execCeTrackerClear (s : State) : Res :=
  if s.due .trackerClear then
    .next { s.ran .trackerClear with hbm := s.hbm.map (fun (x : StackSt) => { x with tracker := [] }) }
  else .next s

/-- WRITE_QUEUE_TURN (R280): a pseudo-channel writes until its queue is empty or 64 writes have gone. -/
def execWriteQueueTurn (f pc : Nat) (s : State) : Res :=
  let l := (tget (s.stack f).wq pc).getD []
  let old : Bool := match l with
    | w :: _ => decide (w.tick + 200 ≤ s.now)
    | [] => false
  if decide (32 ≤ l.length) || old then
    .next (s.modStack f (fun x => { x with wq := if l.length ≤ 64 then tdel x.wq pc else tput x.wq pc (l.drop 64) }))
  else .next s

/-- REFRESH (R292): one refresh or refresh-management command; it changes no cell. -/
def execRefresh (f : Nat) (s : State) : Res :=
  if (s.stack f).state = .inService ∨ (s.stack f).state = .training then
    .next (s.modStack f (fun x => { x with refreshTick := s.now, activity := 0 }))
  else .next s

/-! ## Temperature -/

/-- Band of Table 08-8 at t degrees, coming from band b: a row is left 3 degrees below its lower bound. -/
def tempBand (b t : Nat) : Nat :=
  let at_ := if 105 ≤ t then 3 else if 95 ≤ t then 2 else if 85 ≤ t then 1 else 0
  let keep (k : Nat) : Bool := decide (k ≤ b) && decide (75 + 10 * k < t + 3)
  if at_ < b then (if keep 3 then 3 else if keep 2 then max 2 at_ else if keep 1 then max 1 at_ else at_) else at_

/-- STACK_TEMP_READ (R292): every 1 ms. -/
def execStackTempRead (f temp : Nat) (s : State) : Res :=
  let x := s.stack f
  if decide (8 ≤ f) || (decide (0 < x.tempTick) && decide (s.now < x.tempTick + 100000)) then .next s
  else
    let b := tempBand x.band temp
    let s := s.modStack f (fun x => { x with temp := temp, band := b, tempTick := s.now })
    if b = x.band ∨ b = 0 then .next s
    else .next (s.fault { stackRecord f (0xD000 + b) 0 none with info0 := f, info1 := temp } [])

/-! ## Training -/

/-- A training record goes to the copy that does not hold the newer one (R294). -/
def StackSt.writeTraining (x : StackSt) (values : Nat) (now : Nat) : StackSt :=
  let newer := if x.train.good && (!x.train2.good || decide (x.train2.seq ≤ x.train.seq)) then x.train else x.train2
  let r : TrainRec := ⟨newer.seq + 1, x.temp, values, true⟩
  let x := { x with trainTick := now }
  if x.train.good && (!x.train2.good || decide (x.train2.seq ≤ x.train.seq)) then { x with train2 := r } else { x with train := r }

/-- TRAINING_RECORD_WRITE (R294): after every 100 ms of in-service tracking. -/
def execTrainingRecordWrite (f values : Nat) (s : State) : Res :=
  let x := s.stack f
  if x.state = .inService ∧ x.trainTick + 10000000 ≤ s.now then .next (s.modStack f (fun x => x.writeTraining values s.now))
  else .next s

/-- Stack and forme agree on whether the stack is in service. -/
def State.setStack (s : State) (f : Nat) (st : StackState) : State :=
  let s := s.modStack f (fun x => { x with state := st })
  s.setForme f { s.forme f with stackUp := st == .inService }

/-- R299: what the loss of a stack's content leaves: context memory poisoned, the system area rebuilt, mirrored
copies stale in full, the slice to be restored from its proofs. -/
def State.contentLost (s : State) (f : Nat) : State :=
  let s := { s with
    mem := mclear s.mem (f * 2 ^ 36) (2 ^ 36), poison := s.poison.filter (fun g => g / 2 ^ 30 != f),
    lostMem := tput s.lostMem f [] }
  let s := s.modStack f (fun x => { x with
    lost := false, errors := [], recent := [[], [], []], log := [], news := [], toRetire := [], tracker := [] })
  let s := (s.tablesFormeDown f true).servingLost f
  s.fault (stackRecord f 0x9002 0 none) []

/-- A stack fails training: it is out of service and its forme with it (R296). -/
def State.stackFailed (s : State) (f phase : Nat) : State :=
  let s := (s.setStack f .out).setForme f { (s.setStack f .out).forme f with status := .outOfService }
  let s := (s.tablesFormeDown f false).servingLost f
  (s.fault { stackRecord f 0x9001 0 none with info0 := phase } []).evalFaultPin

/-- A trained or restored stack is in service again, lanes repaired (R291, R295). -/
def State.stackReady (s : State) (f : Nat) : State :=
  let s := (s.setStack f .inService).modStack f (fun x => { x with entering := none, laneFaults := [], lanes := [] })
  if (s.stack f).lost then s.contentLost f else s

/-- A forme whose stack was trained outside a start or a forme reset comes back into service. -/
def State.formeBack (s : State) (f : Nat) : State :=
  let s := s.setForme f { s.forme f with status := .inService }
  let s := { s with mgmt := { s.mgmt with applied := s.mgmt.applied ||| ((2 ^ f + 2 ^ (8 + f)) &&& s.mgmt.modeUse) } }
  ((s.tablesFormeUp f).servingBack f).evalFaultPin

/-- FULL_TRAINING_DONE (R295, R296): `phase` is the training phase that failed, none when it succeeded. -/
def execFullTrainingDone (f values : Nat) (phase : Option Nat) (s : State) : Res :=
  if (s.stack f).state ≠ .training ∨ 8 ≤ f then .next s
  else match phase with
    | some p => .next (s.stackFailed f p).settle
    | none =>
      let s := (s.modStack f (fun x => x.writeTraining values s.now)).stackReady f
      .next (if !s.starting && (s.forme f).status == .outOfService then s.formeBack f else s).settle

/-- WARM_RESTORE_DONE (R297): the end of a restore from self-refresh, in a warm start or a forme reset: whether
the remap table and the training record passed their CRCs, and recalibration and verification passed. -/
def execWarmRestoreDone (f : Nat) (remapOk recordOk verifyOk : Bool) (s : State) : Res :=
  if 8 ≤ f ∨ (s.stack f).state ≠ .selfRefresh ∨ !(s.starting || s.formeReset? f) then .next s
  else
    -- a remap table that fails its CRC is rebuilt from the flash list, and the content is lost
    let s := if remapOk then s
      else s.modStack f (fun x => { x with lost := true, remap := x.flashList })
    let s := s.modStack f (fun x => { x with entering := none })
    if recordOk && verifyOk then .next (s.stackReady f).settle
    else
      let s := if recordOk then s
        else s.modStack f (fun x => { x with train := { x.train with good := false }, train2 := { x.train2 with good := false } })
      .next (s.setStack f .training)

/-- ZERO_FILL_DONE (R298): at a cold start or in a handover scrub. -/
def execZeroFillDone (f : Nat) (s : State) : Res :=
  if 8 ≤ f ∨ !s.starting then .next s
  else
    let s := { s with mem := mclear s.mem (f * 2 ^ 36) (2 ^ 36), poison := s.poison.filter (fun g => g / 2 ^ 30 != f),
                      lostMem := tdel s.lostMem f }
    .next (s.modStack f (fun x => { x with errors := [], recent := [[], [], []], log := [] }))

/-- SELF_REFRESH_TIMEOUT (R299): no confirmation within 100 µs: the content is declared lost, and filled after
the training or restore that follows. -/
def execSelfRefreshTimeout (f : Nat) (s : State) : Res :=
  match (s.stack f).entering with
  | some t =>
    if (s.stack f).state = .selfRefresh ∧ t + 10000 ≤ s.now then
      .next (s.modStack f (fun x => { x with lost := true, entering := none }))
    else .next s
  | none => .next s

end Sys2Proof.Machine
end

