-- ==== Sys2Proof/Machine/Watch.lean ====
section
/-! DEFINITION. Fault rings and the fault log, the wait-graph monitor, watchdogs, teardowns (14_recovery.md R469, R471,
R472, R478 to R482, R488). -/

namespace Sys2Proof.Machine

/-! ## The fault ring (R471) -/

/-- A write of FN_FLT_CTRL, under R18's rule for a register that holds its own locking bit. -/
def State.writeFltCtrl (s : State) (fn v : Nat) : State :=
  if !s.fnServes fn then s
  else
    let r := (s.inst fn).fn
    let on := bit v 31
    let same := decide (bits v 19 16 = r.fltLog2) && decide (bits v 15 0 = r.fltVector)
    let s := if r.fltEnable then (if same then s else s.lockViolation 0x0C8 (some fn))
      else s.modFn fn (fun y => { y with fltLog2 := bits v 19 16, fltVector := bits v 15 0 })
    let r := (s.inst fn).fn
    let ok := within 6 12 r.fltLog2 && r.fltBase % (64 * 2 ^ r.fltLog2) == 0
    s.modFn fn (fun y => { y with
      fltOverflow := y.fltOverflow && !bit v 30,
      fltEnable := if y.fltEnable then on else on && ok, fltError := on && !y.fltEnable && !ok })

/-- FN_FLT_ENABLE: a write of FN_FLT_CTRL with ENABLE set. -/
def execFnFltEnable (fn v : Nat) (s : State) : Res := if bit v 31 then .next (s.writeFltCtrl fn v) else .next s

/-! ## The fault log (R469) -/

/-- One record at the write point of the fault log; the sector ahead is kept erased (17_boundary.md R612). -/
def State.logRecord (s : State) (r : FaultRec) : State :=
  let n := s.fm.logNext
  let s := if n % 64 = 0 then (s.flashErase (0x01200000 + n * 64) 4096).flashErase (0x01200000 + (n + 64) % 16384 * 64) 4096 else s
  let s := s.flashWrite (0x01200000 + n * 64) (r.bytes false)
  { s with fm := { s.fm with logNext := (n + 1) % 16384 } }

/-- Records committed to the fault log: a ring of 16,384. -/
def State.commitRecords (s : State) : State :=
  let l := s.fm.flashLog ++ s.fm.unlogged
  let s := s.fm.unlogged.foldl State.logRecord s
  { s with fm := { s.fm with flashLog := l.drop (l.length - 16384), unlogged := [] } }

/-- FAULT_FLUSH: the pending records, then one RECORDS_CONDENSED for each suppressed code. -/
def execFaultFlush (s : State) : Res :=
  if s.fm.unlogged.isEmpty then .next s
  else
    let codes := s.fm.suppressed
    let s := s.commitRecords
    let s := { s with fm := { s.fm with suppressed := [] } }
    .next (codes.foldl (fun (s : State) p =>
      (s.fault { faultOf 0xE001 with unitType := 0x0E, info0 := p.1, info1 := p.2 } []).commitRecords) s)

/-! ## The wait-graph monitor (R478 to R480) -/

/-- The published, unstarted commands of a queue at most 64 behind its head. -/
def State.aheadCmds (s : State) (x : QueueSt) : List Cmd :=
  let more := if x.stopped || x.flush.isSome then [] else (State.parsePublished x 64 s x.fetch []).1
  let all := x.cmds ++ more
  (all.take 65).filter (fun c => c.st == .fetched)

/-- The addresses that a command of a queue would write: a WRITE_VALUE's, and its fence's counter. -/
def State.cmdWrites (s : State) (x : QueueSt) (c : Cmd) : List (Bool × Nat) :=
  let v := if c.op = 3 then (s.transQueue x (field c.body 0x10 8)).toList else []
  let w := field c.body 8 2
  let f := if bit w 15 then (match tget s.fences (w % 8192) with
      | some f => if f.counterVA = 0 then [] else (s.transCtx f.ctx f.counterVA).toList
      | none => [])
    else []
  v ++ f

/-- The queues of a scan: those that hold a registered wait, their context neither lost nor in teardown. -/
def State.waitNodes (s : State) : List (Nat × QueueSt) :=
  s.queues.filter (fun p => p.2.wait.isSome
    && (p.2.kind == 0 || ((tget s.ctxs p.2.ctx).map (fun (c : CtxSt) => c.state != .lost && c.teardown.isNone)) == some true))

/-- Edges: A waits on an address that a command of B would write. -/
def State.waitEdges (s : State) : List (Nat × Nat) :=
  let nodes := s.waitNodes
  let writes := nodes.map (fun p => (p.1, (s.aheadCmds p.2).flatMap (fun c => s.cmdWrites p.2 c)))
  nodes.flatMap (fun a => match s.waitAddr a.2 with
    | some w => (writes.filter (fun b => b.2.contains w)).map (fun b => (a.1, b.1))
    | none => [])

/-- The shortest path of at most n edges from one of `front` to a target, each path newest node first. -/
def findPath (edges : List (Nat × Nat)) (target : Nat) : Nat → List (List Nat) → List Nat → Option (List Nat)
  | 0, _, _ => none
  | n + 1, front, seen =>
    match front.find? (fun p => match p with | a :: _ => edges.contains (a, target) | [] => false) with
    | some p => some p
    | none =>
      let next := front.flatMap (fun p => match p with
        | a :: _ => ((edges.filter (fun e => e.1 == a && !seen.contains e.2)).map (fun e => e.2 :: p))
        | [] => [])
      if next.isEmpty then none else findPath edges target n next (seen ++ next.flatMap (fun p => p.take 1))

/-- A cycle of the graph. -/
def findCycle (edges : List (Nat × Nat)) : Option (List Nat) :=
  ((edges.map (fun e => e.1)).dedup).findSome? (fun a => findPath edges a (edges.length + 1) [[a]] [a])

/-- The youngest registration of a cycle among the queues with a context: latest tick, then higher queue. -/
def State.youngest (s : State) (l : List Nat) : Option (Nat × QueueSt) :=
  l.foldl (fun (b : Option (Nat × QueueSt)) q =>
    match tget s.queues q with
    | none => b
    | some x =>
      if x.kind = 0 then b
      else
        let t := (x.wait.map (fun (w : Wait) => w.tick)).getD 0
        match b with
        | none => some (q, x)
        | some (q', y) =>
          let u := (y.wait.map (fun (w : Wait) => w.tick)).getD 0
          if u < t ∨ (u = t ∧ q' < q) then some (q, x) else b) none

/-- Name and lose the guilty context of each cycle, one after another. -/
def State.breakCycles : Nat → State → State
  | 0, s => s
  | n + 1, s =>
    match findCycle s.waitEdges with
    | none => s
    | some l =>
      match s.youngest l with
      | none => s
      | some (q, x) =>
        let a := ((s.waitAddr x).map (·.2)).getD 0
        State.breakCycles n (s.loseContext x.ctx { faultOf 0x4001 with unitType := 0x0D, queue := some q, addr := a, info0 := q, info1 := l.length } none)

/-- WGM_SCAN. -/
def execWgmScan (s : State) : Res :=
  if !s.up || !s.due .wgm then .next s else .next ((State.breakCycles s.waitNodes.length (s.ran .wgm)).settle)

/-! ## Watchdogs (R481, R482) -/

/-- Ticks of a queue's watchdog. -/
def QueueSt.wdogLimit (x : QueueSt) : Nat := 100000 * (if x.wdogMs = 0 then 1000 else x.wdogMs)

/-- Whether a queue waits on a forme in reset (R493): its ring, its next entry, or its wait. -/
def State.waitsOnForme (s : State) (x : QueueSt) : Bool :=
  let down (r : Option (Bool × Nat)) : Bool := match r with
    | some (false, a) => !s.formeUp (stackOf a)
    | _ => false
  down (s.transQueue x (x.sqVA + x.fetch % x.size * 64)) || down (s.waitAddr x)
  || (match x.cmds with
      | c :: _ => (match c.st with | .done st d => s.entryHeld x c st d | _ => false)
      | [] => false)

/-- Whether the watchdog of a queue counts now. -/
def State.wdogCounts (s : State) (q : Nat) (x : QueueSt) : Bool :=
  let head := match x.cmds with
    | c :: _ =>
      (x.wait.map (fun (w : Wait) => w.no)) == some c.no
      || (c.st == .started && (match s.steps.find? (fun p => p.2.queue == q && p.2.no == c.no) with
        | some p => p.2.st == .running || p.2.st == .stopping
        | none => true))
    | [] => x.stalled.isSome
  (!x.cmds.isEmpty || x.fetch != x.tail) && head && !s.waitsOnForme x

/-- QUEUE_WATCHDOG. -/
def execQueueWatchdog (q : Nat) (s : State) : Res :=
  match tget s.queues q with
  | none => .next s
  | some x =>
    if !s.up || x.kind == 0 || decide (x.wdog < x.wdogLimit) then .next s
    else
      let s := s.modQueue q (fun y => { y with wdog := 0 })
      .next (s.loseContext x.ctx { faultOf 0x4002 with unitType := 0x07, queue := some q, info0 := q, info1 := x.wdogLimit / 100000 } none).settle

/-- KQ_WATCHDOG. -/
def execKqWatchdog (q : Nat) (s : State) : Res :=
  match tget s.queues q with
  | none => .next s
  | some x =>
    if !s.up || x.kind != 0 || decide (x.wdog < x.wdogLimit) then .next s
    else
      let s := s.modQueue q (fun y => { y with wdog := 0 })
      .next (s.fault { faultOf 0x4003 with inst := some x.inst, unitType := 0x07, queue := some q, info0 := q, info1 := x.wdogLimit / 100000 } [])

/-! ## Teardown (R488) -/

/-- CONTEXT_TEARDOWN_DONE: what started completes CONTEXT_LOST, and what was fetched; the record page says why. -/
def execContextTeardownDone (c : Nat) (s : State) : Res :=
  match tget s.ctxs c with
  | none => .next s
  | some x =>
    if x.teardown.isNone then .next s
    else
      let s := { s with queues := tmap s.queues (fun _ (y : QueueSt) =>
        if y.kind ≠ 0 ∧ y.ctx = c then { y with cmds := y.cmds.map (fun (d : Cmd) => d.finish 0x21 0), wdog := 0 } else y) }
      let s := s.modCtx c (fun (x : CtxSt) => { x with teardown := none })
      let s := (s.modFn x.inst (fun y => { y with ctxLost := true })).writeRecord c
      .next s.updSettle

end Sys2Proof.Machine
end

