-- ==== Sys2Proof/Machine/Ladder.lean ====
section
/-! DEFINITION. The ends of the ladder's resets, missed bounds, supervision, hardware faults of units and links, the
rotating in-field test (14_recovery.md R475, R484 to R486, R489 to R492, R505 to R510; 01_architecture.md R28 to R33, R43). -/

namespace Sys2Proof.Machine

/-! ## Missed bounds (R484) -/

/-- Whether a teardown is past its 1 ms. -/
def State.tearLate (s : State) (c : Nat) : Bool :=
  match (tget s.ctxs c).bind (fun x => x.teardown) with
  | some t => decide (t + 100000 < s.now)
  | none => false

def State.resetLate (s : State) (t : Target) (bound : Nat) : Bool :=
  s.fm.resets.any (fun r => r.target == t && decide (r.tick + bound < s.now))

/-- Bound of a start, from its trigger (Table 14-7). -/
def StartKind.bound (k : StartKind) : Nat := match k with | .warm => 600000000 | .cold => 4500000000

/-- LADDER_BOUND_MISSED: the next level is taken on the unit that holds the part that failed to finish. -/
def execLadderBoundMissed (l : Late) (s : State) : Res :=
  let esc (code : Nat) : FaultRec := { faultOf code with escalated := true }
  match l with
  | .inGalley c g =>
    if s.tearLate c && decide (g < 64) then
      .next (s.takeFault { esc 0x7022 with unitType := 0x03, logical := g, phys := s.physGalley g } (.galley g))
    else .next s
  | .inPlaten c f =>
    if s.tearLate c && decide (f < 8) then .next (s.takeFault { esc 0x8FFF with unitType := 0x04, logical := f, phys := f } (.forme f))
    else .next s
  | .inCentral c =>
    if s.tearLate c then .next (s.takeFault { esc 0xA002 with unitType := 0x07 } .block) else .next s
  | .galley g =>
    if s.resetLate (.galley g) 15000000 then
      .next (s.takeFault { esc 0x8005 with unitType := 0x03, logical := g, phys := s.physGalley g } (.forme (formeOf g)))
    else .next s
  | .forme f =>
    if s.resetLate (.forme f) 250000000 then .next (s.takeFault { esc 0xA004 with unitType := 0x04, logical := f, phys := f } .block)
    else .next s
  | .start =>
    match s.bnd.power with
    | .starting k t => if t + k.bound < s.now then .next (s.takeFault { esc 0xA006 with unitType := 0x0E } .block) else .next s
    | _ => .next s

/-! ## The end of a galley reset (R489 to R491, R32) -/

/-- R32: a logical galley is retired: its ranks pass to the lowest galley in service of its forme, and its stopped
steps end; a forme left with none is reset (level 3). -/
def State.retireGalley (s : State) (g : Nat) : State :=
  let f := formeOf g
  let s := { s with fm := { s.fm with retired := s.fm.retired ++ [g] } }
  let s := s.fault { faultOf 0x6005 with unitType := 0x03, logical := g, phys := s.physGalley g } []
  let heir := (List.range 8).find? (fun k => s.galleyUp (8 * f + k))
  match heir with
  | none => s.levelThree f { faultOf 0x8004 with unitType := 0x04, logical := f, phys := f } []
  | some k =>
    let h := 8 * f + k
    let swap (l : List Nat) : List Nat := l.map (fun x => if x = g then h else x)
    let cut := s.steps.filter (fun p => p.2.st == .stopped && p.2.galleys.contains g)
    let s := s.cutSteps cut
    { s with
      queues := tmap s.queues (fun _ (y : QueueSt) =>
        let cmds := y.cmds.map (fun (c : Cmd) => { c with claimant := c.claimant.map (fun x => if x = g then h else x) })
        { y with ranks := swap y.ranks, cmds := cmds }),
      steps := tmap s.steps (fun _ (p : StepRec) => { p with galleys := swap p.galleys }) }

/-- The reset of a galley is over. -/
def State.galleyBack (s : State) (g : Nat) (r : ResetSt) : State :=
  let isIt (x : ResetSt) : Bool := x.target == .galley g
  r.waiting.foldl (fun s w => s.finish w.1 w.2 0 0) { s with fm := { s.fm with resets := s.fm.resets.filter (fun x => !isIt x) } }

/-- What becomes of a galley that was replaced: a standby when it passed its self-test, a floating one free again, and
retired for good when it failed (R490). -/
def State.oldGalley (s : State) (g o : Nat) (ok : Bool) : State :=
  let m := s.fm
  if ok then { s with fm := if 64 ≤ o then { m with freeSpares := inOrder (m.freeSpares ++ [o]) } else { m with standby := tput m.standby g o } }
  else { s with fm := { m with badGalleys := m.badGalleys ++ [o] } }

/-- R507: what is recorded when galley g's reset spends the last floating galley; one that another reset still tests
is not spent. -/
def State.sparesLow (s : State) (g : Nat) : State :=
  if s.fm.freeSpares.isEmpty && s.fm.resets.all (fun (r : ResetSt) => r.target == .galley g || r.spare.isNone)
  then s.oversLow 0x00 0 2 0 0 else s

/-- GALLEY_RESET_DONE: `selfOk` and `spareOk` are the outcomes of the self-tests of the galley and of its spare. -/
def execGalleyResetDone (g : Nat) (selfOk spareOk : Bool) (s : State) : Res :=
  match s.fm.resets.find? (fun r => r.target == .galley g) with
  | none => .next s
  | some r =>
    let o := s.physGalley g
    let free (s : State) (k : Option Nat) : State := { s with fm := { s.fm with freeSpares := inOrder (s.fm.freeSpares ++ k.toList) } }
    if r.inPlace && selfOk then .next ((free s r.spare).galleyBack g r).settle
    else match r.spare with
      | none => .next ((s.galleyBack g r).retireGalley g).settle
      | some k =>
        if spareOk then
          let s := s.oldGalley g o selfOk
          let s := { s with fm := { s.fm with galleyMap := tput s.fm.galleyMap g k } }
          let s := s.modGalley g (fun _ => GalleySt.zero)
          .next ((s.sparesLow g).galleyBack g r).settle
        else
          -- the spare failed its own test: the next free one is tried, and the galley is retired when there is none
          let s := { s with fm := { s.fm with badGalleys := s.fm.badGalleys ++ [k] } }
          match s.fm.freeSpares with
          | n :: rest => .next { s with fm := { s.fm with freeSpares := rest, resets := s.fm.resets.map (fun (x : ResetSt) =>
              if x.target == .galley g then { x with spare := some n } else x) } }
          | [] => .next (((s.sparesLow g).galleyBack g r).retireGalley g).settle

/-! ## The end of a forme reset (R492, R485) -/

/-- FORME_RESET_DONE: `ok` when platen, cache and crossbar passed their self-test; `failed` are the logical galleys
that did not. -/
def execFormeResetDone (f : Nat) (ok : Bool) (failed : List Nat) (s : State) : Res :=
  match s.fm.resets.find? (fun r => r.target == .forme f) with
  | none => .next s
  | some r =>
    if (s.stack f).state = .selfRefresh ∧ ok then .next s
    else
      let isIt (x : ResetSt) : Bool := x.target == .forme f
      let s := { s with fm := { s.fm with resets := s.fm.resets.filter (fun x => !isIt x) } }
      let s := s.standbyBack (fun g => formeOf g == f)
      let n := (recentTicks s.fm.hist3 f s.now 360000000000).length
      let live := (List.range 8).any (fun k => !s.fm.retired.contains (8 * f + k))
      let s : State :=
        if 3 ≤ n then
          (s.setForme f { s.forme f with status := .held }).fault { faultOf 0x8006 with unitType := 0x04, logical := f, phys := f, info0 := n } []
        else if !ok || !live || (s.stack f).state != StackState.inService then s.setForme f { s.forme f with status := .outOfService }
        else s.formeBack f
      let s : State := r.waiting.foldl (fun s w => s.finish w.1 w.2 0 0) (State.evalFaultPin s)
      let bad := failed.filter (fun g => formeOf g == f && !s.fm.retired.contains g)
      let s := if (s.forme f).status = .inService then
          bad.foldl (fun s g => s.levelTwo g { faultOf 0x7FFF with unitType := 0x03, logical := g, phys := s.physGalley g } [] false) s
        else s
      .next s.updSettle

/-! ## Supervision (R486) -/

/-- MC_HEARTBEAT_MISS. -/
def execMcHeartbeatMiss (s : State) : Res :=
  if s.up then .next (s.takeFault { faultOf 0xA005 with unitType := 0x0E } .block) else .next s

/-- MC_WATCHDOG. -/
def execMcWatchdog (s : State) : Res :=
  if s.up || s.starting then .next (s.takeFault { faultOf 0xA006 with unitType := 0x0E, escalated := true } .block) else .next s

/-! ## Faults of units and links (R475, R43, R239, R271, R159) -/

/-- A stick's router, store or link failed: the spare stick takes its place, or the galley is reset (R159, R160). -/
def State.stickFault (s : State) (g j : Nat) : State :=
  let y := s.galley g
  if y.spares.stickSpare.isNone && y.spares.replacing.isNone then
    s.modGalley g (fun y => { y with spares := { y.spares with replacing := some j } })
  else s.sparesExhausted g

/-- UNIT_FAULT. -/
def execUnitFault (u : FaultUnit) (s : State) : Res :=
  if !s.up then .next s
  else match u with
    | .galley g =>
      if s.galleyUp g && decide (g < 64) then
        .next (s.takeFault { faultOf 0x7FFF with unitType := 0x03, logical := g, phys := s.physGalley g } (.galley g))
      else .next s
    | .stick g j => if s.galleyUp g && decide (g < 64) && decide (j < 16) then .next (s.stickFault g j) else .next s
    | .platen f =>
      if decide (f < 8) && (s.forme f).status == .inService then
        .next (s.takeFault { faultOf 0x8001 with unitType := 0x04, logical := f, phys := f } (.forme f))
      else .next s
    | .controller f =>
      if decide (f < 8) && (s.forme f).status == .inService then
        .next (s.takeFault { faultOf 0x8002 with unitType := 0x05, logical := f, phys := f } (.forme f))
      else .next s
    | .hostPort => .next (s.takeFault { faultOf 0xA003 with unitType := 0x08 } .block)
    | .control t => .next (s.takeFault { faultOf 0xA002 with unitType := t % 16 } .block)
    | .other t => .next (s.takeFault { faultOf 0xAFFF with unitType := t % 17 } .block)

/-- Fabric links by number: 0 to 63 the galley ports, 64 to 71 the platens, 72 to 79 the forme uplinks, 80 and 81 the
floating galleys, 82 the HP, 83 the NP, 84 the control section (Table 01-4). -/
def linkForme (k : Nat) : Option Nat :=
  if k < 64 then some (k / 8) else if k < 72 then some (k - 64) else if k < 80 then some (k - 72) else none

/-- FABRIC_LINK_FAULT (R43): `group` is the lane group; `central` whether the fault is at the central side of an uplink. -/
def execFabricLinkFault (k group : Nat) (central : Bool) (s : State) : Res :=
  if !s.up || decide (85 ≤ k) then .next s
  else if s.fm.linkSpared.contains k then
    if k < 64 then
      .next (s.takeFault { faultOf 0x7FFF with unitType := 0x06, logical := k, phys := s.physGalley k } (.galley k))
    else match linkForme k with
      | some f =>
        if central then .next (s.takeFault { faultOf 0xA001 with unitType := 0x06, logical := k, phys := k, info0 := k } .block)
        else .next (s.takeFault { faultOf 0x8003 with unitType := 0x06, logical := f, phys := k, info0 := k } (.forme f))
      | none => .next (s.takeFault { faultOf 0xA001 with unitType := 0x06, logical := k, phys := k, info0 := k } .block)
  else
    let s := { s with fm := { s.fm with linkSpared := s.fm.linkSpared ++ [k] } }
    let s := s.fault { faultOf 0x5007 with unitType := 0x06, logical := k, phys := k, info0 := group } []
    .next (s.oversLow 0x06 k 5 0 (85 - s.fm.linkSpared.length))

/-! ## The rotating test (R508 to R510) -/

/-- The logical galley that runs on a physical one. -/
def State.galleyOn (s : State) (p : Nat) : Option Nat :=
  (List.range 64).find? (fun g => s.physGalley g == p && !s.fm.retired.contains g)

/-- The sliver whose sort stands at a place of a stick. -/
def Spares.sliverAt (x : Spares) (j place : Nat) : Option Nat :=
  ((List.range 16).map (fun k => 16 * j + k)).find? (fun sl => x.placeOf sl == place)

/-- ROTATING_TEST_START of physical stick n. -/
def execRotatingTestStart (n : Nat) (s : State) : Res :=
  if !s.up || !s.fm.iftOn || s.now % 60000000000 != n * 50000000 || s.fm.ift.any (fun t => t.stick == n) then .next s
  else match s.galleyOn (n / 17) with
    | none => .next s
    | some g =>
      let sp := (s.galley g).spares
      let k := n % 17
      match (List.range 16).find? (fun j => sp.stickAt j == k) with
      | none => .next s
      | some j =>
        if !s.galleyUp g then .next s
        else if thas sp.sortSpare j || sp.replacing == some j then
          .next (s.fault { faultOf 0x500C with unitType := 0x02, logical := g, phys := n, info0 := n } [])
        else
          let places := (List.range 17).filter (fun p => p != sp.sparePlace j)
          let last (p : Nat) : Nat := (tget s.fm.iftLast (n * 17 + p)).getD 0
          let oldest := places.foldl (fun (b : Option Nat) p => match b with
            | none => some p
            | some q => if last p < last q then some p else some q) none
          match oldest with
          | none => .next s
          | some p =>
            let sl := sp.sliverAt j p
            let t : Ift := ⟨n, p, s.now, g, sl⟩
            .next { s with fm := { s.fm with ift := s.fm.ift ++ [t] } }

/-- IFT_DONE: 1 ms of test has run; the sort tested becomes the stick's spare, or is retired (R509). -/
def execIftDone (n : Nat) (pass : Bool) (step : Nat) (s : State) : Res :=
  match s.fm.ift.find? (fun t => t.stick == n) with
  | none => .next s
  | some t =>
    if s.now < t.start + 100000 then .next s
    else match t.sliver with
      | none => .next { s with fm := { s.fm with ift := s.fm.ift.filter (fun t => t.stick != n) } }
      | some sl =>
        let j := stickOf sl
        let s := { s with fm := { s.fm with ift := s.fm.ift.filter (fun t => t.stick != n), iftLast := tput s.fm.iftLast (n * 17 + t.sort) s.now } }
        let s := s.modGalley t.galley (fun y =>
          let sp := y.spares
          let sp := { sp with place := tput sp.place sl (sp.sparePlace j) }
          { y with spares := if pass then { sp with freeAt := tput sp.freeAt j t.sort }
                             else { sp with sortSpare := tput sp.sortSpare j sl, retiredSorts := sp.retiredSorts ++ [n % 17 * 17 + t.sort] } })
        if pass then .next s
        else
          let s := s.fault { faultOf 0x6003 with unitType := 0x01, logical := t.galley, phys := n * 17 + t.sort, info0 := step } []
          .next (s.oversLow 0x02 t.galley 0 0 s.sortsFree)

end Sys2Proof.Machine
end

