-- ==== Sys2Proof/Machine/NetRx.lean ====
section
/-! DEFINITION. Frames received by the network ports: the checks of R447, the receive buffer and priority flow
control, what each quire message does (13_network.md R443, R444, R447, R453, R455 to R460). -/

namespace Sys2Proof.Machine

/-! ## Classifying a frame (R447) -/

/-- What the checks say of a frame: dropped by the MAC checks (1); a MAC control frame; not quire traffic (2); dropped
silently (3 to 5); refused with a NACK (6); or a quire frame with its payload in clear. -/
inductive RxClass
  | mac
  | control
  | other
  | silent
  | nack (n : Nat) (h : QHdr) (code : Nat)
  | quire (n : Nat) (h : QHdr) (pay : List Byte)
  deriving DecidableEq, Repr

/-- Table 13-2, the MAC's part. -/
def macOk (l : List Byte) (maxFrame : Nat) : Bool :=
  decide (64 ≤ l.length) && decide (l.length ≤ maxFrame) && field l (l.length - 4) 4 == crc32 (l.take (l.length - 4))
  && beField l 12 2 != 0x88A8 && !(beField l 12 2 == 0x8100 && (beField l 16 2 == 0x8100 || beField l 16 2 == 0x88A8))

/-- Check 2: the quire header and what follows it, of a frame addressed to the port. -/
def quireBody (pt : PortSt) (l : List Byte) : Option (List Byte) :=
  let len := beField l 22 2
  let udp := (l.drop 58).take len
  if beField l 12 2 = 0x8100 ∧ beField l 16 2 = 0x86DD ∧ beField l 18 1 / 16 = 6 ∧ !bit (beField l 0 1) 0
      ∧ beField l 24 1 = 17 ∧ beField l 42 16 = pt.ip ∧ udp.length = len ∧ 8 ≤ len ∧ l.length = 62 + len ∧ beField l 60 2 = pt.quirePort
      ∧ beField l 62 2 = len ∧ beField l 64 2 ≠ 0
      ∧ foldSum (foldSum (sum16 (pseudoHdr ((l.drop 26).take 16) ((l.drop 42).take 16) len ++ udp))) % 65536 = 65535 then some (udp.drop 8)
  else none

/-- Checks 3 to 6 on the quire header and payload of a frame. -/
def State.quireCheck (s : State) (p : Nat) (l b : List Byte) : RxClass :=
  let h := QHdr.read b
  let n := h.dst % 1024
  let y := s.conn n
  let flags := field b 4 1
  if b.length < 48 ∨ field b 0 2 ≠ 0x5157 ∨ field b 2 1 ≠ 1 then .silent
  else if !s.isOpen n ∨ y.port ≠ p ∨ beField l 26 16 ≠ y.peerIp ∨ h.src % 1024 ≠ y.peerConn ∨ beField l 58 2 ≠ 49152 + h.src % 1024
      ∨ y.enc ≠ h.enc ∨ b.length ≠ 48 + h.payLen + (if h.enc then 16 else 0) then .silent
  else
    let pay : Option (List Byte) :=
      if y.enc then gcmDecrypt (s.kslot y.rxKey).key (h.nonce * 2 ^ 64 + h.frame) (b.take 48) ((b.drop 48).take h.payLen) (b.drop (48 + h.payLen))
      else some (b.drop 48)
    match pay with
    | none => .silent
    | some d =>
      let typeOk := match h.typ with
        | 1 => bit y.types 0 | 3 => bit y.types 1 | 4 => bit y.types 2 | 2 => true | 5 => true | 6 => true | _ => false
      if h.epoch ≠ y.rxEpoch then .nack n h 2
      else if !typeOk then .nack n h 4
      else if y.maxPayload < h.payLen then .nack n h 5
      else if 2 ≤ flags ∨ field b 5 1 ≠ 0 ∨ 1024 ≤ h.dst ∨ 1024 ≤ h.src ∨ field b 0x2C 4 ≠ 0 then .nack n h 3
      else .quire n h d

/-- The class of a frame that arrives at logical port p. -/
def State.classify (s : State) (p : Nat) (l : List Byte) : RxClass :=
  let pt := s.port p
  if !macOk l pt.maxFrame then .mac
  else if beField l 12 2 = 0x8808 then .control
  else match quireBody pt l with
    | none => .other
    | some b => s.quireCheck p l b

/-- TYPE of a frame that passed checks 1 to 5. -/
def RxClass.typ : RxClass → Option Nat
  | .nack _ h _ => some h.typ
  | .quire _ h _ => some h.typ
  | _ => none

/-! ## The receive buffer (R444) -/

/-- Priority of a frame. -/
def framePri (l : List Byte) : Nat := if beField l 12 2 = 0x8100 then beField l 14 1 / 32 else 0

/-- Bytes of a logical port's receive buffer. -/
def State.bufSize (s : State) (p : Nat) : Nat := if (tget s.net.mode (p / 2)).getD 0 = 1 then 2 ^ 21 else 2 ^ 22

def PortSt.lossless (y : PortSt) (pri : Nat) : Bool := bit y.pfcEnable pri
def PortSt.held (y : PortSt) (pri : Nat) : Nat := (tget y.occ pri).getD 0

/-- Whether a frame of a priority finds room: 0 when it does, else the counter of its drop. -/
def State.roomFor (s : State) (p pri n : Nat) : Nat :=
  let y := s.port p
  if y.lossless pri then (if (y.xoff + y.headroom) * 16384 < y.held pri + n then 5 else 0)
  else
    let kept := ((List.range 8).map (fun k => if y.lossless k then max (y.headroom * 16384) (y.held k) else y.held k)).sum
    if s.bufSize p < kept + n then 6 else 0

/-- The bytes of a PFC frame that names one priority (R444, IEEE 802.1Qbb). -/
def pfcFrame (mac pri quanta : Nat) : List Byte :=
  let l := toBE 6 0x0180C2000001 ++ toBE 6 mac ++ toBE 2 0x8808 ++ toBE 2 0x0101 ++ toBE 2 (2 ^ pri)
    ++ (List.range 8).flatMap (fun k => toBE 2 (if k = pri then quanta else 0)) ++ toLE 26 0
  l ++ toLE 4 (crc32 l)

/-- A PFC frame of the block: it goes out whatever is paused. -/
def State.sendPfc (s : State) (p pri quanta : Nat) : State :=
  if (s.port p).up then State.portCount { s with out := s.out ++ [.frame p (pfcFrame (s.port p).mac pri quanta)] } p 2 else s

/-- Occupancy of a priority changes: XOFF when it rises above XOFF_TH, XON when it falls below XON_TH. -/
def State.setOcc (s : State) (p pri n : Nat) : State :=
  let y := s.port p
  let s := s.modPort p (fun y => { y with occ := if n = 0 then tdel y.occ pri else tput y.occ pri n })
  if y.lossless pri && decide (y.xoff * 16384 < n) && !y.xoffed.contains pri then
    (s.modPort p (fun y => { y with xoffed := y.xoffed ++ [pri], pfcTick := s.now })).sendPfc p pri 0xFFFF
  else s

/-! ## Rings of a connection in its context's memory -/

/-- A change whose bytes count for the instance only (R395, R464): the context's counters stay. -/
def State.instOnly (s : State) (c : Nat) (t : State) : State :=
  match tget s.ctxs c with
  | some x => t.modCtx c (fun y => { y with acct := x.acct })
  | none => t

/-- Read CONS of an ingest ring. -/
def State.readIngestCons (s : State) (n : Nat) : State :=
  let y := s.conn n
  match s.ctxRead y.ctx (y.ingestCtrl + 8) 8 with
  | (.ok l, t) => (s.instOnly y.ctx t).modConn n (fun y => { y with inCons := leNat l })
  | (.error .unitReset, _) => s
  | (.error e, t) => t.connFault n e

/-- The 64-byte header of an ingest record. -/
def ingestHdr (len source port now : Nat) (tail : List Byte) : List Byte :=
  let l := toLE 4 len ++ toLE 1 source ++ toLE 1 port ++ toLE 2 0 ++ toLE 8 (coarse now) ++ tail
  l ++ List.replicate (64 - l.length) 0

/-- Write one record into the ingest ring of connection n; false when it does not fit, or its memory is in reset. -/
def State.ingestWrite (s : State) (n source port : Nat) (tail data : List Byte) : Bool × State :=
  let y := s.conn n
  if y.ingestLog2 = 0 then (false, s)
  else
    let size := 2 ^ y.ingestLog2
    let need := 64 + roundUp data.length 64
    let room := size - y.inProd % size
    let pad := if room < need then room else 0
    let fits (s : State) : Bool := decide ((s.conn n).inProd + pad + need - (s.conn n).inCons ≤ size)
    let s := if fits s then s else s.readIngestCons n
    if !s.isOpen n || !fits s then (false, s)
    else
      let t := s
      let wr (r : Option AccErr × State) (a : Nat) (l : List Byte) : Option AccErr × State :=
        match r.1 with
        | some _ => r
        | none => r.2.ctxWrite y.ctx a l
      let r : Option AccErr × State := (none, s)
      let r := if pad = 0 then r else wr r (y.ingestVA + y.inProd % size) (ingestHdr (pad - 64) 0xFF port s.now [])
      let r := wr r (y.ingestVA + (y.inProd + pad) % size)
        (ingestHdr data.length source port s.now tail ++ data ++ List.replicate (roundUp data.length 64 - data.length) 0)
      let r := wr r y.ingestCtrl (toLE 8 (y.inProd + pad + need))
      match r.1 with
      | some .unitReset => (false, s)
      | some e => (true, r.2.connFault n e)
      | none => (true, (t.instOnly y.ctx r.2).modConn n (fun y => { y with inProd := y.inProd + pad + need }))

/-! ## Messages in order (R453, R458, R459) -/

/-- A TABLE_UPDATE is handed to the update front end. -/
def State.startUpdate (s : State) (n seq : Nat) (data : List Byte) : State :=
  let y := s.conn n
  let b : UpdBuf := { src := .net n seq, inst := y.inst, ctx := y.ctx, va := 0, len := data.length, off := 0, noResult := true,
                      data := data, bad := 0, firstBad := 0, fault := none }
  State.modConn { s with upd := { s.upd with bufs := s.upd.bufs ++ [b] } } n (fun y => { y with applying := y.applying ++ [seq] })

/-- Take the messages of a connection that stand at the head of its SEQ order. -/
def State.takeInOrder (n : Nat) : Nat → State → State
  | 0, s => s
  | k + 1, s =>
    let y := s.conn n
    match y.waiting.find? (fun (m : Inmsg) => m.seq == y.taken) with
    | none => s
    | some m =>
      let gone (s : State) : State :=
        let s := s.modConn n (fun y => { y with waiting := y.waiting.filter (fun (x : Inmsg) => x.seq != m.seq) })
        s.setOcc y.port y.pcp ((s.port y.port).held y.pcp - m.data.length)
      let next (s : State) : State := s.modConn n (fun y => { y with taken := (y.taken + 1) % 2 ^ 32 })
      if m.type = 1 then State.takeInOrder n k (next (gone s))
      else if m.type = 3 then State.takeInOrder n k ((next (gone s)).startUpdate n m.seq m.data)
      else
        let r := s.ingestWrite n 0 y.port (toLE 2 y.peerConn ++ toLE 4 m.seq) m.data
        if !r.2.isOpen n then r.2
        else if r.1 then State.takeInOrder n k ((next (gone r.2)).msgDone n m.seq 0 0 false)
        else (gone r.2).sendNack n m.seq 1

/-- Whether a SEQ was received before: it is earlier than CUM, done, waiting, or being applied. -/
def ConnSt.isDup (y : ConnSt) (seq : Nat) : Bool :=
  decide (2 ^ 31 ≤ seqAhead seq y.cum) || thas y.done seq || y.waiting.any (fun m => m.seq == seq && m.type != 1) || y.applying.contains seq

/-- The answer to a duplicate: an ACK at once, with its report when it failed (R453). -/
def State.ackDup (s : State) (n seq : Nat) (update : Bool) : State :=
  let y := s.conn n
  let s := match tget y.done seq with
    | some d => if update && d.fail != 0 then s.modConn n (fun y => { y with reports := y.reports ++ [(seq, d.fail, d.word)] }) else s
    | none => s
  s.sendAck n (ackBase y.cum seq)

/-- A TABLE_UPDATE or INGEST message, taken in SEQ order. -/
def State.rxOrdered (s : State) (n : Nat) (h : QHdr) (pay : List Byte) : State :=
  let y := s.conn n
  let d := seqAhead h.seq y.cum
  if y.isDup h.seq then s.ackDup n h.seq (h.typ == 3)
  else if 16384 ≤ d then s
  else if h.typ = 4 ∧ y.ingestLog2 = 0 then s.sendNack n h.seq 4
  else if (s.inst y.inst).state ≠ .enabled ∧ (h.typ = 4 ∨ (s.inst y.inst).state ≠ .frozen) then s.sendNack n h.seq 1
  else
    let pt := s.port y.port
    if s.roomFor y.port y.pcp pay.length ≠ 0 ∧ h.seq ≠ y.taken then s.sendNack n h.seq 1
    else
      let m : Inmsg := ⟨h.seq, h.typ, pay⟩
      let s := (s.modConn n (fun y => { y with waiting := y.waiting ++ [m] })).netBytes n pay.length false
      let s := s.setOcc y.port y.pcp (pt.held y.pcp + pay.length)
      State.takeInOrder n ((s.conn n).waiting.length) s

/-! ## Remote gathers (R456) -/

/-- A REMOTE_GATHER is admitted to execution, or refused. -/
def State.rxGather (s : State) (n : Nat) (h : QHdr) (pay : List Byte) : State :=
  let y := s.conn n
  let lh := listHdr pay
  let d := seqAhead h.seq y.cum
  let dup := y.isDup h.seq || y.waiting.any (fun m => m.seq == h.seq)
  if 16384 ≤ d ∧ d < 2 ^ 31 then s
  else if 262144 < lh.resBytes ∨ pay.length < 64 ∨ pay.length < listBytes lh.entries lh.bags ∨ !listOk pay then s.sendNack n h.seq 3
  else if (s.inst y.inst).state ≠ .enabled ∨ 64 ≤ s.gathers.length then s.sendNack n h.seq 1
  else
    let id := s.net.nextGather
    let tk : Ticket := { list := pay, res := 0, issueTime := s.now, checked := false, entries := 0, bags := 0, entriesDone := 0,
                         bagsDone := 0, flags := 0, anyLost := false, anyShape := false, waiting := [], done := false }
    let g : GatherSt := { tk := tk, buf := [], conn := n, seq := h.seq, nonce := y.exec, inst := y.inst }
    let s : State := { s with gathers := tput s.gathers id g, net := { s.net with nextGather := id + 1 } }
    let s := ((s.modConn n (fun y => { y with exec := (y.exec + 1) % 2 ^ 16 })).netBytes n pay.length true).sendList (.gather id) pay
    if dup then s.ackDup n h.seq false
    else
      let s := s.modConn n (fun y => { y with waiting := y.waiting ++ [(⟨h.seq, 1, []⟩ : Inmsg)] })
      (State.takeInOrder n ((s.conn n).waiting.length) s).msgDone n h.seq 0 0 false

/-! ## A frame of a quire TYPE -/

/-- A frame that arrives: counted; what it does is the row's, once the checks and the receive buffer let it by. -/
def State.rxFrame (s : State) (p : Nat) (l : List Byte) (typ : Nat) (f : State → Nat → QHdr → List Byte → State) : State :=
  if !s.up || !s.portExists p || !(s.port p).up then s
  else
    let c := s.classify p l
    if c.typ ≠ some typ then s
    else
      let s := s.portCount p 1
      let pri := framePri l
      match s.roomFor p pri l.length with
      | 0 => (match c with
        | .nack n h code => if typ = 6 then s else s.sendNack n (if typ = 1 ∨ typ = 3 ∨ typ = 4 then h.seq else 0) code
        | .quire n h pay => (f s n h pay).updSettle
        | _ => s)
      | k => s.portCount p k

/-- REMOTE_GATHER. -/
def execRemoteGather (p : Nat) (l : List Byte) (s : State) : Res := .next (s.rxFrame p l 1 State.rxGather)

/-- TABLE_UPDATE (R458). -/
def execTableUpdate (p : Nat) (l : List Byte) (s : State) : Res := .next (s.rxFrame p l 3 State.rxOrdered)

/-- INGEST (R459). -/
def execIngest (p : Nat) (l : List Byte) (s : State) : Res := .next (s.rxFrame p l 4 State.rxOrdered)

/-- GATHER_EXECUTION_DONE (R456): the result area of a gather leaves as fragments. -/
def execGatherExecutionDone (id : Nat) (s : State) : Res :=
  match tget s.gathers id with
  | none => .next s
  | some g =>
    if !g.tk.done then .next s
    else if !s.isOpen g.conn then .next { s with gathers := tdel s.gathers id }
    else if s.keyHeld g.conn then .next s
    else
      let m := (s.conn g.conn).maxPayload
      let total := (listHdr g.tk.list).resBytes
      let s := { s with gathers := tdel s.gathers id }
      .next (((List.range ((total + m - 1) / m)).foldl (fun (s : State) i =>
        let n := min m (total - i * m)
        (s.netBytes g.conn n true).sendQuire g.conn 2 0 g.seq (i * m) g.nonce 0 (mread g.buf (i * m) n) false) s).settle)

/-! ## Replies (R457) -/

/-- Whether EXEC a is later than b. -/
def execLater (a b : Nat) : Bool := a != b && decide ((a + 2 ^ 16 - b) % 2 ^ 16 < 2 ^ 15)

def State.modOut (s : State) (n seq : Nat) (f : Outst → Outst) : State :=
  s.modConn n (fun y => { y with outst := y.outst.map (fun (o : Outst) => if o.seq = seq ∧ o.type ≠ 0 then f o else o) })

/-- A fragment of a reply. -/
def State.rxReply (s : State) (n : Nat) (h : QHdr) (pay : List Byte) : State :=
  let y := s.conn n
  match y.outst.find? (fun (o : Outst) => o.seq == h.ref && o.type == 1 && o.outcome.isNone) with
  | none => s
  | some o =>
    let fresh := match o.exec with
      | none => true
      | some e => execLater h.exec e
    if !fresh ∧ o.exec ≠ some h.exec then s
    else
      let o := if fresh then { o with exec := some h.exec, frags := [], first := [] } else o
      if h.off % y.maxPayload ≠ 0 ∨ o.total ≤ h.off ∨ pay.length ≠ min y.maxPayload (o.total - h.off) then s
      else
        let s := s.netBytes n pay.length true
        let r : Option AccErr × State := if h.off = 0 then (none, s) else s.ctxWrite y.ctx (o.resultVA + h.off) pay
        match r.1 with
        | some .unitReset => s
        | some e => r.2.connFault n e
        | none =>
          let o := { o with frags := o.frags.insert h.off, first := if h.off = 0 then pay else o.first }
          let s := r.2.modOut n h.ref (fun _ => o)
          if o.frags.length < (o.total + y.maxPayload - 1) / y.maxPayload then s
          else
            let w := s.ctxWrite y.ctx o.resultVA o.first
            match w.1 with
            | some .unitReset => s.modOut n h.ref (fun o => { o with frags := o.frags.filter (fun k => k != 0) })
            | some e => w.2.connFault n e
            | none => w.2.sendDone n h.ref 0 0

/-- GATHER_REPLY. -/
def execGatherReply (p : Nat) (l : List Byte) (s : State) : Res := .next (s.rxFrame p l 2 State.rxReply)

/-! ## ACK and NACK (R454, R455) -/

/-- What an ACK acknowledges. -/
def State.rxAck (s : State) (n : Nat) (h : QHdr) (pay : List Byte) : State :=
  let k := field pay 256 2
  if pay.length ≠ 264 + 16 * k ∨ 32 < k then s
  else
    let map := field pay 0 256
    let reports : List (Nat × Nat × Nat) := (List.range k).map (fun i =>
      (field pay (264 + 16 * i) 4, field pay (268 + 16 * i) 2, field pay (272 + 16 * i) 8))
    let hit (seq : Nat) : Bool :=
      (decide (0 < seqAhead h.ref seq) && decide (seqAhead h.ref seq < 2 ^ 31))
      || (decide (seqAhead seq (h.ref + 1 + h.off) < 2048) && bit map (seqAhead seq (h.ref + 1 + h.off)))
    let s := s.modConn n (fun y => { y with outst := y.outst.map (fun (o : Outst) =>
      if o.type = 0 ∨ o.outcome.isSome ∨ !hit o.seq then o
      else if o.type = 1 then { o with acked := true }
      else
        let r := reports.find? (fun r => r.1 == o.seq)
        { o with acked := true, outcome := some ((r.map (·.2.1)).getD 0, (r.map (·.2.2)).getD 0, 0) }) })
    s.retireAll n

/-- ACK. -/
def execAck (p : Nat) (l : List Byte) (s : State) : Res := .next (s.rxFrame p l 5 State.rxAck)

/-- NACK: NOT_READY leaves the message to its RTO; any other code breaks the connection. -/
def execNack (p : Nat) (l : List Byte) (s : State) : Res :=
  .next (s.rxFrame p l 6 (fun s n h _ => if within 2 5 h.code then s.breakConn n h.code else s))

/-! ## Raw frames (R460) -/

/-- The first filter that takes a frame. -/
def State.rawMatch (s : State) (p : Nat) (l : List Byte) : Option (Nat × RawFilter) :=
  let tagged := beField l 12 2 == 0x8100
  let vid := if tagged then beField l 14 2 % 4096 else 0xFFF
  let et := if tagged then beField l 16 2 else beField l 12 2
  if s.exclusive then none
  else s.net.filters.find? (fun f => f.2.port == p && f.2.mac == beField l 0 6 && f.2.etherType == et && f.2.vid == vid)

/-- RAW_FRAME_INGEST: a frame that is not taken as quire traffic. -/
def execRawFrameIngest (p : Nat) (l : List Byte) (s : State) : Res :=
  if !s.up || !s.portExists p || !(s.port p).up then .next s
  else
    let go (s : State) : State := s.portCount p 1
    match s.classify p l with
    | .mac => .next ((go s).portCount p 3)
    | .silent => .next ((go s).portCount p 4)
    | .control => .next s
    | .nack n h code => if h.typ = 0 ∨ 6 < h.typ then .next ((go s).sendNack n 0 code) else .next s
    | .quire _ _ _ => .next s
    | .other =>
      match s.rawMatch p l with
      | none => .next ((go s).portCount p 4)
      | some (k, f) =>
        match s.roomFor p (framePri l) l.length with
        | 0 =>
          let s := go s
          let data := l.take (l.length - 4)
          let i := (s.conn f.conn).inst
          if !s.isOpen f.conn || (s.inst i).state != .enabled then .next (s.portCount p 7)
          else
            let r := s.ingestWrite f.conn 1 p (toLE 2 k) data
            .next ((if r.1 then r.2.account none i { Account.zero with net := data.length } else r.2.portCount p 7).settle)
        | n => .next ((go s).portCount p n)

/-! ## Priority flow control (R444) -/

/-- Ticks that a quanta value of a peer lasts: 512 bit times each. -/
def State.quantaTicks (s : State) (p q : Nat) : Nat :=
  let k := if (tget s.net.mode (p / 2)).getD 0 = 1 then 128 else 64
  (q * k + 999) / 1000

/-- PFC_FRAME. -/
def execPfcFrame (p : Nat) (l : List Byte) (s : State) : Res :=
  if !s.up || !s.portExists p || !(s.port p).up || s.classify p l != .control || beField l 14 2 != 0x0101 then .next s
  else
    let named := (List.range 8).filter (fun k => bit (beField l 16 2) k)
    let s := named.foldl (fun (s : State) k =>
      let q := beField l (18 + 2 * k) 2
      s.modPort p (fun y => { y with paused := if q = 0 then tdel y.paused k else tput y.paused k (s.now + s.quantaTicks p q) })) (s.portCount p 1)
    .next (s.drainTx p)

/-- PFC_QUANTA_EXPIRY. -/
def execPfcQuantaExpiry (p pri : Nat) (s : State) : Res :=
  match tget (s.port p).paused pri with
  | some t => if t ≤ s.now then .next ((s.modPort p (fun y => { y with paused := tdel y.paused pri })).drainTx p) else .next s
  | none => .next s

/-- PFC_REFRESH: the pause frame is repeated every 10 µs. -/
def execPfcRefresh (p : Nat) (s : State) : Res :=
  let y := s.port p
  if y.xoffed.isEmpty ∨ s.now < y.pfcTick + 1000 then .next s
  else
    let s := s.modPort p (fun y => { y with pfcTick := s.now })
    .next (y.xoffed.foldl (fun s k => if y.xon * 16384 < y.held k then s.sendPfc p k 0xFFFF else s) s)

/-- PFC_XON. -/
def execPfcXon (p pri : Nat) (s : State) : Res :=
  let y := s.port p
  if y.xoffed.contains pri && decide (y.held pri < y.xon * 16384) then
    .next ((s.modPort p (fun y => { y with xoffed := y.xoffed.filter (fun k => k != pri) })).sendPfc p pri 0)
  else .next s

/-! ## Ports (R442) -/

/-- PORT_LINK_UP. -/
def execPortLinkUp (p : Nat) (s : State) : Res :=
  if s.up && s.portExists p then .next (s.modPort p (fun y => { y with up := true })) else .next s

/-- PORT_LINK_DOWN: frames queued on it are discarded. -/
def execPortLinkDown (p : Nat) (s : State) : Res :=
  if 8 ≤ p then .next s else .next (s.modPort p (fun y => { y with up := false, txq := [], paused := [], xoffed := [] }))

end Sys2Proof.Machine
end

