-- ==== Sys2Proof/Machine/NetTx.lean ====
section
/-! DEFINITION. Sending from the send rings, ACKs and timeouts, opening and closing connections (13_network.md R449 to
R454, R461). -/

namespace Sys2Proof.Machine

/-! ## Entries of the send ring (R451, R452) -/

/-- Reading an entry failed: poison breaks the connection and keeps the context; a stack in reset is waited for. -/
def State.sendReadFault (s : State) (n : Nat) (e : AccErr) : State :=
  match e with
  | .unitReset => s
  | .fault 0x2004 _ _ => s.breakConn n 6
  | e => s.connFault n e

/-- An entry that breaks the format: the connection stops and its context is lost. -/
def State.sendFormat (s : State) (n : Nat) : State :=
  let y := s.conn n
  (s.breakConn n 3).loseContext y.ctx { faultOf 0x3003 with unitType := 0x0A, logical := y.port, phys := n, addr := y.sendVA, info0 := n } none

/-- Whether a descriptor is one of Table 13-7, with `room` bytes to the end of the ring and `left` published. -/
def descOk (l : List Byte) (maxPayload room left : Nat) : Bool :=
  let t := field l 0 1
  let pay := field l 2 2
  let resv := field l 1 1 == 0 && field l 4 4 == 0 && field l 0x2B 21 == 0
  if t = 0 then resv && pay == 0 && decide (room ≤ left)
  else
    resv && (t == 1 || t == 3 || t == 4) && decide (64 ≤ pay) && decide (pay ≤ maxPayload) && pay % 64 == 0
    && (if t = 1 then field l 8 8 % 64 == 0 else field l 8 8 == 0)
    && field l 0x10 8 % 8 == 0 && decide (field l 0x18 8 < 2 ^ 63) && decide (64 + pay ≤ left) && decide (64 + pay ≤ room)

/-- Messages outstanding. -/
def ConnSt.inFlight (y : ConnSt) : Nat := (y.outst.filter (fun (o : Outst) => o.type != 0 && o.outcome.isNone)).length

def Outst.pad (pos len : Nat) : Outst :=
  { seq := 0, pos := pos, len := len, type := 0, payLen := 0, resultVA := 0, doneVA := 0, doneValue := 0, tries := 0, sent := 0,
    acked := true, outcome := some (0, 0, 0), fail := 0, word := 0, exec := none, frags := [], first := [], total := 0 }

/-- Send the entries that are published, in ring order, while the window allows. -/
def State.sendEntries (n : Nat) : Nat → State → State
  | 0, s => s
  | k + 1, s =>
    let y := s.conn n
    if !s.isOpen n || decide (y.prod ≤ y.next) || decide (y.window ≤ y.inFlight) || s.keyHeld n then s
    else
      let size := 2 ^ y.sendLog2
      let room := size - y.next % size
      let va := y.sendVA + y.next % size
      match s.ctxRead y.ctx va 64 with
      | (.error e, t) => t.sendReadFault n e
      | (.ok l, s) =>
        if !descOk l y.maxPayload room (y.prod - y.next) then s.sendFormat n
        else if field l 0 1 = 0 then
          State.sendEntries n k ((s.modConn n (fun y => { y with next := y.next + room, outst := y.outst ++ [Outst.pad y.next room] })).retireAll n)
        else
          let pay := field l 2 2
          match s.ctxRead y.ctx (va + 64) pay with
          | (.error e, t) => t.sendReadFault n e
          | (.ok d, s) =>
            let t := field l 0 1
            let total := (listHdr d).resBytes
            if t = 1 ∧ 262144 < total then s.sendFormat n
            else
              let o : Outst := { seq := y.seq, pos := y.next, len := 64 + pay, type := t, payLen := pay, resultVA := field l 8 8,
                                 doneVA := field l 0x10 8, doneValue := field l 0x18 8, tries := 1, sent := s.now, acked := false,
                                 outcome := none, fail := 0, word := 0, exec := none, frags := [], first := [], total := total }
              let s := s.modConn n (fun y => { y with next := y.next + 64 + pay, seq := (y.seq + 1) % 2 ^ 32, outst := y.outst ++ [o] })
              State.sendEntries n k ((s.netBytes n pay true).sendQuire n t y.seq 0 0 0 0 d false)

/-- SEND_RING_POLL: PROD is read and what it publishes is sent; a frozen instance's rings are not read (R463). -/
def execSendRingPoll (n : Nat) (s : State) : Res :=
  let y := s.conn n
  if !s.up || !s.isOpen n || (s.inst y.inst).state != .enabled then .next s
  else
    match s.ctxRead y.ctx y.sendCtrl 8 with
    | (.error e, t) => .next (t.sendReadFault n e).settle
    | (.ok l, s) =>
      let prod := leNat l
      if 2 ^ y.sendLog2 < (prod + 2 ^ 64 - y.cons) % 2 ^ 64 ∨ prod < y.next then .next (s.sendFormat n).settle
      else
        let s := s.modConn n (fun y => { y with prod := prod, polled := s.now })
        .next (State.sendEntries n ((prod - y.next) / 64 + 1) s).settle

/-! ## Retransmission (R454) -/

/-- Send an outstanding message again, or break the connection when it was sent RETRY_MAX + 1 times. -/
def State.resend (s : State) (n : Nat) (o : Outst) : State :=
  let y := s.conn n
  if y.retryMax + 1 ≤ o.tries then s.breakConn n 1
  else if s.keyHeld n then s
  else
    match s.ctxRead y.ctx (y.sendVA + o.pos % 2 ^ y.sendLog2 + 64) o.payLen with
    | (.error e, t) => t.sendReadFault n e
    | (.ok d, s) =>
      (s.modOut n o.seq (fun o => { o with tries := o.tries + 1, sent := s.now })).sendQuire n o.type o.seq 0 0 0 0 d false

def State.waitingOut (s : State) (n seq : Nat) : Option Outst :=
  if !s.up || !s.isOpen n then none
  else (s.conn n).outst.find? (fun (o : Outst) => o.seq == seq && o.type != 0 && o.outcome.isNone)

/-- RTO_EXPIRY: a message not acknowledged RTO after its last transmission. -/
def execRtoExpiry (n seq : Nat) (s : State) : Res :=
  match s.waitingOut n seq with
  | none => .next s
  | some o => if !o.acked ∧ o.sent + (s.conn n).rto ≤ s.now then .next (s.resend n o).settle else .next s

/-- GATHER_REPLY_TIMEOUT: a reply incomplete 4 × RTO after the last transmission. -/
def execGatherReplyTimeout (n seq : Nat) (s : State) : Res :=
  match s.waitingOut n seq with
  | none => .next s
  | some o => if o.type = 1 ∧ o.sent + 4 * (s.conn n).rto ≤ s.now then .next (s.resend n o).settle else .next s

/-! ## ACKs and the ingest ring's CONS -/

/-- ACK_SEND: the ACKs that are due. -/
def execAckSend (n : Nat) (s : State) : Res :=
  let y := s.conn n
  if !s.up || !s.isOpen n || y.ackBases.isEmpty || s.keyHeld n then .next s
  else
    let s := y.ackBases.foldl (fun s b => s.sendAck n b) (s.modConn n (fun y => { y with ackBases := [], ackDue := none }))
    .next (s.modConn n (fun y => if y.reports.isEmpty then y else y.wantAck 0 s.now))

/-- INGEST_CONS_POLL. -/
def execIngestConsPoll (n : Nat) (s : State) : Res :=
  let y := s.conn n
  if !s.up || !s.isOpen n || y.ingestLog2 == 0 then .next s else .next (s.readIngestCons n).settle

/-! ## Opening and closing (R449, R450, R461) -/

/-- Whether a range of a context is mapped readable and writable on device pages without TABLE. -/
def CtxSt.plainRange (x : CtxSt) (va n : Nat) : Bool :=
  (rangePieces va n).all (fun p => match x.leafAt p.1 with
    | some (l, _) => l.r && l.w && !l.host && !l.table
    | none => false)

/-- Whether a key slot can serve an ENC connection of an instance. -/
def State.quireKey (s : State) (i n : Nat) : Bool :=
  let k := s.kslot n
  s.assignable n && k.state == .ready && k.attr == 2 && k.owner == some i

/-- The checks of OPEN. -/
def State.openOk (s : State) (n : Nat) : Bool :=
  let y := s.conn n
  match tget s.ctxs y.ctx with
  | none => false
  | some x =>
    y.state == .disabled && (s.inst y.inst).state == .enabled && x.inst == y.inst && x.state != .lost && s.portExists y.port
    && x.plainRange y.sendVA (2 ^ y.sendLog2) && x.plainRange y.sendCtrl 64
    && (y.ingestLog2 == 0 || (x.plainRange y.ingestVA (2 ^ y.ingestLog2) && x.plainRange y.ingestCtrl 64))
    && x.plainRange y.rxStateVA 262144
    && decide (118 + y.maxPayload + 16 ≤ (s.port y.port).maxFrame)
    && (y.enc || !(s.exclusive || bit s.sec.prot.keyPolicy 2))
    && (!y.enc || (s.quireKey y.inst y.txKey && s.quireKey y.inst y.rxKey))
    && decide (y.sendVA % 2 ^ y.sendLog2 = 0) && s.formeUp (stackOf ((x.leafAt y.sendCtrl).map (·.2)|>.getD 0))

/-- OPEN: numbers and windows start afresh, the receive state is zeroed, CONS is set to PROD. -/
def State.openConn (s : State) (n : Nat) : State :=
  let y := s.conn n
  let s := if y.enc then s.modSlot y.txKey (fun k => { k with opens := k.opens + 1 }) else s
  let nonce := if y.enc then (s.kslot y.txKey).opens else 0
  let rd (s : State) (va : Nat) : Nat × State := match s.ctxRead y.ctx va 8 with
    | (.ok l, s) => (leNat l, s)
    | (.error _, s) => (0, s)
  let r := s.ctxWrite y.ctx y.rxStateVA (List.replicate 262144 0)
  let prod := rd r.2 y.sendCtrl
  let r2 := prod.2.ctxWrite y.ctx (y.sendCtrl + 8) (toLE 8 prod.1)
  let ip := if y.ingestLog2 = 0 then (0, r2.2) else rd r2.2 y.ingestCtrl
  let ic := if y.ingestLog2 = 0 then (0, ip.2) else rd ip.2 (y.ingestCtrl + 8)
  ic.2.modConn n (fun y => { y with
    state := .opened, seq := 0, frame := 0, nonce := nonce, prod := prod.1, next := prod.1, cons := prod.1, outst := [], polled := s.now,
    cum := 0, done := [], waiting := [], applying := [], taken := 0, exec := 0, ackBases := [], ackDue := none,
    reports := [], inProd := ip.1, inCons := ic.1 })

/-- DISABLED: closed at once, with the effects of breaking it. -/
def State.closeConn (s : State) (n : Nat) : State :=
  match (s.conn n).state with
  | .opened => s.stopConn n .disabled
  | _ => s.modConn n (fun y => { y with state := .disabled })

/-- R462: a connection whose TX_KEY committed takes a new NONCE and restarts FRAME. -/
def State.renonce (s : State) (slot : Nat) : State :=
  (s.net.conns.filter (fun p => p.2.state == .opened && p.2.enc && p.2.txKey == slot)).foldl (fun s p =>
    let s := s.modSlot slot (fun k => { k with opens := k.opens + 1 })
    s.modConn p.1 (fun y => { y with nonce := (s.kslot slot).opens, frame := 0 })) s

end Sys2Proof.Machine
end

