-- ==== Sys2Proof/Machine/Keys.lean ====
section
/-! DEFINITION. The KEY subops, the commit of a pending slot, key-cell failures, the tamper line and the lock of the
protection set-up (15_security.md R516, R520 to R522, R527 to R538, R545; 17_boundary.md R605). -/

namespace Sys2Proof.Machine

/-! ## What is measured and attested (R543, R545) -/

/-- The protection set-up registers in offset order (Table 15-2). -/
def ProtRegs.bytes (p : ProtRegs) : List Byte :=
  toLE 4 (b2n p.lock * 2 ^ 31 + p.stage) ++ toLE 4 p.frPolicy ++ toLE 4 p.debugCtrl ++ toLE 4 p.keyPolicy
    ++ (List.range 64).flatMap (fun k => toLE 4 ((tget p.limits k).getD 0xFFFFFFFF))

def State.debugOn (s : State) : Bool := bit s.sec.prot.debugCtrl 31
/-- Measurement block 5. -/
def State.debugByte (s : State) : Nat :=
  if !s.debugOn then 0
  else if s.sec.prot.debugCtrl % 4 = 0 then 1 else Config.debugByte (bit s.sec.prot.debugCtrl 1) (bit s.sec.prot.debugCtrl 0)

/-- The measurement blocks (Table 15-15). -/
def State.measBlocks (s : State) : List (List Byte) :=
  let signers := (List.range 4).flatMap (fun k => toBE 48 (Config.signerDigest k))
  let revoked := toLE 1 (((List.range 4).map (fun k => if s.sec.revoked.contains k then 2 ^ k else 0)).sum)
  [toBE 48 Config.romDigest, toBE 48 s.sec.fw.fs1.meas, toBE 48 s.sec.fw.main.meas, toBE 48 (sha384 s.sec.prot.bytes),
   toLE 1 s.debugByte, toLE 1 s.profile ++ toLE 1 s.domains, toLE 1 s.sec.arb, toBE 48 (sha384 (signers ++ revoked))]

/-- A signature by slot 0 over bytes: r ‖ s. -/
def State.signDik (s : State) (l : List Byte) : List Byte × State :=
  (toBE 96 (ecdsaSign (s.kslot 0).key (sha384 l) (Config.ecdsaNonce s.fresh)), { s with fresh := s.fresh + 1 })

/-- The attestation statement of a slot (Table 15-14). -/
def State.keyStatement (s : State) (n : Nat) (nonce : List Byte) : List Byte × State :=
  let k := s.kslot n
  let l := toLE 4 0x4B415454 ++ toLE 2 0x0100 ++ toLE 1 s.debugByte ++ [0] ++ toLE 8 Config.serial ++ nonce.take 32
    ++ s.slotBytes n true ++ toBE 96 (if k.typ = 2 then ecPublic k.key else 0)
    ++ toBE 48 (sha384 (s.measBlocks.flatMap (fun b => b)))
  let r := s.signDik l
  (l ++ r.1, r.2)

/-! ## The KEY command (R535, R536) -/

/-- A slot that some row of Table 15-6 assigns. -/
def State.slotUsed (s : State) (n : Nat) : Bool := (decide (n < 11) || decide (16 ≤ n)) && decide (n < 256) && !s.sec.retiredSlots.contains n

/-- Why a slot that must hold a key may not be used. -/
def State.needReady (s : State) (n : Nat) : Option (Nat × Nat) :=
  if !s.slotUsed n then some (0x6B, n)
  else match (s.kslot n).state with
    | .ready => none
    | .pending => some (0x68, n)
    | .destroyed => some (0x69, n)
    | .empty => some (0x6B, n)

/-- Why a slot that must be EMPTY and assignable may not be used. -/
def State.needEmpty (s : State) (n : Nat) : Option (Nat × Nat) :=
  if !s.assignable n then some (0x6B, n)
  else match (s.kslot n).state with
    | .empty => none
    | .pending => some (0x68, n)
    | .destroyed => some (0x69, n)
    | .ready => some (0x6B, n)

/-- Run a KEY subop: ARG in range, the buffer large enough, the block not keyless. -/
def State.runKey (s : State) (q sub bytes : Nat) (argOk : Nat → Bool) (f : State → QueueSt → Cmd → State) : State :=
  s.runIf q 0x44 (subIs sub) (fun s x c =>
    if !argOk (cmdArg c) then s.refuse q c.no 0x10 0x14
    else if cmdLen c < bytes then s.refuse q c.no 0x10 0x20
    else if s.sec.keyless then s.refuse q c.no 0x6F 0
    else f s x c)

/-- The subop's result goes to its buffer. -/
def State.keyOut (s : State) (q : Nat) (x : QueueSt) (c : Cmd) (l : List Byte) : State :=
  ((s.kernelWrite x.inst (cmdBuf c) l).2.tagInst s x.inst q c.no).succeed q c.no l.length

/-- KEY_INFO. -/
def execKeyInfo (q : Nat) (s : State) : Res :=
  .next (s.runKey q 0 64 (fun a => a == 0) (fun s x c => s.keyOut q x c (s.slotBytes (cmdObj c) true)))

/-- GEN_PAIR. -/
def execGenPair (q : Nat) (s : State) : Res :=
  .next (s.runKey q 1 96 (fun a => decide (a < 256)) (fun s x c =>
    let n := cmdObj c
    let owner := cmdArg c
    match s.needEmpty n with
    | some (st, d) => s.refuse q c.no st d
    | none =>
      if (s.inst owner).state = .off ∨ (s.inst owner).state = .resetting then s.refuse q c.no 0x17 0x14
      else if !bit s.sec.prot.keyPolicy 1 || decide (s.maxSlots < s.ownedSlots owner + 1) then s.refuse q c.no 0x6C 0
      else
        let r := s.draw 384
        let d := r.1 % (p384Order - 1) + 1
        (r.2.fillSlot n 2 2 2 (some owner) d none).keyOut q x c (toBE 96 (ecPublic d))))

/-- KEY_ATTEST (R545). -/
def execKeyAttest (q : Nat) (s : State) : Res :=
  .next (s.runKey q 2 352 (fun a => a == 0) (fun s x c =>
    match s.needReady (cmdObj c) with
    | some (st, d) => s.refuse q c.no st d
    | none => s.withBuf q x c (cmdBuf c) 32 (fun s nonce =>
        let r := s.keyStatement (cmdObj c) nonce
        r.2.keyOut q x c r.1)))

/-- AGREE (R537). -/
def execAgree (q : Nat) (s : State) : Res :=
  .next (s.runKey q 3 96 (fun a => decide (a < 65536)) (fun s x c =>
    let n := cmdObj c
    let tx := cmdArg c % 256
    let rx := cmdArg c / 256
    let k := s.kslot n
    let bad := (s.needReady n <|> (if k.attr = 2 ∧ k.typ = 2 then none else some (0x6A, n))) <|> s.needEmpty tx
      <|> s.needEmpty rx <|> (if tx = rx then some (0x6B, rx) else none)
      <|> (if bit s.sec.prot.keyPolicy 1 && decide (s.ownedSlots (k.owner.getD 0) + 2 ≤ s.maxSlots) then none else some (0x6C, 0))
    match bad with
    | some (st, d) => s.refuse q c.no st d
    | none => s.withBuf q x c (cmdBuf c) 96 (fun s l =>
        let peer := beNat l
        let own := ecPublic k.key
        if !ecValid peer || peer == own then s.refuse q c.no 0x6E 0
        else
          let z := ecShared k.key peer
          let ctx := toBE 96 (min own peer) ++ toBE 96 (max own peer)
          let lh := kdf (toBE 48 z) "OTM-QUIRE-LH" ctx 256
          let hl := kdf (toBE 48 z) "OTM-QUIRE-HL" ctx 256
          let low := decide (own < peer)
          let s := s.fillSlot tx 2 1 4 k.owner (if low then lh else hl) none
          (s.fillSlot rx 2 1 4 k.owner (if low then hl else lh) none).succeed q c.no 0)))

/-- R533: new content for a slot, or its erasure: it is PENDING until its uses end; streams that use it close after
their messages in slots (R440). -/
def State.pendSlot (s : State) (n : Nat) (p : KPend) : State :=
  (s.modSlot n (fun k => { k with state := .pending, pend := some p })).closeStreamsOf n

/-- ERASE. -/
def execErase (q : Nat) (s : State) : Res :=
  .next (s.runKey q 4 0 (fun a => a == 0) (fun s _ c =>
    let n := cmdObj c
    if !s.assignable n then s.refuse q c.no 0x6B n
    else match (s.kslot n).state with
      | .empty => s.refuse q c.no 0x6B n
      | .pending => s.refuse q c.no 0x68 n
      | .destroyed => (s.modSlot n (fun k => { KSlot.zero with gen := k.gen })).succeed q c.no 0
      | .ready => (s.begin_ q c.no).pendSlot n ⟨0, 0, none, 0, true, .cmd q c.no⟩))

/-- Whether a slot is named by an open stream or an open connection. -/
def State.slotNamed (s : State) (n : Nat) : Bool :=
  s.host.bce.pairs.any (fun p => p.2.keyIn == n || p.2.keyOut == n)
  || s.net.conns.any (fun p => p.2.state == .opened && p.2.enc && (p.2.txKey == n || p.2.rxKey == n))

/-- ASSIGN. -/
def execAssign (q : Nat) (s : State) : Res :=
  .next (s.runKey q 5 0 (fun a => decide (a < 256)) (fun s _ c =>
    let n := cmdObj c
    match (if s.assignable n then s.needReady n else some (0x6B, n)) with
    | some (st, d) => s.refuse q c.no st d
    | none =>
      if (s.kslot n).uses ≠ 0 ∨ s.slotNamed n then s.refuse q c.no 0x6D n
      else if (s.inst (cmdArg c)).state = .off then s.refuse q c.no 0x17 0x14
      else (s.modSlot n (fun k => { k with owner := some (cmdArg c) })).succeed q c.no 0))

/-- R544: the keys of a stream pair go to the two lowest EMPTY assignable slots; none when there are not two. -/
def State.deriveBce (s : State) (i p sid secret : Nat) : Option (Nat × Nat × State) :=
  match s.freeKeySlots with
  | a :: b :: _ =>
    let ctx := toLE 4 sid ++ toLE 1 p
    let s := s.fillSlot a 1 1 3 (some i) (kdf (toBE 48 secret) "OTM-BCE-IN" ctx 256) (some (i, p))
    some (a, b, s.fillSlot b 1 1 3 (some i) (kdf (toBE 48 secret) "OTM-BCE-OUT" ctx 256) (some (i, p)))
  | _ => none

/-- SESSION_KEYS. -/
def execSessionKeys (q : Nat) (s : State) : Res :=
  .next (s.runKey q 6 0 (fun a => within 1 7 a) (fun s _ c =>
    let i := cmdObj c
    match ((tget s.sec.spdm i).bind (fun x => x.session)) with
    | none => s.refuse q c.no 0x6F 0
    | some (sid, secret, _) =>
      if s.maxSlots < s.ownedSlots i + 2 then s.refuse q c.no 0x6C 0
      else match s.deriveBce i (cmdArg c) sid secret with
        | none => s.refuse q c.no 0x6B 0
        | some (a, b, s) => s.succeed q c.no (b * 256 + a)))

/-! ## The commit (R533) -/

/-- KEY_SLOT_COMMIT: the uses of a pending slot have ended. -/
def execKeySlotCommit (n : Nat) (s : State) : Res :=
  let k := s.kslot n
  match k.pend with
  | none => .next s
  | some p =>
    if k.state ≠ .pending ∨ k.uses ≠ 0 then .next s
    else if p.erase then
      .next (State.answer (s.modSlot n (fun k => { KSlot.zero with gen := k.gen })) p.waiter 0 0 0).settle
    else
      let s := (s.fillSlot n p.attr 1 p.origin p.owner p.key none).renonce n
      .next (s.answer p.waiter 0 0 0).settle

/-! ## Losing keys (R520 to R522, R531) -/

/-- Who waits for a pending slot is answered KEY_DESTROYED. -/
def State.dropPend (s : State) (n : Nat) (k : KSlot) : State :=
  match k.pend with
  | some p => s.answer p.waiter 0x69 n 6
  | none => s

/-- The work that uses an assignable slot or a session slot ends with KEY_DESTROYED. -/
def State.slotLost (s : State) (n : Nat) : State :=
  let uses (k : Nat) : Bool := match s.pair k with | some p => p.keyIn == n || p.keyOut == n | none => false
  let s := s.bceDropPairs uses true
  let s := (s.net.conns.filter (fun p => p.2.state == .opened && p.2.enc && (p.2.txKey == n || p.2.rxKey == n))).foldl
    (fun s p => s.breakConn p.1 8) s
  { s with mgmt := { s.mgmt with sessions := tkeep s.mgmt.sessions (fun _ x => x.slot != n) } }

/-- KEY_CELL_FAILURE of slot n. -/
def execKeyCellFailure (n : Nat) (s : State) : Res :=
  if decide (256 ≤ n) || s.sec.retiredSlots.contains n then .next s
  else
    let k := s.kslot n
    let derived := k.state == .ready && (k.origin == 1 || k.origin == 6)
    let spare := decide (0 < s.sec.spareCells)
    let lost := !(derived && spare) && k.state != .empty
    let s := if lost then (s.slotLost n).dropPend n k else s
    let s := { s with sec := { s.sec with spareCells := s.sec.spareCells - 1,
                                          retiredSlots := if spare then s.sec.retiredSlots else s.sec.retiredSlots ++ [n] } }
    let s := if !spare then { s with sec := { s.sec with slots := tdel s.sec.slots n } }
      else if lost then s.modSlot n (fun k => { k with state := .destroyed, pend := none, key := 0, uses := 0 }) else s
    .next (if spare && s.sec.spareCells == 0 then s.oversLow 0x0F 0 6 0 0 else s).settle

/-- A galley image load under verification ends with KEY_DESTROYED; its context is kept (R521). -/
def State.loadsDestroyed (s : State) : State :=
  (s.steps.filter (fun p => p.2.galleys.any (fun g => (s.galley g).loading && (s.galley g).owner == some p.1))).foldl (fun s p =>
    (s.finish p.2.queue p.2.no 0x69 0).endStep p.1 true) s

/-- Whether VDD_AON is up and out of reset. -/
def State.powered (s : State) : Bool :=
  match s.bnd.power with
  | .inReset | .noClock => false
  | .retry .cold _ => false
  | _ => true

/-- TAMPER_N: the line is asserted. -/
def execTamperN (s : State) : Res :=
  if s.bnd.tamperLow then .next s
  else
    let s := { s with bnd := { s.bnd with tamperLow := true } }
    let s := (s.bceDrop (fun _ => true) true).loadsDestroyed
    let s := (s.net.conns.filter (fun p => p.2.state == .opened && p.2.enc)).foldl (fun s p => s.breakConn p.1 8) s
    let s := s.sec.slots.foldl (fun s p => s.dropPend p.1 p.2) { s with mgmt := { s.mgmt with sessions := [] } }
    let s := { s with sec := { s.sec with
      slots := [], zone := none, root := 0, keyless := true, tamperLatch := true, tamperCount := (s.sec.tamperCount + 1) % 65536,
      spdm := tmap s.sec.spdm (fun _ (x : SpdmSt) => { x with session := none, updates := 0 }) } }
    .next (if s.powered then s.fault { faultOf 0xC003 with unitType := 0x0F } [] else s).settle

/-- TAMPER_N_DEASSERT: a cold start that waits at its check proceeds (R605). -/
def execTamperNDeassert (s : State) : Res :=
  let s := { s with bnd := { s.bnd with tamperLow := false } }
  if s.bnd.power = .tamperWait then .next s.coldBoot else .next s

/-! ## The lock (R516) -/

/-- PROT_LOCK: FS1 writes 1 to PROT_LOCK. -/
def execProtLock (s : State) : Res :=
  if s.powered && decide (1 ≤ s.sec.prot.stage) then
    .next { s with sec := { s.sec with prot := { s.sec.prot with lock := true } } }
  else .next s

end Sys2Proof.Machine
end

