-- ==== Sys2Proof/Machine/Spdm.lean ====
section
/-! DEFINITION. The SPDM responder of each function's DOE mailbox (15_security.md R522, R541 to R544). A request is given
as the bytes of its SPDM message; inside a session, as they are once the Secured message is open. -/

namespace Sys2Proof.Machine

def State.spdm (s : State) (i : Nat) : SpdmSt := (tget s.sec.spdm i).getD SpdmSt.zero
def State.modSpdm (s : State) (i : Nat) (f : SpdmSt → SpdmSt) : State :=
  { s with sec := { s.sec with spdm := tput s.sec.spdm i (f (s.spdm i)) } }

/-- A response: its code and what it reports. -/
def State.spdmSend (s : State) (i code : Nat) (facts : List Byte) : State :=
  { s with out := s.out ++ [.doe i (Config.spdmEncode i code facts)] }

/-- ERROR (0x7F), with the codes that the standard gives: 0x01 InvalidRequest, 0x04 UnexpectedRequest, 0x05 Unspecified, 0x07
UnsupportedRequest, 0x0A SessionLimitExceeded, 0x0B SessionRequired, 0x41 VersionMismatch (PRESUMED). -/
def State.spdmError (s : State) (i code : Nat) : State := s.spdmSend i 0x7F (toLE 1 code)

/-- Whether a function's mailbox is served. -/
def State.doeUp (s : State) (i : Nat) : Bool := s.up && s.linkUp && s.fnExists i && !(s.inst i).d3

/-- A request that needs keys and negotiated algorithms. -/
def State.spdmRun (s : State) (i : Nat) (f : State → State) : State :=
  if !s.doeUp i then s
  else if s.sec.keyless then s.spdmError i 0x05
  else if !(s.spdm i).algs then s.spdmError i 0x04
  else f s

/-- GET_VERSION: 1.2 and 1.3. -/
def execGetVersion (i : Nat) (s : State) : Res :=
  if s.doeUp i then
    .next ((s.modSpdm i (fun x => { x with version := 0, caps := false, algs := false })).spdmSend i 0x04 [0x12, 0x13])
  else .next s

/-- GET_CAPABILITIES, at version byte v. -/
def execGetCapabilities (i v : Nat) (s : State) : Res :=
  if !s.doeUp i then .next s
  else if v ≠ 0x12 ∧ v ≠ 0x13 then .next (s.spdmError i 0x41)
  else .next ((s.modSpdm i (fun x => { x with version := v, caps := true, algs := false })).spdmSend i 0x61 (toLE 1 v))

/-- NEGOTIATE_ALGORITHMS. -/
def execNegotiateAlgorithms (i : Nat) (s : State) : Res :=
  if !s.doeUp i then .next s
  else if !(s.spdm i).caps then .next (s.spdmError i 0x04)
  else .next ((s.modSpdm i (fun x => { x with algs := true })).spdmSend i 0x63 [])

/-! ## Certificates (R542) -/

def certAddr (k : Nat) : Nat := 0x01F40000 + k * 0x20000

/-- The chain in a certificate slot: it begins with its length (PRESUMED); none when the slot is erased. -/
def State.certChain (s : State) (k : Nat) : List Byte :=
  let n := leNat (s.flashRead (certAddr k) 2)
  if n < 4 ∨ n = 0xFFFF then [] else s.flashRead (certAddr k) n

/-- The current DIK's public key. -/
def State.dikPublic (s : State) : Nat := ecPublic (s.kslot 0).key

/-- Certificate slots that are reported: their leaf's key is the current DIK. -/
def State.certShown (s : State) (k : Nat) : Bool :=
  decide (k < 2) && s.certChain k != [] && Config.leafKey (s.certChain k) == s.dikPublic

/-- GET_DIGESTS. -/
def execGetDigests (i : Nat) (s : State) : Res :=
  .next (s.spdmRun i (fun s =>
    let l := (List.range 2).filter s.certShown
    s.spdmSend i 0x01 (toLE 1 ((l.map (fun k => 2 ^ k)).sum) ++ l.flatMap (fun k => toBE 48 (sha384 (s.certChain k))))))

/-- GET_CERTIFICATE: n bytes of a slot's chain from an offset. -/
def execGetCertificate (i slot off n : Nat) (s : State) : Res :=
  .next (s.spdmRun i (fun s =>
    let c := s.certChain slot
    if !s.certShown slot || decide (c.length < off) then s.spdmError i 0x01
    else
      let l := (c.drop off).take n
      s.spdmSend i 0x02 (toLE 2 l.length ++ toLE 2 (c.length - off - l.length) ++ l)))

/-- CHALLENGE: signed by slot 0 over the request and what the response reports. -/
def execChallenge (i slot : Nat) (req : List Byte) (s : State) : Res :=
  .next (s.spdmRun i (fun s =>
    if !s.certShown slot then s.spdmError i 0x01
    else
      let n := s.draw 256
      let facts := toLE 1 slot ++ toBE 48 (sha384 (s.certChain slot)) ++ toBE 32 n.1
        ++ toBE 48 (sha384 (s.measBlocks.flatMap (fun b => b)))
      let r := n.2.signDik (req ++ facts)
      r.2.spdmSend i 0x03 (facts ++ r.1)))

/-- GET_MEASUREMENTS (R543): `op` 0 asks for the number of blocks, 0xFF for all, another value for that block. -/
def execGetMeasurements (i op : Nat) (signed : Bool) (req : List Byte) (s : State) : Res :=
  .next (s.spdmRun i (fun s =>
    let bs := s.measBlocks
    if 8 < op ∧ op ≠ 0xFF then s.spdmError i 0x01
    else
      let shown := if op = 0 then [] else if op = 0xFF then (List.range 8) else [op - 1]
      let facts := toLE 1 (if op = 0 then 8 else shown.length)
        ++ shown.flatMap (fun k => toLE 1 (k + 1) ++ (bs[k]?).getD [])
      if signed then
        let n := s.draw 256
        let r := n.2.signDik (req ++ facts ++ toBE 32 n.1)
        r.2.spdmSend i 0x60 (facts ++ toBE 32 n.1 ++ r.1)
      else s.spdmSend i 0x60 facts))

/-! ## Sessions (R541, R544) -/

/-- Sessions open in the block. -/
def State.spdmSessions (s : State) : Nat := (s.sec.spdm.filter (fun p => p.2.session.isSome)).length

/-- KEY_EXCHANGE: one session per function, 64 at once; in the Exclusive profile pair 0 gets its two slots. -/
def execKeyExchange (i reqId : Nat) (req : List Byte) (s : State) : Res :=
  .next (s.spdmRun i (fun s =>
    if (s.spdm i).session.isSome || decide (64 ≤ s.spdmSessions) then s.spdmError i 0x0A
    else
      let d := s.draw 16
      let sid := reqId % 65536 + d.1 * 65536
      let secret := Config.spdmSecret d.2.fresh req
      let s0 : State := { d.2 with fresh := d.2.fresh + 1 }
      let opened (s : State) : State :=
        let r := s.signDik req
        (r.2.modSpdm i (fun x => { x with session := some (sid, secret, false), updates := 0 })).spdmSend i 0x64 (toLE 4 sid ++ r.1)
      if !s0.exclusive then opened s0
      else if s0.maxSlots < s0.ownedSlots i + 2 then s.spdmError i 0x0A
      else match s0.deriveBce i 0 sid secret with
        | some (_, _, t) => opened t
        | none => s.spdmError i 0x0A))

/-- SPDM_FINISH: the handshake of the session is complete. -/
def execSpdmFinish (i : Nat) (s : State) : Res :=
  .next (s.spdmRun i (fun s =>
    match (s.spdm i).session with
    | some (sid, secret, false) => (s.modSpdm i (fun x => { x with session := some (sid, secret, true) })).spdmSend i 0x65 []
    | some (_, _, true) => s.spdmError i 0x04
    | none => s.spdmError i 0x0B))

/-- A request inside a session whose handshake is complete. -/
def State.inSession (s : State) (i : Nat) (f : State → State) : State :=
  s.spdmRun i (fun s =>
    match (s.spdm i).session with
    | some (_, _, true) => f s
    | _ => s.spdmError i 0x0B)

/-- The slots of a function's session are emptied, and the streams that use them close (R544, R440). -/
def State.emptySession (s : State) (i : Nat) : State :=
  (s.sec.slots.filter (fun p => (p.2.session.map (·.1)) == some i)).foldl (fun s p => (s.closeStreamsOf p.1).emptySlot p.1) s

/-- END_SESSION. -/
def execEndSession (i : Nat) (s : State) : Res :=
  .next (s.inSession i (fun s =>
    let s := s.spdmSend i 0x6C []
    ((s.emptySession i).modSpdm i (fun x => { x with session := none, updates := 0 })).settle))

/-- HEARTBEAT. -/
def execHeartbeat (i : Nat) (s : State) : Res := .next (s.inSession i (fun s => s.spdmSend i 0x68 []))

/-- KEY_UPDATE: operation 1 or 2 moves the session's keys on; 3 verifies the new key. -/
def execKeyUpdate (i op : Nat) (s : State) : Res :=
  .next (s.inSession i (fun s =>
    if op = 0 ∨ 3 < op then s.spdmError i 0x01
    else (s.modSpdm i (fun x => { x with updates := if op = 3 then x.updates else x.updates + 1 })).spdmSend i 0x69 (toLE 1 op)))

/-- GET_CSR: a request for the DIK. -/
def execGetCsr (i : Nat) (req : List Byte) (s : State) : Res :=
  .next (s.spdmRun i (fun s =>
    let l := toBE 96 s.dikPublic ++ req
    let r := s.signDik l
    r.2.spdmSend i 0x6D (l ++ r.1)))

/-- SET_CERTIFICATE: the PF, inside a secured session, certificate slot 1. -/
def execSetCertificate (i slot : Nat) (secured : Bool) (chain : List Byte) (s : State) : Res :=
  .next (s.spdmRun i (fun s =>
    if i ≠ 0 then s.spdmError i 0x07
    else match (s.spdm i).session with
      | some (_, _, true) =>
        if !secured then s.spdmError i 0x0B
        else if slot ≠ 1 ∨ 0x20000 < chain.length then s.spdmError i 0x01
        else if s.bnd.store.fault then s.spdmError i 0x05
        else ((s.flashErase (certAddr 1) 0x20000).flashWrite (certAddr 1) chain).spdmSend i 0x6E (toLE 1 slot)
      | _ => s.spdmError i 0x0B))

/-- SPDM_UNSUPPORTED_REQUEST: any other request. -/
def execSpdmUnsupportedRequest (i : Nat) (s : State) : Res :=
  if !s.doeUp i then .next s
  else .next (s.spdmError i (if s.sec.keyless then 0x05 else 0x07))

end Sys2Proof.Machine
end

