-- ==== Sys2Proof/Machine/Dict.lean ====
section
/-! DEFINITION. The Apgus object dictionary: its objects with their types, access, roles, defaults, persistence and
ranges, and what each reads as (16_dictionary.md R556 of chapter 15, R567 to R575, Tables 16-4 to 16-13). -/

namespace Sys2Proof.Machine

/-! ## The object table -/

/-- Types (Table 16-4). -/
inductive OTy
  | bool
  | u (n : Nat)
  | i (n : Nat)
  | f32
  | time
  | str
  | blob (n : Option Nat)
  | enum (l : List Nat)
  deriving DecidableEq, Repr

/-- Access (R569). -/
inductive OAcc | ro | rw | wo | const | rwl
  deriving DecidableEq, Repr

/-- An object: `role` 1 viewer, 2 operator, 3 owner, 4 for an object that only the host mailbox reaches; `lo` and `hi`
bound a number. -/
structure Obj where
  ty : OTy
  acc : OAcc
  role : Nat
  h : Bool
  pers : Bool
  dflt : List Byte
  lo : Nat
  hi : Nat
  deriving DecidableEq, Repr

def oRO (t : OTy) : Obj := ⟨t, .ro, 1, false, false, [], 0, 0⟩
def oROH (t : OTy) : Obj := ⟨t, .ro, 1, true, false, [], 0, 0⟩
def oConst (t : OTy) : Obj := ⟨t, .const, 1, false, false, [], 0, 0⟩
def oConstH (t : OTy) : Obj := ⟨t, .const, 1, true, false, [], 0, 0⟩
/-- A write-only object: what it acts on lies from `lo` to `hi`. -/
def oWO (t : OTy) (role : Nat) (pers : Bool) (lo hi : Nat) : Obj := ⟨t, .wo, role, false, pers, [], lo, hi⟩
/-- A settable number of n bytes. -/
def oU (n : Nat) (acc : OAcc) (role : Nat) (h pers : Bool) (d lo hi : Nat) : Obj := ⟨.u n, acc, role, h, pers, toLE n d, lo, hi⟩
def oBlob (n : Nat) (acc : OAcc) (role : Nat) (h pers : Bool) (fill : Byte) : Obj :=
  ⟨.blob (some n), acc, role, h, pers, List.replicate n fill, 0, 0⟩
def oBool (acc : OAcc) (role : Nat) (h pers : Bool) (d : Nat) : Obj := ⟨.bool, acc, role, h, pers, toLE 1 d, 0, 1⟩
def oEnum (l : List Nat) (acc : OAcc) (role : Nat) (h pers : Bool) (d : Nat) : Obj := ⟨.enum l, acc, role, h, pers, toLE 1 d, 0, 0⟩

/-- Connection parameters in the order of Table 13-6, from :02; their widths are those that hold their ranges. -/
def connObj (sub : Nat) : Option Obj :=
  let u (n d lo hi : Nat) : Option Obj := some (oU n .rwl 2 true false d lo hi)
  match sub with
  | 0x02 => u 1 0 0 255
  | 0x03 => u 2 0 0 4095
  | 0x04 => u 1 0 0 7
  | 0x05 => u 2 0 0 4094
  | 0x06 => u 1 0 0 7
  | 0x07 => u 1 0 0 63
  | 0x08 => some (oBlob 6 .rwl 2 true false 0)
  | 0x09 => some (oBlob 16 .rwl 2 true false 0)
  | 0x0A => u 2 0 0 1023
  | 0x0B => u 4 1 1 0xFFFFFFFF
  | 0x0C => u 4 1 1 0xFFFFFFFF
  | 0x0D => u 1 0 0 7
  | 0x0E => u 2 8192 1024 8192
  | 0x0F => u 2 16384 1 16384
  | 0x10 => u 4 20000 2000 10000000
  | 0x11 => u 1 16 1 255
  | 0x12 => some (oBool .rwl 2 true false 0)
  | 0x13 => u 1 0 0 255
  | 0x14 => u 1 0 0 255
  | 0x15 => u 8 0 0 (2 ^ 48 - 1)
  | 0x16 => u 1 16 16 24
  | 0x17 => u 8 0 0 (2 ^ 48 - 1)
  | 0x18 => u 8 0 0 (2 ^ 48 - 1)
  | 0x19 => u 1 0 0 26
  | 0x1A => u 8 0 0 (2 ^ 48 - 1)
  | 0x1B => u 8 0 0 (2 ^ 48 - 1)
  | _ => none

/-- 0x1000: identity and communication (Table 16-7). -/
def objComm (i sub : Nat) : Option Obj :=
  if i = 0x1000 then
    match sub with
    | 1 => some (oConstH (.u 8))
    | 2 => some (oConstH .str)
    | 3 => some (oROH (.u 4))
    | 4 => some (oROH (.enum [0, 1, 2]))
    | _ => none
  else if i = 0x1001 then
    match sub with
    | 1 => some (oConst (.blob (some 6)))
    | 2 => some (oU 1 .rw 3 false true 255 0 255)
    | 3 => some (oU 1 .rw 3 false true 8 1 255)
    | 4 => some (oU 2 .rw 3 false true 4747 1 65535)
    | 5 => some (oU 4 .rw 3 false true 300 10 86400)
    | 6 => some (oRO (.u 1))
    | 7 => some (oRO (.u 4))
    | 8 => some (oRO (.u 4))
    | _ => none
  else if 0x1100 ≤ i ∧ i < 0x1104 then (if sub = 1 then some (oEnum [0, 1] .rw 2 true true 0) else none)
  else if 0x1110 ≤ i ∧ i < 0x1118 then
    match sub with
    | 1 => some (oBlob 6 .rwl 2 true true 0)
    | 2 => some (oBlob 16 .rwl 2 true true 0)
    | 3 => some (oU 2 .rwl 2 true true 19793 1 65535)
    | 4 => some (oU 2 .rwl 2 true true 9216 1518 9216)
    | 5 => some (oU 1 .rwl 2 true true 8 0 255)
    | 6 => some (oU 2 .rwl 2 true true 8 0 65535)
    | 7 => some (oU 2 .rwl 2 true true 4 0 65535)
    | 8 => some (oU 2 .rwl 2 true true 16 0 65535)
    | k => if 0x10 ≤ k ∧ k ≤ 0x17 then some (oU 1 .rw 2 true true 1 1 16) else none
  else if 0x1400 ≤ i ∧ i < 0x1800 then
    (if sub = 1 then some (oEnum [0, 1, 2] .rw 2 true false 0)
     else if sub = 0x1C then some (oROH (.enum [0, 1, 2, 3, 4, 5, 6, 7, 8])) else connObj sub)
  else if 0x1800 ≤ i ∧ i < 0x1840 then
    match sub with
    | 1 => some (oBool .rwl 2 true false 0)
    | 2 => some (oU 1 .rwl 2 true false 0 0 7)
    | 3 => some (oBlob 6 .rwl 2 true false 0)
    | 4 => some (oU 2 .rwl 2 true false 0 0 65535)
    | 5 => some (oU 2 .rwl 2 true false 0 0 0xFFF)
    | 6 => some (oU 2 .rwl 2 true false 0 0 1023)
    | _ => none
  else none

/-- 0x2000: profiles and mode changes (Table 16-8). -/
def objMode (i sub : Nat) : Option Obj :=
  match i, sub with
  | 0x2000, 1 => some (oROH (.enum [0, 1, 2, 3]))
  | 0x2000, 2 => some (oEnum [0, 1, 2, 3, 0xFF] .rw 2 true false 0xFF)
  | 0x2000, 3 => some (oROH (.enum [0, 1, 2, 3]))
  | 0x2010, 1 => some (oRO (.enum [0, 1, 2, 3]))
  | 0x2010, 2 => some (oRO (.u 4))
  | 0x2010, 3 => some (oRO (.u 4))
  | 0x2010, 4 => some (oRO .time)
  | 0x2010, 5 => some (oRO (.u 4))
  | 0x2010, 6 => some (oRO (.u 4))
  | 0x2020, 1 => some (oWO (.enum [1, 2, 3]) 2 false 0 0)
  | 0x2020, 2 => some (oROH (.enum [0, 1, 2]))
  | 0x2020, 3 => some (oRO (.u 1))
  | 0x2020, 4 => some (oRO (.u 1))
  | 0x2030, 1 => some (oRO (.u 4))
  | 0x2030, 2 => some (oWO (.u 4) 2 false 0 0xFFFFFFFF)
  | i, sub =>
    if 0x2100 ≤ i ∧ i < 0x2104 then
      match sub with
      | 1 => some ⟨.str, .rw, 3, false, true, ascii ((["Unified", "Partitioned-8", "Exclusive", "Custom"][i - 0x2100]?).getD ""), 0, 0⟩
      | 2 => if i = 0x2103 then some (oU 1 .rw 3 false true 2 2 4) else some (oConst (.u 1))
      | 3 => some (oU 2 .rw 2 false true 1050 400 1200)
      | _ => none
    else none

/-- 0x3000 and 0x4000: power, thermal and reliability (Table 16-9). -/
def objPower (i sub : Nat) : Option Obj :=
  match i, sub with
  | 0x3000, 1 => some (oU 2 .rw 2 false true 1050 400 1200)
  | 0x3000, 2 => some (oROH .f32)
  | 0x3000, 3 => some (oRO (.u 8))
  | 0x3000, 4 => some (oRO (.u 4))
  | 0x4000, 1 => some (oU 2 .rw 2 false true 24 1 168)
  | 0x4000, 2 => some (oU 1 .rw 2 false true 4 1 255)
  | 0x4000, 3 => some (oBool .rw 2 false true 1)
  | 0x4000, 4 => some (oRO (.blob none))
  | 0x4000, 5 => some (oRO (.u 4))
  | 0x4040, 1 => some (oRO (.u 2))
  | 0x4040, 2 => some (oRO (.u 2))
  | 0x4040, 3 => some (oRO (.u 1))
  | 0x4040, 4 => some (oRO (.u 1))
  | 0x4040, 5 => some (oRO (.u 4))
  | i, sub =>
    if 0x3010 ≤ i ∧ i < 0x3018 then
      (match sub with | 1 => some (oRO (.u 1)) | 2 => some (oRO (.u 2)) | 3 => some (oRO (.i 2)) | _ => none)
    else if 0x3020 ≤ i ∧ i < 0x3028 then
      (match sub with | 1 => some (oRO (.i 2)) | 2 => some (oRO (.enum [0, 1, 2, 3])) | _ => none)
    else if 0x4010 ≤ i ∧ i < 0x4018 then
      match sub with
      | 1 => some (oROH (.enum [0, 1, 2, 3]))
      | 2 => some (oWO .bool 2 false 0 1)
      | 3 => some (oRO (.blob (some 8)))
      | 4 => some (oRO (.u 1))
      | 5 => some (oRO (.u 8))
      | 6 => some (oRO (.u 4))
      | 7 => some (oRO (.u 4))
      | _ => none
    else if 0x4020 ≤ i ∧ i < 0x4028 then
      match sub with
      | 1 => some (oWO .bool 2 false 0 1)
      | 2 => some (oRO (.u 4))
      | 3 => some (oRO (.u 8))
      | 4 => some (oRO (.u 8))
      | 5 => some (oRO (.u 2))
      | _ => none
    else none

/-- 0x5000: security (Table 16-10). -/
def objSec (i sub : Nat) : Option Obj :=
  match i, sub with
  | 0x5000, 1 => some (oRO (.blob (some 272)))
  | 0x5000, 2 => some (oROH (.u 4))
  | 0x5000, 3 => some (oRO .bool)
  | 0x5000, 4 => some (oRO (.u 2))
  | 0x5000, 5 => some (oROH (.blob (some 96)))
  | 0x5001, 1 => some (oU 4 .rwl 3 false true 0xF 0 0xF)
  | 0x5001, 2 => some (oU 4 .rwl 3 false true 0x00100003 0 0x00F00007)
  | 0x5001, 3 => some (oBlob 256 .rwl 3 false true 0xFF)
  | 0x5001, 4 => some (oWO (.blob none) 3 true 0 0)
  | 0x5001, 5 => some (oBool .rwl 3 false true 0)
  | 0x5020, 1 => some ⟨.blob (some 96), .wo, 4, true, true, [], 0, 0⟩
  | i, sub =>
    if 0x5010 ≤ i ∧ i < 0x5018 then
      (match sub with | 1 => some (oBlob 96 .rw 3 false true 0) | 2 => some (oEnum [0, 1, 2, 3] .rw 3 false true 0) | _ => none)
    else if 0x5100 ≤ i ∧ i < 0x5200 then
      (match sub with | 1 => some (oRO (.blob (some 64))) | 2 => some (oWO (.blob (some 34)) 2 false 0 0) | _ => none)
    else none

/-- 0x6000 and 0x7000: instances, quotas, accounting (Table 16-11). -/
def objInst (i sub : Nat) : Option Obj :=
  let top := 2 ^ 64 - 1
  match i, sub with
  | 0x6000, 1 => some (oROH (.blob (some 8)))
  | 0x7000, 1 => some ⟨.time, .rw, 2, false, true, toLE 8 360000000000, 6000000000, 360000000000⟩
  | 0x7000, 2 => some (oWO (.u 8) 2 false 0 top)
  | 0x7000, 3 => some (oRO (.u 8))
  | 0x7000, 4 => some (oRO (.u 8))
  | 0x7000, 5 => some (oRO .time)
  | 0x7002, 1 => some (oRO (.blob none))
  | i, sub =>
    if 0x6100 ≤ i ∧ i < 0x6200 then
      (if sub = 1 then some (oROH (.enum [0, 1, 2, 3]))
       else if sub = 2 then some (oROH (.u 2))
       else if sub = 3 then some (oROH (.u 1))
       else if 0x11 ≤ sub ∧ sub ≤ 0x18 then some (oU 8 .rw 2 true false top 0 top)
       else if 0x20 ≤ sub ∧ sub ≤ 0x2F then some (oU 4 .rw 2 true false 0xFFFFFFFF 0 0xFFFFFFFF)
       else none)
    else if i = 0x7001 then (if 1 ≤ sub ∧ sub ≤ 10 then some (oConst (.u 4)) else none)
    else if 0x7100 ≤ i ∧ i < 0x7200 then (if 1 ≤ sub ∧ sub ≤ 5 then some (oRO (.u 8)) else none)
    else none

/-- 0x8000 to 0xA000: telemetry, firmware, diagnostics (Table 16-12). -/
def objTele (i sub : Nat) : Option Obj :=
  match i, sub with
  | 0x8000, 1 => some (oU 4 .rw 2 false true 0 0 60000)
  | 0x9000, 1 => some (oROH (.enum [0, 1]))
  | 0x9000, 2 => some (oROH (.enum [0, 1]))
  | 0x9000, 3 => some (oROH (.u 1))
  | 0x9000, 4 => some (oROH (.u 1))
  | 0x9001, 1 => some (oWO (.blob none) 2 false 0 0)
  | 0x9001, 2 => some (oEnum [1, 2] .rw 2 false false 2)
  | 0x9001, 3 => some (oWO (.enum [1, 2, 3, 4, 5, 6]) 2 false 0 0)
  | 0x9001, 4 => some (oRO (.enum [0, 1, 2, 3, 4, 5]))
  | 0x9002, 1 => some (oWO .bool 3 false 0 1)
  | 0x9002, 2 => some (oWO (.blob none) 3 false 0 0)
  | 0xA000, 1 => some (oU 8 .rw 3 false false 0 0 (2 ^ 64 - 1))
  | 0xA000, 2 => some (oRO (.blob (some 1024)))
  | 0xA000, 3 => some (oU 4 .rw 3 false false 0 0 0xFFFFFFFF)
  | 0xA000, 4 => some (oRO (.blob none))
  | i, sub =>
    if 0x8100 ≤ i ∧ i < 0x8200 then (if 1 ≤ sub ∧ sub ≤ 6 then some (oROH (.u 8)) else if sub = 7 then some (oROH (.u 2)) else none)
    else if 0x8200 ≤ i ∧ i < 0x8208 then (if sub = 1 then some (oRO (.blob (some 4096))) else none)
    else if 0x8300 ≤ i ∧ i < 0x8308 then (if 1 ≤ sub ∧ sub ≤ 7 then some (oRO (.u 8)) else none)
    else if 0x8400 ≤ i ∧ i < 0x8408 then (if 1 ≤ sub ∧ sub ≤ 3 then some (oRO (.u 8)) else none)
    else none

/-- R572: the object of an index and subindex. -/
def objInfo (i sub : Nat) : Option Obj :=
  match i / 0x1000 with
  | 1 => objComm i sub
  | 2 => objMode i sub
  | 3 => objPower i sub
  | 4 => objPower i sub
  | 5 => objSec i sub
  | 6 => objInst i sub
  | 7 => objInst i sub
  | 8 => objTele i sub
  | 9 => objTele i sub
  | 10 => objTele i sub
  | _ => none

/-- Bytes of a type; none when its length is open. -/
def OTy.size (t : OTy) : Option Nat :=
  match t with
  | .bool => some 1
  | .u n => some n
  | .i n => some n
  | .f32 => some 4
  | .time => some 8
  | .str => none
  | .blob n => n
  | .enum _ => some 1

/-! ## Values -/

/-- binary32 of a number of thousandths. -/
def f32Milli (x n : Nat) : List Byte :=
  let num := x * 2 ^ 64
  let den := 1000 * n
  let m := if n = 0 then 0 else 2 * (num / den) + (if num % den = 0 then 0 else 1)
  toLE 4 (fp32.round .rne (.fin false m (-65))).1

/-- Two's complement bytes. -/
def toLEi (n : Nat) (x : Int) : List Byte := toLE n (x % (2 ^ (8 * n) : Nat)).toNat

/-- The block's draw: exact, or as the host mailbox sees it (15_security.md R556). -/
def State.drawBytes (s : State) (h : Bool) : List Byte :=
  if h then f32Milli (s.bnd.drawSnap / 5000 * 5000) 1 else f32Milli s.bnd.draws.sum s.bnd.draws.length

def State.teleOf (s : State) (i sub : Nat) : Nat := (tget s.tele (okey i sub)).getD 0

/-- A connection's parameter. -/
def ConnSt.get (y : ConnSt) (sub : Nat) : List Byte :=
  match sub with
  | 0x01 => toLE 1 (match y.state with | .disabled => 0 | .opened => 1 | .broken => 2)
  | 0x02 => toLE 1 y.inst
  | 0x03 => toLE 2 y.ctx
  | 0x04 => toLE 1 y.port
  | 0x05 => toLE 2 y.vid
  | 0x06 => toLE 1 y.pcp
  | 0x07 => toLE 1 y.dscp
  | 0x08 => toBE 6 y.peerMac
  | 0x09 => toBE 16 y.peerIp
  | 0x0A => toLE 2 y.peerConn
  | 0x0B => toLE 4 y.txEpoch
  | 0x0C => toLE 4 y.rxEpoch
  | 0x0D => toLE 1 y.types
  | 0x0E => toLE 2 y.maxPayload
  | 0x0F => toLE 2 y.window
  | 0x10 => toLE 4 y.rto
  | 0x11 => toLE 1 y.retryMax
  | 0x12 => toLE 1 (b2n y.enc)
  | 0x13 => toLE 1 y.txKey
  | 0x14 => toLE 1 y.rxKey
  | 0x15 => toLE 8 y.sendVA
  | 0x16 => toLE 1 y.sendLog2
  | 0x17 => toLE 8 y.sendCtrl
  | 0x18 => toLE 8 y.ingestVA
  | 0x19 => toLE 1 y.ingestLog2
  | 0x1A => toLE 8 y.ingestCtrl
  | 0x1B => toLE 8 y.rxStateVA
  | _ => toLE 1 y.breakCode

/-- A connection with a parameter set. -/
def ConnSt.put (y : ConnSt) (sub : Nat) (v : List Byte) : ConnSt :=
  let x := leNat v
  match sub with
  | 0x02 => { y with inst := x }
  | 0x03 => { y with ctx := x }
  | 0x04 => { y with port := x }
  | 0x05 => { y with vid := x }
  | 0x06 => { y with pcp := x }
  | 0x07 => { y with dscp := x }
  | 0x08 => { y with peerMac := beNat v }
  | 0x09 => { y with peerIp := beNat v }
  | 0x0A => { y with peerConn := x }
  | 0x0B => { y with txEpoch := x }
  | 0x0C => { y with rxEpoch := x }
  | 0x0D => { y with types := x }
  | 0x0E => { y with maxPayload := x }
  | 0x0F => { y with window := x }
  | 0x10 => { y with rto := x }
  | 0x11 => { y with retryMax := x }
  | 0x12 => { y with enc := x != 0 }
  | 0x13 => { y with txKey := x }
  | 0x14 => { y with rxKey := x }
  | 0x15 => { y with sendVA := x }
  | 0x16 => { y with sendLog2 := x }
  | 0x17 => { y with sendCtrl := x }
  | 0x18 => { y with ingestVA := x }
  | 0x19 => { y with ingestLog2 := x }
  | 0x1A => { y with ingestCtrl := x }
  | 0x1B => { y with rxStateVA := x }
  | _ => y

/-- A port's parameter. -/
def PortSt.get (y : PortSt) (sub : Nat) : List Byte :=
  match sub with
  | 1 => toBE 6 y.mac
  | 2 => toBE 16 y.ip
  | 3 => toLE 2 y.quirePort
  | 4 => toLE 2 y.maxFrame
  | 5 => toLE 1 y.pfcEnable
  | 6 => toLE 2 y.xoff
  | 7 => toLE 2 y.xon
  | 8 => toLE 2 y.headroom
  | k => toLE 1 ((y.weights[k - 0x10]?).getD 1)

/-- The value of an RW object as it was last set. -/
def State.stored (s : State) (i sub : Nat) : List Byte :=
  s.objOr (okey i sub) (((objInfo i sub).map (fun o => o.dflt)).getD [])

/-- Quota settings of an instance as last accepted: VALUE and DEPTH of the deadline budget, RATE and DEPTH of a bucket. -/
def Budget.setting (b : Budget) : Nat × Nat :=
  match b.set with
  | some none => (2 ^ 64 - 1, 2 ^ 64 - 1)
  | some (some p) => p
  | none => if b.limited then (b.value, b.depth) else (2 ^ 64 - 1, 2 ^ 64 - 1)

def State.rateSetting (s : State) (inst f : Nat) : Nat × Nat :=
  match tget (s.platen f).buckets inst with
  | none => (0xFFFFFFFF, 0xFFFFFFFF)
  | some b => match b.newRate with
    | some (r, d, _) => if r = 0xFFFFFFFF then (r, r) else (r, d)
    | none => if b.limited then (b.rate, b.depth) else (0xFFFFFFFF, 0xFFFFFFFF)

/-- Numbers that the domains of a profile have (01_architecture.md Table 01-2). -/
def State.profileDomains (s : State) (p : Nat) : Nat :=
  match p with
  | 0 => 1
  | 1 => 8
  | 2 => 1
  | _ => leNat (s.stored 0x2103 2)

/-- The mode object that a key stands for: POWER_CAP of the profile in force is one object (R574). -/
def State.capKey (s : State) (i sub : Nat) : Nat × Nat := if i = 0x3000 ∧ sub = 1 then (0x2100 + s.profile, 3) else (i, sub)

def State.readComm (s : State) (i sub : Nat) : List Byte :=
  match i, sub with
  | 0x1000, 1 => toLE 8 Config.serial
  | 0x1000, 2 => ascii "OTM-16K"
  | 0x1000, 3 => toLE 4 s.sec.fw.main.version
  | 0x1000, 4 => toLE 1 (match s.host.link with | .down _ => 0 | .cxl => 1 | .pcie => 2)
  | 0x1001, 1 => toBE 6 Config.mgtMac
  | 0x1001, 6 => toLE 1 ((s.mgmt.sessions.filter (fun p => p.2.opened)).length)
  | 0x1001, 7 => toLE 4 s.mgmt.helloFails
  | 0x1001, 8 => toLE 4 s.mgmt.recordDrops
  | i, sub =>
    if 0x1100 ≤ i ∧ i < 0x1104 then toLE 1 ((tget s.net.modeSet (i - 0x1100)).getD 0)
    else if 0x1110 ≤ i ∧ i < 0x1118 then (s.port (i - 0x1110)).get sub
    else if 0x1400 ≤ i ∧ i < 0x1800 then (s.conn (i - 0x1400)).get sub
    else if 0x1800 ≤ i ∧ i < 0x1840 ∧ sub = 1 then toLE 1 (b2n (thas s.net.filters (i - 0x1800)))
    else s.stored i sub

def State.readMode (s : State) (i sub : Nat) : List Byte :=
  let m := s.mgmt
  match i, sub with
  | 0x2000, 1 => toLE 1 s.profile
  | 0x2000, 2 => toLE 1 m.nextProfile
  | 0x2000, 3 => toLE 1 s.bnd.strap
  | 0x2010, 1 => toLE 1 m.modeState.code
  | 0x2010, 2 => toLE 4 m.applied
  | 0x2010, 3 => toLE 4 m.modeGen
  | 0x2010, 4 => toLE 8 m.commitTick
  | 0x2010, 5 => toLE 4 m.target
  | 0x2010, 6 => toLE 4 m.missed
  | 0x2020, 2 => toLE 1 s.bnd.startKind
  | 0x2020, 3 => toLE 1 s.bnd.warmFails
  | 0x2020, 4 => toLE 1 s.bnd.coldFails
  | 0x2030, 1 => toLE 4 m.alert
  | i, sub => if sub = 2 ∧ 0x2100 ≤ i then toLE 1 (s.profileDomains (i - 0x2100)) else s.stored i sub

def FormeStatus.code (x : FormeStatus) : Nat :=
  match x with | .inService => 0 | .resetting => 1 | .outOfService => 2 | .held => 3

def State.readPower (s : State) (i sub : Nat) (h : Bool) : List Byte :=
  match i, sub with
  | 0x3000, 1 => s.stored (0x2100 + s.profile) 3
  | 0x3000, 2 => s.drawBytes h
  | 0x3000, 3 => toLE 8 (s.mgmt.energy / 1000000)
  | 0x3000, 4 => toLE 4 s.mgmt.capEvents
  | 0x4000, 1 => toLE 2 s.fm.patrolHours
  | 0x4000, 2 => toLE 1 s.fm.retireLimit
  | 0x4000, 3 => toLE 1 (b2n s.fm.iftOn)
  | 0x4000, 4 => s.fm.records.flatMap (fun r => r.bytes false)
  | 0x4000, 5 => toLE 4 s.fm.recordNo
  | 0x4040, 1 => toLE 2 s.sortsFree
  | 0x4040, 2 => toLE 2 s.sticksFree
  | 0x4040, 3 => toLE 1 s.fm.freeSpares.length
  | 0x4040, 4 => toLE 1 s.sec.spareCells
  | 0x4040, 5 => toLE 4 s.fm.rowMarks.length
  | i, sub =>
    if 0x3010 ≤ i ∧ i < 0x3018 then
      let f := i - 0x3010
      match sub with
      | 1 => toLE 1 (s.forme f).k
      | 2 => toLE 2 (500 + 5 * (vget s.bnd.vri f Vri.boot).volt)
      | _ => toLEi 2 ((tget s.bnd.hot f).getD 0)
    else if 0x3020 ≤ i ∧ i < 0x3028 then
      (if sub = 1 then toLE 2 (s.stack (i - 0x3020)).temp else toLE 1 (s.stack (i - 0x3020)).band)
    else if 0x4010 ≤ i ∧ i < 0x4018 then
      let f := i - 0x4010
      match sub with
      | 1 => toLE 1 (s.forme f).status.code
      | 3 => (List.range 8).flatMap (fun k => toLE 1 (s.physGalley (8 * f + k)))
      | 4 => toLE 1 ((s.fm.retired.filter (fun g => formeOf g == f)).length)
      | 5 => toLE 8 (s.platen f).dropped
      | _ => toLE 4 (s.teleOf i sub)
    else
      match sub with
      | 2 => toLE 4 (65536 - (s.stack (i - 0x4020)).oversUsed)
      | 5 => toLE 2 (s.teleOf i sub)
      | _ => toLE 8 (s.teleOf i sub)

def State.readSec (s : State) (i sub : Nat) : List Byte :=
  match i, sub with
  | 0x5000, 1 => s.sec.prot.bytes
  | 0x5000, 2 => toLE 4 s.fm.locks
  | 0x5000, 3 => toLE 1 (b2n s.sec.tamperLatch)
  | 0x5000, 4 => toLE 2 s.sec.tamperCount
  | 0x5000, 5 => toBE 96 (if (s.kslot 0).state = .ready then s.dikPublic else 0)
  | i, sub =>
    if 0x5010 ≤ i ∧ i < 0x5018 then
      let e := (tget s.mgmt.opKeys (i - 0x5010)).getD ⟨0, 0⟩
      if sub = 1 then toBE 96 e.pub else toLE 1 e.role
    else if 0x5100 ≤ i ∧ i < 0x5200 then s.slotBytes (i - 0x5100) false
    else s.stored i sub

def State.readInst (s : State) (i sub : Nat) : List Byte :=
  match i, sub with
  | 0x6000, 1 => (List.range 8).flatMap (fun f => toLE 1 (s.domainOf f))
  | 0x7000, 3 => toLE 8 (s.mgmt.ledger.wallAt s.now)
  | 0x7000, 4 => toLE 8 s.mgmt.ledger.open_.no
  | 0x7000, 5 => toLE 8 s.now
  | 0x7002, 1 => (s.mgmt.ledger.journal.drop (s.mgmt.ledger.journal.length - 1024)).flatMap (fun p => journalEntry p.1 p.2)
  | i, sub =>
    if 0x6100 ≤ i ∧ i < 0x6200 then
      let k := i - 0x6100
      if sub = 1 then toLE 1 (s.inst k).state.code
      else if sub = 2 then toLE 2 (s.overMask k)
      else if sub = 3 then toLE 1 (s.inst k).weight
      else if sub = 0x17 then toLE 8 (s.inst k).budget.setting.1
      else if sub = 0x18 then toLE 8 (s.inst k).budget.setting.2
      else if sub < 0x20 then toLE 8 ((tget (s.inst k).quotas (sub - 0x10)).getD (2 ^ 64 - 1))
      else if sub < 0x28 then toLE 4 (s.rateSetting k (sub - 0x20)).1
      else toLE 4 (s.rateSetting k (sub - 0x28)).2
    else if i = 0x7001 then toLE 4 (Config.energyCoef (sub - 1))
    else if 0x7100 ≤ i ∧ i < 0x7200 then
      let a := (s.inst (i - 0x7100)).period
      match sub with
      | 1 => toLE 8 (a.ticks / 100)
      | 2 => toLE 8 (a.hbm / 256)
      | 3 => toLE 8 (a.host / 64)
      | 4 => toLE 8 (a.net / 64)
      | _ => toLE 8 (a.pj / 1000000)
    else s.stored i sub

/-- Counters of a step-model slot; the host mailbox sees those of instance 0's contexts only (R569). -/
def State.readModel (s : State) (m sub : Nat) (h : Bool) : List Byte :=
  match tget s.serve.models m with
  | none => if sub = 7 then toLE 2 1024 else toLE 8 0
  | some x =>
    let hide := h && ((tget s.ctxs x.ctx).map (fun c => c.inst)) != some 0
    match sub with
    | 1 => toLE 8 (if hide then 0 else x.batches)
    | 2 => toLE 8 (if hide then 0 else x.drafts)
    | 3 => toLE 8 (if hide then 0 else x.late)
    | 4 => toLE 8 (if hide then 0 else x.skipped)
    | 5 => toLE 8 (if hide then 0 else x.wouldDraft)
    | 6 => toLE 8 (if hide then 0 else x.reports)
    | _ => toLE 2 x.cal

def State.readTele (s : State) (i sub : Nat) (h : Bool) : List Byte :=
  match i, sub with
  | 0x9000, 1 => toLE 1 s.sec.fw.sel.fs1
  | 0x9000, 2 => toLE 1 s.sec.fw.sel.main
  | 0x9000, 3 => toLE 1 s.sec.arb
  | 0x9000, 4 => toLE 1 s.sec.fw.main.svn
  | 0x9001, 2 => toLE 1 s.sec.fw.target
  | 0x9001, 4 => toLE 1 s.sec.fw.state.code
  | 0xA000, 2 => (List.range 1024).map (fun k => Config.diagByte (leNat (s.stored 0xA000 1) + k) s.fresh)
  | 0xA000, 4 => Config.traceBytes (leNat (s.stored 0xA000 3)) s.fresh
  | i, sub =>
    if 0x8100 ≤ i ∧ i < 0x8200 then s.readModel (i - 0x8100) sub h
    else if 0x8200 ≤ i ∧ i < 0x8208 then
      let l := ((tget s.switches (i - 0x8200)).getD []).flatMap (fun p => toLE 8 p.1 ++ toLE 8 p.2)
      (l ++ List.replicate 4096 0).take 4096
    else if 0x8300 ≤ i ∧ i < 0x8500 then toLE 8 (s.teleOf i sub)
    else s.stored i sub

/-- What an object that exists reads as; `h` through the host mailbox.  A WO object reads as zero (R569). -/
def State.readObj (s : State) (i sub : Nat) (h : Bool) : List Byte :=
  match objInfo i sub with
  | none => []
  | some o =>
    if o.acc = .wo then toLE (o.ty.size.getD 0) 0
    else match i / 0x1000 with
      | 1 => s.readComm i sub
      | 2 => s.readMode i sub
      | 3 => s.readPower i sub h
      | 4 => s.readPower i sub h
      | 5 => s.readSec i sub
      | 6 => s.readInst i sub
      | 7 => s.readInst i sub
      | _ => s.readTele i sub h

/-- R539, Table 16-12: diagnostics need their DIAG bit, which holds with DEBUG only. -/
def State.diagOff (s : State) (i sub : Nat) : Bool :=
  i == 0xA000 && !(s.debugOn && bit s.sec.prot.debugCtrl (if sub ≤ 2 then 1 else 0))

/-- R583: what safe mode serves. -/
def State.served (s : State) (i : Nat) : Bool :=
  s.up || i / 0x1000 == 1 || i == 0x2020 || i / 0x1000 == 4 || i / 0x1000 == 5 || i / 0x1000 == 9

end Sys2Proof.Machine
end

