-- ==== Sys2Proof/Machine/Apgus.lean ====
section
/-! DEFINITION. Shared operations of the management controller: who may reach an object, what a write does, mode changes,
firmware updates, messages and their responses (16_dictionary.md R567 to R580, R583; 15_security.md R538, R548 to R553). -/

namespace Sys2Proof

def Requester.isMbx (r : Requester) : Bool := match r with | .mailbox => true | .session _ => false

/-- Who is answered when a request completes later. -/
def Requester.waiter (r : Requester) (op tag i sub : Nat) : Machine.Waiter :=
  match r with
  | .session n => .session n op tag i sub
  | .mailbox => .mailbox op tag i sub

/-- The longest value that one message carries. -/
def Requester.room (r : Requester) : Nat := if r.isMbx then 1016 else 1412
/-- The largest LEN of a blob chunk (R567). -/
def Requester.chunk (r : Requester) : Nat := if r.isMbx then 992 else 1024

end Sys2Proof

namespace Sys2Proof.Machine

/-! ## Requesters -/

def State.reply (s : State) (r : Requester) (op tag i sub status : Nat) (dropped : Bool) (value : List Byte) : State :=
  match r with
  | .session n => s.replySession n op tag i sub status dropped value
  | .mailbox => s.replyMailbox op tag i sub status dropped value

/-- Role of a requester: 0 for none. -/
def State.roleOf (s : State) (r : Requester) : Nat :=
  match r with
  | .session n => ((tget s.mgmt.sessions n).map (fun x => x.role)).getD 0
  | .mailbox => 0

/-- R564: a request that is still executing. -/
def State.executing (s : State) (w : Waiter) : Bool :=
  (s.mgmt.change.map (fun c => c.waiter)) == some w || s.sec.fw.activating == some w
  || s.sec.slots.any (fun p => (p.2.pend.map (fun x => x.waiter)) == some w)

/-- A message of an open session is executed, answered again when it is a retry of one done, and discarded when it is a
retry of one under way; the mailbox keeps no responses. -/
def State.request (s : State) (r : Requester) (op tag i sub : Nat) (f : State → State) : State :=
  match r with
  | .mailbox => if s.up || s.bnd.power == .safe then f s else s
  | .session n =>
    match tget s.mgmt.sessions n with
    | none => s
    | some x =>
      if !x.opened || !s.mgmtUp || !s.mgmt.macPhy then s
      else
        let s := s.modSess n (fun y => { y with since := s.now })
        if s.executing (r.waiter op tag i sub) then s
        else match x.replies.find? (fun k => k.1 == tag && k.2.1 == op && k.2.2.1 == i && k.2.2.2.1 == sub) with
          | some k => s.sendRecord n k.2.2.2.2
          | none => f s

/-! ## Who may reach an object (R569, R583) -/

/-- Why an access is refused, by status (Table 16-3). -/
def State.accessFail (s : State) (r : Requester) (i sub : Nat) (write : Bool) : Option Nat :=
  match objInfo i sub with
  | none => some 1
  | some o =>
    if !s.served i || s.diagOff i sub then some 9
    else if r.isMbx && !o.h then some 3
    else if !r.isMbx && o.role == 4 then some 3
    else if write && (o.acc == .ro || o.acc == .const) then some 2
    else if !write && o.acc == .wo then some 2
    else if write && !r.isMbx && decide (s.roleOf r < o.role) then some 3
    else none

/-- UTF-8 (Table 16-4). -/
def utf8Ok : List Byte → Nat → Bool
  | [], k => k == 0
  | b :: l, k =>
    let x := b.toNat
    if k ≠ 0 then x / 64 == 2 && utf8Ok l (k - 1)
    else if x < 0x80 then utf8Ok l 0
    else if 0xC2 ≤ x ∧ x < 0xE0 then utf8Ok l 1
    else if 0xE0 ≤ x ∧ x < 0xF0 then utf8Ok l 2
    else if 0xF0 ≤ x ∧ x < 0xF5 then utf8Ok l 3
    else false

/-- Ranges that the object table does not give as two bounds. -/
def State.specialOk (s : State) (i sub : Nat) (v : List Byte) : Bool :=
  let x := leNat v
  if 0x1400 ≤ i ∧ i < 0x1800 then
    (match sub with
    | 0x01 => x != 2
    | 0x0E => x % 64 == 0
    | 0x17 => x % 64 == 0
    | 0x19 => x == 0 || decide (16 ≤ x)
    | 0x1A => x % 64 == 0
    | 0x1B => x % 65536 == 0
    | _ => true)
  else if 0x1110 ≤ i ∧ i < 0x1118 then
    let y := s.port (i - 0x1110)
    (match sub with
    | 1 => field v 0 1 % 2 == 0
    | 2 => field v 0 1 != 0xFF
    | 6 => decide (y.xon < x)
    | 7 => decide (x < y.xoff)
    | _ => true)
  else if i = 0x2103 ∧ sub = 2 then x != 3
  else if i = 0x8000 ∧ sub = 1 then x == 0 || decide (100 ≤ x)
  else if i = 0x5001 ∧ sub = 2 then decide (x % 65536 < 8)
  else if 0x5100 ≤ i ∧ i < 0x5200 ∧ sub = 2 then within 1 2 (field v 32 1)
  else if 0x2100 ≤ i ∧ i < 0x2104 ∧ sub = 1 then utf8Ok v 0
  else true

/-- TYPE or RANGE, when a value does not fit (R568). -/
def State.valueFail (s : State) (o : Obj) (i sub : Nat) (v : List Byte) : Option Nat :=
  let n := v.length
  let x := leNat v
  let sized := match o.ty with
    | .str => within 1 64 n
    | .blob none => if o.pers then decide (n ≤ 4064) else true
    | t => t.size == some n
  let inRange := match o.ty with
    | .bool => decide (x < 2)
    | .enum l => l.contains x
    | .u _ => within o.lo o.hi x
    | .time => within o.lo o.hi x
    | _ => true
  if !sized then some 5 else if inRange && s.specialOk i sub v then none else some 4

/-- Whether an RWL object's lock condition holds (R569). -/
def State.objLocked (s : State) (i sub : Nat) : Bool :=
  if 0x1110 ≤ i ∧ i < 0x1118 then decide (sub ≤ 8) && s.net.conns.any (fun p => p.2.port == i - 0x1110 && p.2.state != .disabled)
  else if 0x1400 ≤ i ∧ i < 0x1800 then decide (2 ≤ sub) && (s.conn (i - 0x1400)).state != .disabled
  else if 0x1800 ≤ i ∧ i < 0x1840 then decide (2 ≤ sub) && thas s.net.filters (i - 0x1800)
  else i == 0x5001 && leNat (s.stored 0x5001 5) == 1

/-! ## What a write answers -/

/-- A write is applied (with what follows its response), refused with a status, or answered later. -/
inductive Wr
  | done (s : State) (after : State → State)
  | fail (status : Nat)
  | wait (s : State)

def Wr.ok (s : State) : Wr := .done s (fun t => t)

/-- A value with Persistent "Y" is committed, then applied; STORE_FAIL keeps the old one (R570). -/
def State.persist (s : State) (key : Nat) (v : List Byte) : Wr :=
  match s.storePut key v with
  | some s => .ok (s.place key v)
  | none => .fail 0x0B

/-! ## Mode changes (R578 to R580) -/

/-- Units that a mode object addresses; none when the object is not one. -/
def State.modeUnits (s : State) (i sub : Nat) : Option Nat :=
  let k := s.capKey i sub
  if k = (0x2100 + s.profile, 3) then some (0xFF + 2 ^ 20)
  else if i = 0x4000 ∧ (sub = 1 ∨ sub = 2) then some 0xFF00
  else if i = 0x4000 ∧ sub = 3 then some 0xFF
  else if i = 0x8000 ∧ sub = 1 then some (2 ^ 23)
  else none

/-- Units that are not in reset, held or out of service. -/
def State.unitsUp (s : State) : Nat :=
  ((List.range 8).map (fun f =>
    (if (s.forme f).status = .inService then 2 ^ f else 0) + (if s.formeUp f then 2 ^ (8 + f) else 0))).sum + 0xFF0000

/-- The value of a mode object takes effect. -/
def State.applyMode (s : State) (i sub : Nat) (v : List Byte) : State :=
  let k := s.capKey i sub
  let s := s.place (okey k.1 k.2) v
  if k = (0x2100 + s.profile, 3) then { s with bnd := { s.bnd with capW := leNat v } } else s

/-- PREPARE goes out. -/
def State.startMode (s : State) (i sub units : Nat) (v : List Byte) (w : Waiter) : Wr :=
  if s.mgmt.change.isSome then .fail 7
  else
    let k := s.capKey i sub
    let c : ModeChange := { index := k.1, sub := k.2, value := v, old := s.readObj i sub false, prepare := s.now, applied := false, waiter := w }
    .wait { s with mgmt := { s.mgmt with change := some c, modeState := .preparing, commitTick := s.now + 150000,
                                         target := units &&& s.unitsUp, missed := 0 } }

/-! ## Firmware updates (R549 to R553) -/

def State.modFw (s : State) (f : FwSt → FwSt) : State := { s with sec := { s.sec with fw := f s.sec.fw } }
def FwSt.inProgress (x : FwSt) : Bool := !(x.state == .idle || x.state == .failed)
/-- The inactive slot of the target kind. -/
def FwSt.freeSlot (x : FwSt) : Nat := if x.target = 1 then 1 - x.sel.fs1 else 1 - x.sel.main

/-- FW_IMAGE: the image goes to the inactive slot. -/
def State.fwProgram (s : State) (v : List Byte) : Wr :=
  let x := s.sec.fw
  if x.inProgress then .fail 7
  else if fwSlotSize x.target < v.length then .fail 4
  else if s.bnd.store.fault then .fail 0x0B
  else
    let a := fwAddr x.target x.freeSlot
    .ok (((s.flashErase a (fwSlotSize x.target)).flashWrite a v).modFw (fun x => { x with state := .programmed }))

/-- ACTIVATE: a ledger flush, then the jump to the new half (Table 15-18). -/
def State.activateNow (s : State) : State :=
  let tot := s.periodTotals
  let s := if s.mgmt.ledger.valid then
      s.modLedger (fun l => { l with openRec := tot, lastFlush := s.now, seq := (l.seq + 1) % 2 ^ 32 }) else s
  match s.sec.fw.staged with
  | some im => s.modFw (fun x => { x with
      old := some x.main, main := im, half := 1 - x.half, staged := none, state := .trial, trial := some s.now, activating := none })
  | none => s.modFw (fun x => { x with activating := none })

/-- The MC jumps back to the old half. -/
def FwSt.back (x : FwSt) (st : FwState) : FwSt :=
  { x with
    main := x.old.getD x.main, half := if x.old.isSome then 1 - x.half else x.half, old := none, staged := none, trial := none, state := st }

/-- FW_CMD: 1 VERIFY, 2 STAGE, 3 ACTIVATE, 4 CONFIRM, 5 SELECT_FS1, 6 ABORT. -/
def State.fwCmd (s : State) (owner : Bool) (cmd : Nat) (w : Waiter) : Wr :=
  let x := s.sec.fw
  let slot := x.freeSlot
  let set (st : FwState) : Wr := .ok (s.modFw (fun x => { x with state := st }))
  if (cmd = 4 ∨ cmd = 5) ∧ !owner then .fail 3
  else if x.trial.isSome && cmd != 6 then .fail 7
  else match cmd with
    | 1 =>
      if x.state ≠ .programmed then .fail 6
      else set (if !s.sec.keyless && s.fwValid x.target slot then .verified else .failed)
    | 2 =>
      if x.state ≠ .verified ∨ x.target ≠ 2 then .fail 6
      else
        let im := s.fwImage 2 slot
        if toBE 48 im.digest = ((s.fwHeader 2 slot).drop 0x20).take 48 then
          .ok (s.modFw (fun x => { x with state := .staged, staged := some im }))
        else set .failed
    | 3 =>
      if x.state ≠ .staged then .fail 6
      else if s.mgmt.change.isSome then .wait (s.modFw (fun x => { x with activating := some w }))
      else .ok s.activateNow
    | 4 =>
      if x.state ≠ .trial then .fail 6
      else if s.bnd.store.fault then .fail 0x0B
      else .ok ((s.writeBootsel (fun b => { b with main := x.main.slot })).modFw (fun x => { x with state := .idle, old := none }))
    | 5 =>
      if x.state ≠ .verified ∨ x.target ≠ 1 then .fail 6
      else if s.bnd.store.fault then .fail 0x0B
      else .ok ((s.writeBootsel (fun b => { b with fs1 := slot, trial := 1 })).modFw (fun x => { x with state := .idle }))
    | _ => if x.inProgress then .ok (s.modFw (fun x => x.back .idle)) else .fail 6

/-- ARB_COMMIT (R550): up to the lower SVN of the active images. -/
def State.arbCommit (s : State) : State :=
  { s with sec := { s.sec with arb := max s.sec.arb (min s.sec.fw.fs1.svn s.sec.fw.main.svn) } }

/-- REVOKE (R548): a record signed by another signer that is not revoked. -/
def State.fwRevoke (s : State) (v : List Byte) : Wr :=
  match Config.revocation v with
  | some (k, by_) =>
    if k < 4 ∧ by_ < 4 ∧ k ≠ by_ ∧ !s.sec.revoked.contains by_ then .ok { s with sec := { s.sec with revoked := s.sec.revoked.insert k } }
    else .fail 4
  | none => .fail 4

/-! ## Security objects -/

/-- INSTALL (R538): key (32 B), ATTR, owner. -/
def State.install (s : State) (n : Nat) (v : List Byte) (w : Waiter) : Wr :=
  let owner := field v 33 1
  let k := s.kslot n
  let mine := k.state != .empty && k.owner == some owner
  if !bit s.sec.prot.keyPolicy 0 || s.sec.keyless || !s.assignable n || (s.inst owner).state == .off
      || decide (s.maxSlots < s.ownedSlots owner + (if mine then 0 else 1)) then .fail 6
  else if k.state = .pending then .fail 0x0A
  else if k.state = .empty then .ok (s.fillSlot n (field v 32 1) 1 5 (some owner) (beField v 0 32) none)
  else .wait (s.pendSlot n ⟨field v 32 1, 5, some owner, beField v 0 32, false, w⟩)

/-- CLAIM (R566): the first owner key. -/
def State.claim (s : State) (v : List Byte) : Wr :=
  if s.mgmt.opKeys.any (fun p => p.2.role == 3) then .fail 6
  else match (s.storePut (okey 0x5010 1) v).bind (fun t => t.storePut (okey 0x5010 2) [3]) with
    | some s => .ok ((s.place (okey 0x5010 1) v).place (okey 0x5010 2) [3])
    | none => .fail 0x0B

/-! ## Quotas (R574) -/

/-- A quota object as a QUOTA_SET: KIND, PLATEN_MASK, VALUE and DEPTH; none when the object refuses. -/
def State.quotaOf (s : State) (inst sub x : Nat) : Option (Nat × Nat × Nat × Nat) :=
  let top := 2 ^ 64 - 1
  if sub < 0x17 then some (sub - 0x10, 0, x, 0)
  else if sub = 0x17 then
    let d := (s.inst inst).budget.setting.2
    some (7, 0, x, if x = top then 0 else if d = top then x else d)
  else if sub = 0x18 then
    let v := (s.inst inst).budget.setting.1
    if v = top then none else some (7, 0, v, x)
  else if sub < 0x28 then
    let d := (s.rateSetting inst (sub - 0x20)).2
    some (0, 2 ^ (sub - 0x20), x, if x = 0xFFFFFFFF then 0 else if d = 0xFFFFFFFF then x else d)
  else
    let r := (s.rateSetting inst (sub - 0x28)).1
    if r = 0xFFFFFFFF then none else some (0, 2 ^ (sub - 0x28), r, x)

def State.quotaWrite (s : State) (inst sub x : Nat) : Wr :=
  if (s.inst inst).state = .off ∨ (s.inst inst).state = .resetting then .fail 6
  else match s.quotaOf inst sub x with
    | none => .fail 6
    | some (k, m, v, d) => if (quotaFail k m v d).isSome then .fail 4 else .ok (s.setQuota k inst m v d)

/-! ## Objects that act (WO), and those that live in a unit -/

/-- A held forme comes back (R485). -/
def State.release (s : State) (f : Nat) : Wr :=
  if (s.forme f).status ≠ .held then .fail 6
  else if (s.stack f).state = .inService then .ok (s.formeBack f)
  else .ok (State.evalFaultPin (s.setForme f { s.forme f with status := .outOfService }))

/-- WALL_SET (R401). -/
def State.wallSet (s : State) (ns : Nat) : State :=
  s.modLedger (fun l => { l with
    wallBase := some (ns, s.now),
    wallStep := l.wallStep || (match l.wallBase with
      | some _ => decide (l.wallAt s.now + 1000000 ≤ ns) || decide (ns + 1000000 ≤ l.wallAt s.now)
      | none => false) })

/-- RESET_REQ: the response goes out, then the start or request happens (R583, R588, R604). -/
def State.resetReq (s : State) (owner : Bool) (x : Nat) : Wr :=
  if 2 ≤ x ∧ !owner then .fail 3
  else .done s (fun t => if x = 1 then t.triggerWarm else if x = 2 then t.triggerCold else t.requestPowerCycle 0)

/-- A raw filter as its objects give it (R460). -/
def State.rawFilter (s : State) (n : Nat) : RawFilter :=
  let v (sub : Nat) : List Byte := s.stored (0x1800 + n) sub
  ⟨leNat (v 2), beNat (v 3), leNat (v 4), leNat (v 5), leNat (v 6)⟩

/-- STATE of a connection (R450, R573). -/
def State.connState (s : State) (c x : Nat) : Wr :=
  if x = 0 then .ok (if thas s.net.conns c then s.closeConn c else s)
  else if s.openOk c then .ok (s.openConn c) else .fail 6

/-- What a write does, once it may be made. -/
def State.setValue (s : State) (r : Requester) (op tag i sub : Nat) (o : Obj) (v : List Byte) : Wr :=
  let x := leNat v
  let w := r.waiter op tag i sub
  let owner := s.roleOf r == 3
  match s.modeUnits i sub with
  | some units => s.startMode i sub units v w
  | none =>
    if 0x1400 ≤ i ∧ i < 0x1800 then
      (if sub = 1 then s.connState (i - 0x1400) x
       else .ok { s with net := { s.net with conns := tput s.net.conns (i - 0x1400) ((s.conn (i - 0x1400)).put sub v) } })
    else if 0x1800 ≤ i ∧ i < 0x1840 ∧ sub = 1 then
      let l := if x = 1 then tput s.net.filters (i - 0x1800) (s.rawFilter (i - 0x1800)) else tdel s.net.filters (i - 0x1800)
      .ok { s with net := { s.net with filters := l } }
    else if i = 0x2000 then .ok { s with mgmt := { s.mgmt with nextProfile := x } }
    else if i = 0x2020 then s.resetReq owner x
    else if i = 0x2030 then
      let left := s.mgmt.alert &&& (0xFFFFFFFF ^^^ x)
      .ok { s with mgmt := { s.mgmt with alert := left }, bnd := { s.bnd with alert := left != 0 } }
    else if 0x4010 ≤ i ∧ i < 0x4018 then (if x = 1 then s.release (i - 0x4010) else .ok s)
    else if 0x4020 ≤ i ∧ i < 0x4028 then
      (if x = 0 then .ok s
       else if (s.stack (i - 0x4020)).state = .out then .ok (s.setStack (i - 0x4020) .training) else .fail 6)
    else if i = 0x5020 then s.claim v
    else if 0x5100 ≤ i ∧ i < 0x5200 then s.install (i - 0x5100) v w
    else if 0x5010 ≤ i ∧ i < 0x5018 then
      (match s.persist (okey i sub) v with
      | .done s _ => .done s (fun t => (t.mgmt.sessions.filter (fun p => p.2.entry == i - 0x5010)).foldl (fun t p => t.endSession p.1) t)
      | e => e)
    else if 0x6100 ≤ i ∧ i < 0x6200 then s.quotaWrite (i - 0x6100) sub x
    else if i = 0x7000 ∧ sub = 2 then .ok (s.wallSet x)
    else if i = 0x9001 then
      (match sub with
      | 1 => s.fwProgram v
      | 2 => if s.sec.fw.inProgress then .fail 7 else .ok (s.modFw (fun y => { y with target := x }))
      | _ => s.fwCmd owner x w)
    else if i = 0x9002 then (if sub = 1 then .ok (if x = 1 then s.arbCommit else s) else s.fwRevoke v)
    else if o.pers then s.persist (okey i sub) v
    else .ok (s.place (okey i sub) v)

/-! ## The operations (R567) -/

/-- SET, or the last chunk of a BLOB_WRITE: checks, lock, effect, response. -/
def State.doSet (s : State) (r : Requester) (op tag i sub : Nat) (v : List Byte) : State :=
  let answer (s : State) (st : Nat) (dropped : Bool) : State := s.reply r op tag i sub st dropped []
  match s.accessFail r i sub true, objInfo i sub with
  | some st, _ => answer s st false
  | none, none => answer s 1 false
  | none, some o =>
    match s.valueFail o i sub v with
    | some st => answer s st false
    | none =>
      if o.acc = .rwl ∧ s.objLocked i sub then
        answer (s.lockViolation (okey i sub) (if r.isMbx then some 0 else none)) 0 true
      else match s.setValue r op tag i sub o v with
        | .done t after => after (answer t 0 false)
        | .fail st => answer s st false
        | .wait t => t

/-- A diagnostics read draws fresh values. -/
def State.afterRead (s : State) (i : Nat) : State := if i = 0xA000 then { s with fresh := s.fresh + 1 } else s

/-- GET; a WO object answers ACCESS with a value of zeros (R569). -/
def State.doGet (s : State) (r : Requester) (tag i sub : Nat) : State :=
  let v := s.readObj i sub r.isMbx
  match s.accessFail r i sub false with
  | some st => s.reply r 1 tag i sub st false (if st = 2 then v.take r.room else [])
  | none => if r.room < v.length then s.reply r 1 tag i sub 0x0C false [] else (s.reply r 1 tag i sub 0 false v).afterRead i

def OTy.facts (t : OTy) : List Nat :=
  match t with
  | .bool => [0]
  | .u n => [1, n]
  | .i n => [2, n]
  | .f32 => [3]
  | .time => [4]
  | .str => [5]
  | .blob n => 6 :: n.toList
  | .enum l => 7 :: l

/-- INFO: type, access, role, default, persistence and range. -/
def State.doInfo (s : State) (r : Requester) (tag i sub : Nat) : State :=
  match objInfo i sub with
  | none => s.reply r 3 tag i sub 1 false []
  | some o =>
    if !s.served i then s.reply r 3 tag i sub 9 false []
    else if r.isMbx && !o.h then s.reply r 3 tag i sub 3 false []
    else
      let acc := match o.acc with | .ro => 0 | .rw => 1 | .wo => 2 | .const => 3 | .rwl => 4
      s.reply r 3 tag i sub 0 false (Config.infoEncode ([acc, o.role, b2n o.h, b2n o.pers, o.lo, o.hi] ++ o.ty.facts) o.dflt)

def OTy.isBlob (t : OTy) : Bool := match t with | .blob _ => true | _ => false

/-- BLOB_READ. -/
def State.doBlobRead (s : State) (r : Requester) (tag i sub off len : Nat) : State :=
  let answer (st : Nat) (v : List Byte) : State := s.reply r 4 tag i sub st false v
  if r.chunk < len then answer 0x0C []
  else match s.accessFail r i sub false, objInfo i sub with
    | some st, _ => answer st []
    | none, none => answer 1 []
    | none, some o =>
      if !o.ty.isBlob then answer 5 []
      else
        let d := ((s.readObj i sub r.isMbx).drop off).take len
        (answer 0 (toLE 4 off ++ toLE 2 d.length ++ d)).afterRead i

def State.blobOf (s : State) (r : Requester) : Option BlobWr :=
  match r with
  | .session n => (tget s.mgmt.sessions n).bind (fun x => x.blob)
  | .mailbox => s.mgmt.mbx.blob

def State.setBlob (s : State) (r : Requester) (b : Option BlobWr) : State :=
  match r with
  | .session n => s.modSess n (fun x => { x with blob := b })
  | .mailbox => { s with mgmt := { s.mgmt with mbx := { s.mgmt.mbx with blob := b } } }

/-- Whether another requester writes the blob (BUSY). -/
def State.blobBusy (s : State) (r : Requester) (i sub : Nat) : Bool :=
  let it (b : Option BlobWr) : Bool := match b with | some b => b.index == i && b.sub == sub | none => false
  s.mgmt.sessions.any (fun p => it p.2.blob && r != .session p.1) || (it s.mgmt.mbx.blob && r != .mailbox)

/-- BLOB_WRITE: chunks in ascending OFFSET order; the object is applied at the chunk that has LAST set. -/
def State.doBlobWrite (s : State) (r : Requester) (tag i sub : Nat) (last : Bool) (off : Nat) (d : List Byte) : State :=
  let answer (s : State) (st : Nat) : State := s.reply r 5 tag i sub st false []
  if r.chunk < d.length then answer s 0x0C
  else match s.accessFail r i sub true, objInfo i sub with
    | some st, _ => answer s st
    | none, none => answer s 1
    | none, some o =>
      if !o.ty.isBlob then answer s 5
      else if s.blobBusy r i sub then answer s 7
      else
        let so := if off = 0 then some [] else match s.blobOf r with
          | some b => if b.index = i ∧ b.sub = sub ∧ b.bytes.length = off then some b.bytes else none
          | none => none
        match so with
        | none => answer s 0x0C
        | some l =>
          if last then (s.setBlob r none).doSet r 5 tag i sub (l ++ d)
          else answer (s.setBlob r (some ⟨i, sub, l ++ d⟩)) 0

/-- SUBSCRIBE; the mailbox has no session. -/
def State.doSubscribe (s : State) (r : Requester) (tag i sub mask : Nat) : State :=
  match r with
  | .session n => (s.modSess n (fun x => { x with mask := mask })).reply r 6 tag i sub 0 false []
  | .mailbox => s.reply r 6 tag i sub 3 false []

/-- CLOSE. -/
def State.doClose (s : State) (r : Requester) (tag i sub : Nat) : State :=
  match r with
  | .session n => (s.reply r 7 tag i sub 0 false []).endSession n
  | .mailbox => s.reply r 7 tag i sub 3 false []

/-- One message of a requester: the length of a value in the mailbox is its type's. -/
def State.message (s : State) (r : Requester) (m : List Byte) : State :=
  let op := field m 0 1
  let fl := field m 1 1
  let tag := field m 2 2
  let i := field m 4 2
  let sub := field m 6 1
  let v := m.drop 8
  s.request r op tag i sub (fun s =>
    let bad (s : State) : State := s.reply r (op % 128) tag i sub 0x0C false []
    if m.length < 8 ∨ field m 7 1 ≠ 0 ∨ 1 < fl ∨ (fl = 1 ∧ op ≠ 5) then bad s
    else match op with
      | 1 => s.doGet r tag i sub
      | 2 =>
        let v := if r.isMbx then v.take (((objInfo i sub).bind (fun o => o.ty.size)).getD v.length) else v
        s.doSet r 2 tag i sub v
      | 3 => s.doInfo r tag i sub
      | 4 => if v.length < 6 then bad s else s.doBlobRead r tag i sub (field v 0 4) (field v 4 2)
      | 5 =>
        let n := field v 4 2
        if v.length < 6 + n ∨ (!r.isMbx ∧ v.length ≠ 6 + n) then bad s
        else s.doBlobWrite r tag i sub (fl == 1) (field v 0 4) ((v.drop 6).take n)
      | 6 => if v.length < 4 then bad s else s.doSubscribe r tag i sub (field v 0 4)
      | 7 => s.doClose r tag i sub
      | _ => bad s)

end Sys2Proof.Machine
end

