-- ==== Sys2Proof/Machine/Manage.lean ====
section
/-! DEFINITION. The meanings of the management network's datagrams and timers and of the messages they carry
(16_dictionary.md R558 to R567, R571, R581, R582). -/

namespace Sys2Proof.Machine

/-- A second, in ticks. -/
def second : Nat := 100000000

/-! ## The mailbox -/

/-- MBX_GO: the message in MBX_REQ is executed. -/
def execMbxGo (s : State) : Res :=
  if s.up || s.bnd.power == .safe then .next ((s.message .mailbox (mread s.mgmt.mbx.req 0 1008)).settle) else .next s

/-! ## The MAC-PHY (R558) -/

/-- A control transaction with the MAC-PHY succeeds or fails; the third failure in succession takes it out of use. -/
def State.phyControl (s : State) (ok : Bool) : State :=
  let n := if ok then 0 else s.mgmt.phyFails + 1
  { s with mgmt := { s.mgmt with
    phyFails := n, macPhy := s.mgmt.macPhy && decide (n < 3), phyRetry := if n = 3 then s.now else s.mgmt.phyRetry } }

/-- MGT_IRQ: the MC serves the interrupt, its control transaction succeeding or not. -/
def execMgtIrq (ok : Bool) (s : State) : Res :=
  if s.mgmtUp && s.mgmt.macPhy then .next (s.phyControl ok) else .next s

/-- MACPHY_RETRY: every 1 s; the network is available again once a retry succeeds. -/
def execMacphyRetry (ok : Bool) (s : State) : Res :=
  if s.mgmtUp && !s.mgmt.macPhy && decide (s.mgmt.phyRetry + second ≤ s.now) then
    .next { s with mgmt := { s.mgmt with macPhy := ok, phyFails := if ok then 0 else s.mgmt.phyFails, phyRetry := s.now } }
  else .next s

/-! ## Neighbour discovery (R559) -/

/-- fe80::/64 with the modified EUI-64 of MGT_MAC. -/
def mgtAddress : Nat :=
  let m := Config.mgtMac
  0xFE80 * 2 ^ 112 + (m / 2 ^ 24 ^^^ 0x020000) * 2 ^ 40 + 0xFFFE * 2 ^ 24 + m % 2 ^ 24

/-- A neighbour advertisement (RFC 4861, PRESUMED): Ethernet, IPv6 and ICMPv6 headers, target, link-layer address. -/
def neighbourReply (mac src : Nat) : List Byte :=
  let body := toBE 4 0x60000000 ++ toBE 16 mgtAddress ++ toBE 1 2 ++ toBE 1 1 ++ toBE 6 Config.mgtMac
  let pseudo := toBE 16 mgtAddress ++ toBE 16 src ++ toBE 4 32 ++ toBE 4 58
  let sum := inetSum (pseudo ++ toBE 2 0x8800 ++ toBE 2 0 ++ body)
  toBE 6 mac ++ toBE 6 Config.mgtMac ++ toBE 2 0x86DD ++ toBE 4 0x60000000 ++ toBE 2 32 ++ toBE 1 58 ++ toBE 1 255
    ++ toBE 16 mgtAddress ++ toBE 16 src ++ toBE 2 0x8800 ++ toBE 2 sum ++ body

/-- NEIGHBOUR_SOLICITATION for a target from an address; only the block's own address is answered. -/
def execNeighbourSolicitation (target mac src : Nat) (s : State) : Res :=
  if s.mgmtUp && s.mgmt.macPhy && target == mgtAddress then .next { s with out := s.out ++ [.mgt (neighbourReply mac src)] }
  else .next s

/-! ## Opening a session (R561, R563) -/

/-- The header of a datagram is good: MAGIC, VERSION, and the KIND expected. -/
def apgusOk (l : List Byte) (kind : Nat) : Bool :=
  field l 0 2 == 0x4147 && field l 2 1 == 1 && field l 3 1 == kind

def State.helloFail (s : State) : State :=
  { s with mgmt := { s.mgmt with helloFails := (s.mgmt.helloFails + 1) % 2 ^ 32 } }
def State.recordDrop (s : State) : State :=
  { s with mgmt := { s.mgmt with recordDrops := (s.mgmt.recordDrops + 1) % 2 ^ 32 } }

/-- A free session slot among 3 to 10. -/
def State.freeSessionSlot (s : State) : Option Nat :=
  ((List.range 8).map (fun k => k + 3)).find? (fun n =>
    (s.kslot n).state == .empty && !s.sec.retiredSlots.contains n && !s.mgmt.sessions.any (fun p => p.2.slot == n))

/-- A session number: nonzero, from the DRBG, not in use. -/
def State.sessionNo (s : State) : Nat × State :=
  let r := s.draw 32
  let n (k : Nat) : Nat := (r.1 + k) % (2 ^ 32 - 1) + 1
  (n (((List.range 9).find? (fun k => !thas r.2.mgmt.sessions (n k))).getD 0), r.2)

/-- HELLO, as its datagram's bytes. -/
def execHello (l : List Byte) (s : State) : Res :=
  if !s.mgmtUp || !s.mgmt.macPhy then .next s
  else
    let recent := s.mgmt.hellos.filter (fun t => decide (s.now < t + second))
    let body := l.drop 16
    let qc := beField body 40 96
    match s.freeSessionSlot with
    | none => .next s.helloFail
    | some slot =>
      if !apgusOk l 1 || field l 4 4 != 0 || field l 8 8 != 0 || body.length != 136 || s.sec.keyless || decide (16 ≤ recent.length)
          || !ecValid qc then .next s.helloFail
      else
        let no := s.sessionNo
        let nonce := no.2.draw 256
        let e := nonce.2.draw 384
        let d := e.1 % (p384Order - 1) + 1
        let head := toBE 32 nonce.1 ++ toBE 96 (ecPublic d)
        let sig := e.2.signDik (body ++ head ++ toLE 4 no.1 ++ toLE 8 Config.serial)
        let reply := head ++ sig.1
        let x : SessSt := { opened := false, entry := field body 0 1, role := 0, slot := slot, digest := sha384 (body ++ reply),
                            z := ecShared d qc, since := s.now, lastIn := 0, lastOut := 0, mask := 0, replies := [], blob := none }
        let s : State := sig.2
        let s := { s with mgmt := { s.mgmt with sessions := tput s.mgmt.sessions no.1 x, hellos := recent ++ [s.now] } }
        .next (s.sendDatagram no.1 2 (apgusHeader 2 no.1 0 ++ reply))

/-- FINISH, as its datagram's bytes. -/
def execApgusFinish (l : List Byte) (s : State) : Res :=
  if !s.mgmtUp || !s.mgmt.macPhy then .next s
  else
    let n := field l 4 4
    match tget s.mgmt.sessions n with
    | none => .next s.helloFail
    | some x =>
      if !apgusOk l 3 || field l 8 8 != 0 || l.length != 112 || x.opened then .next s.helloFail
      else
        let e := (tget s.mgmt.opKeys x.entry).getD ⟨0, 0⟩
        let good := !s.sec.keyless && decide (s.now ≤ x.since + second) && e.role != 0 && e.pub != 0
          && ecdsaVerify e.pub x.digest (beField l 16 96)
        if good then
          let key := kdf (toBE 48 x.z) "APGUS-SESSION" (toBE 48 x.digest) 512
          .next ((s.fillSlot x.slot 3 1 3 none key none).modSess n (fun y => { y with opened := true, role := e.role, z := 0, since := s.now }))
        else .next (State.helloFail { s with mgmt := { s.mgmt with sessions := tdel s.mgmt.sessions n } })

/-- HANDSHAKE_TIMEOUT of session n. -/
def execHandshakeTimeout (n : Nat) (s : State) : Res :=
  match tget s.mgmt.sessions n with
  | none => .next s
  | some x =>
    if !x.opened && decide (x.since + second < s.now) then .next { s with mgmt := { s.mgmt with sessions := tdel s.mgmt.sessions n } }
    else .next s

/-! ## Records (R564, R565) -/

/-- RECORD, as its datagram's bytes: the client's key is the first half of the slot's. -/
def execRecord (l : List Byte) (s : State) : Res :=
  if !s.mgmtUp || !s.mgmt.macPhy then .next s
  else
    let n := field l 4 4
    let seq := field l 8 8
    match tget s.mgmt.sessions n with
    | none => .next s.recordDrop
    | some x =>
      if !apgusOk l 4 || !x.opened || decide (seq ≤ x.lastIn) || decide (l.length < 32) then .next s.recordDrop
      else
        let ct := (l.drop 16).take (l.length - 32)
        match gcmDecrypt ((s.kslot x.slot).key / 2 ^ 256) seq (l.take 16) ct (l.drop (l.length - 16)) with
        | none => .next s.recordDrop
        | some m => .next (((s.modSess n (fun y => { y with lastIn := seq, since := s.now })).message (.session n) m).settle)

/-- SESSION_IDLE_TIMEOUT of session n. -/
def execSessionIdleTimeout (n : Nat) (s : State) : Res :=
  match tget s.mgmt.sessions n with
  | none => .next s
  | some x =>
    if x.opened && decide (x.since + s.objNat (okey 0x1001 5) 300 * second ≤ s.now) then .next (s.endSession n) else .next s

/-! ## The operations (R567), as requests of an open session or the mailbox -/

/-- GET. -/
def execGet (r : Requester) (tag i sub : Nat) (s : State) : Res :=
  .next (s.request r 1 tag i sub (fun s => s.doGet r tag i sub))

/-- SET. -/
def execSet (r : Requester) (tag i sub : Nat) (v : List Byte) (s : State) : Res :=
  .next ((s.request r 2 tag i sub (fun s => s.doSet r 2 tag i sub v)).settle)

/-- APGUS_INFO. -/
def execApgusInfo (r : Requester) (tag i sub : Nat) (s : State) : Res :=
  .next (s.request r 3 tag i sub (fun s => s.doInfo r tag i sub))

/-- BLOB_READ. -/
def execBlobRead (r : Requester) (tag i sub off len : Nat) (s : State) : Res :=
  .next (s.request r 4 tag i sub (fun s => s.doBlobRead r tag i sub off len))

/-- BLOB_WRITE. -/
def execBlobWrite (r : Requester) (tag i sub : Nat) (last : Bool) (off : Nat) (d : List Byte) (s : State) : Res :=
  .next ((s.request r 5 tag i sub (fun s => s.doBlobWrite r tag i sub last off d)).settle)

/-- SUBSCRIBE. -/
def execSubscribe (r : Requester) (tag mask : Nat) (s : State) : Res :=
  .next (s.request r 6 tag 0 0 (fun s => s.doSubscribe r tag 0 0 mask))

/-- CLOSE. -/
def execClose (r : Requester) (tag : Nat) (s : State) : Res :=
  .next (s.request r 7 tag 0 0 (fun s => s.doClose r tag 0 0))

/-! ## What the block sends on its own (R581, R582) -/

/-- Payload of TELEMETRY: DRAW, K and TEMP_C of each forme, STACK_TEMP of each stack. -/
def State.telemetry (s : State) : List Byte :=
  s.drawBytes false
    ++ (List.range 8).flatMap (fun f => toLE 1 (s.forme f).k ++ toLEi 2 ((tget s.bnd.hot f).getD 0))
    ++ (List.range 8).flatMap (fun k => toLE 2 (s.stack k).temp)

/-- TELEMETRY_TICK. -/
def execTelemetryTick (s : State) : Res :=
  let ms := s.objNat (okey 0x8000 1) 0
  if s.up && ms != 0 && decide (s.mgmt.lastTelemetry + ms * 100000 ≤ s.now) then
    .next (State.notify { s with mgmt := { s.mgmt with lastTelemetry := s.now } } 6 s.telemetry)
  else .next s

/-- BEACON: with it POWER_CYCLE is repeated to every session. -/
def execBeacon (s : State) : Res :=
  if s.mgmtUp && s.bnd.pwrcyc && decide (s.mgmt.lastBeacon + second ≤ s.now) then
    let l := toLE 8 Config.serial ++ toLE 4 s.fm.boot ++ toLE 2 s.mgmt.beaconCode ++ toLE 8 s.mgmt.beaconTick
    let sig := if s.sec.keyless then (toLE 96 0, s) else s.signDik l
    let s : State := sig.2
    let s := { s with mgmt := { s.mgmt with lastBeacon := s.now } }
    let s := s.sendDatagram 0 5 (apgusHeader 5 0 0 ++ l ++ sig.1)
    .next (s.notify 1 (toLE 2 s.mgmt.beaconCode ++ toLE 4 s.fm.boot ++ toLE 8 s.mgmt.beaconTick))
  else .next s

end Sys2Proof.Machine
end

