-- ==== Sys2Proof/Machine/Objects.lean ====
section
/-! DEFINITION. The meanings of writes of particular dictionary objects, the phases of a mode change, the trial of a new
firmware and the PROFILE subops (16_dictionary.md R573 to R580; 15_security.md R538, R539, R548 to R553). -/

namespace Sys2Proof.Machine

/-- A write of one object as a request. -/
def State.setRequest (s : State) (r : Requester) (tag i sub : Nat) (v : List Byte) : State :=
  (s.request r 2 tag i sub (fun s => s.doSet r 2 tag i sub v)).settle

/-- CONNECTION_OPEN of connection c. -/
def execConnectionOpen (r : Requester) (tag c : Nat) (s : State) : Res :=
  if c < 1024 then .next (s.setRequest r tag (0x1400 + c) 1 [1]) else .next s

/-- CONNECTION_DISABLE of connection c. -/
def execConnectionDisable (r : Requester) (tag c : Nat) (s : State) : Res :=
  if c < 1024 then .next (s.setRequest r tag (0x1400 + c) 1 [0]) else .next s

/-! ## Mode changes (R578, R579) -/

/-- MODE_CHANGE: a write of a mode object. -/
def execModeChange (r : Requester) (tag i sub : Nat) (v : List Byte) (s : State) : Res :=
  if (s.modeUnits i sub).isSome then .next (s.setRequest r tag i sub v) else .next s

/-- A change has ended: its NOTIFY goes out, and an ACTIVATE that waited is done (R580, R581). -/
def State.modeEnded (s : State) : State :=
  let s := { s with mgmt := { s.mgmt with change := none } }
  let s := s.notify 5 (toLE 4 s.mgmt.modeGen ++ toLE 1 s.mgmt.modeState.code ++ toLE 4 s.mgmt.missed)
  match s.sec.fw.activating with
  | some w => s.activateNow.answer w 0 0 0
  | none => s

/-- PREPARE_DEADLINE: the units of `missed` have not acknowledged by P + 100,000; units that entered reset are left out. -/
def execPrepareDeadline (missed : Nat) (s : State) : Res :=
  match s.mgmt.change with
  | none => .next s
  | some c =>
    let target := s.mgmt.target &&& s.unitsUp
    let m := missed &&& target
    if c.applied || decide (s.now < c.prepare + 100000) || m == 0 then .next s
    else
      let s := { s with mgmt := { s.mgmt with target := target, missed := m, modeState := .aborted } }
      .next ((s.answer c.waiter 0 0 8).modeEnded).settle

/-- MODE_COMMIT: at T every unit of the target applies the value. -/
def execModeCommit (s : State) : Res :=
  match s.mgmt.change with
  | none => .next s
  | some c =>
    if c.applied || decide (s.now < c.prepare + 150000) then .next s
    else
      let target := s.mgmt.target &&& s.unitsUp
      let units := (s.modeUnits c.index c.sub).getD 0
      let s := s.applyMode c.index c.sub c.value
      .next { s with mgmt := { s.mgmt with
        change := some { c with applied := true }, target := target, modeState := .committed, modeGen := s.mgmt.modeGen + 1,
        modeUse := units } }

/-- A unit of the mask failed to apply or confirm: a fault at its unit's level, INFO0 the mode generation (R579). -/
def State.modeFault (s : State) (b : Nat) : State :=
  let mk (code unit l : Nat) : FaultRec := { faultOf code with unitType := unit, logical := l, phys := l, info0 := s.mgmt.modeGen }
  if b < 8 then s.takeFault (mk 0x8FFF 0x04 b) (.forme b)
  else if b < 16 then s.takeFault (mk 0x8FFF 0x05 (b - 8)) (.forme (b - 8))
  else
    let unit := match b with | 16 => 0x07 | 17 => 0x08 | 18 => 0x0A | 19 => 0x09 | 22 => 0x0F | _ => 0x0E
    s.takeFault (mk 0xAFFF unit 0) .block

/-- CONFIRM_DEADLINE: confirmations close; the units of `failed` did not apply or confirm. -/
def execConfirmDeadline (failed : Nat) (s : State) : Res :=
  match s.mgmt.change with
  | none => .next s
  | some c =>
    let bad := failed &&& s.mgmt.target
    if !c.applied || (bad != 0 && decide (s.now < c.prepare + 250000)) then .next s
    else
      let s := { s with mgmt := { s.mgmt with applied := (s.mgmt.target &&& (0xFFFFFFFF ^^^ bad)) } }
      let s := s.answer c.waiter 0 0 0
      let s := (s.storePut (okey c.index c.sub) c.value).getD s
      let s := s.modeEnded
      let s := if bad = 0 then s else s.raiseAlert 32
      .next (((List.range 24).filter (fun b => bit bad b)).foldl (fun s b => s.modeFault b) s).settle

/-! ## Profiles, quotas, resets -/

/-- NEXT_PROFILE: 0 to 3, or 0xFF for none. -/
def execNextProfile (r : Requester) (tag p : Nat) (s : State) : Res := .next (s.setRequest r tag 0x2000 2 (toLE 1 p))

/-- QUOTA_OBJECT_WRITE of a quota object of instance i. -/
def execQuotaObjectWrite (r : Requester) (tag i sub : Nat) (v : List Byte) (s : State) : Res :=
  if decide (i < 256) && decide (0x11 ≤ sub) then .next (s.setRequest r tag (0x6100 + i) sub v) else .next s

/-- RESET_REQ 1. -/
def execResetReqWarm (r : Requester) (tag : Nat) (s : State) : Res := .next (s.setRequest r tag 0x2020 1 [1])
/-- RESET_REQ 2. -/
def execResetReqCold (r : Requester) (tag : Nat) (s : State) : Res := .next (s.setRequest r tag 0x2020 1 [2])
/-- RESET_REQ 3. -/
def execResetReqPowerCycle (r : Requester) (tag : Nat) (s : State) : Res := .next (s.setRequest r tag 0x2020 1 [3])

/-- ALERT_ACK. -/
def execAlertAck (r : Requester) (tag mask : Nat) (s : State) : Res := .next (s.setRequest r tag 0x2030 2 (toLE 4 mask))

/-- RELEASE of forme f. -/
def execRelease (r : Requester) (tag f : Nat) (s : State) : Res :=
  if f < 8 then .next (s.setRequest r tag (0x4010 + f) 2 [1]) else .next s

/-- TRAIN_REQ of stack k. -/
def execTrainReq (r : Requester) (tag k : Nat) (s : State) : Res :=
  if k < 8 then .next (s.setRequest r tag (0x4020 + k) 1 [1]) else .next s

/-- WALL_SET. -/
def execWallSet (r : Requester) (tag ns : Nat) (s : State) : Res := .next (s.setRequest r tag 0x7000 2 (toLE 8 ns))

/-! ## Security -/

/-- INSTALL into slot n. -/
def execInstall (r : Requester) (tag n : Nat) (v : List Byte) (s : State) : Res :=
  if n < 256 then .next (s.setRequest r tag (0x5100 + n) 2 v) else .next s

/-- CLAIM, which only the mailbox may write. -/
def execClaim (r : Requester) (tag : Nat) (v : List Byte) (s : State) : Res := .next (s.setRequest r tag 0x5020 1 v)

/-- DEBUG_TOKEN. -/
def execDebugToken (r : Requester) (tag : Nat) (v : List Byte) (s : State) : Res := .next (s.setRequest r tag 0x5001 4 v)

/-! ## Firmware -/

/-- FW_IMAGE. -/
def execFwImage (r : Requester) (tag : Nat) (v : List Byte) (s : State) : Res := .next (s.setRequest r tag 0x9001 1 v)
/-- FW_CMD 1. -/
def execVerify (r : Requester) (tag : Nat) (s : State) : Res := .next (s.setRequest r tag 0x9001 3 [1])
/-- FW_CMD 2. -/
def execStage (r : Requester) (tag : Nat) (s : State) : Res := .next (s.setRequest r tag 0x9001 3 [2])
/-- FW_CMD 3. -/
def execActivate (r : Requester) (tag : Nat) (s : State) : Res := .next (s.setRequest r tag 0x9001 3 [3])
/-- FW_CMD 4. -/
def execConfirm (r : Requester) (tag : Nat) (s : State) : Res := .next (s.setRequest r tag 0x9001 3 [4])
/-- FW_CMD 5. -/
def execSelectFs1 (r : Requester) (tag : Nat) (s : State) : Res := .next (s.setRequest r tag 0x9001 3 [5])
/-- FW_CMD 6. -/
def execFwAbort (r : Requester) (tag : Nat) (s : State) : Res := .next (s.setRequest r tag 0x9001 3 [6])

/-- TRIAL_END: the trial passes within its 1 s, or fails or times out and the MC jumps back (R551). -/
def execTrialEnd (pass : Bool) (s : State) : Res :=
  match s.sec.fw.trial with
  | none => .next s
  | some t =>
    if pass && decide (s.now ≤ t + second) then .next (s.modFw (fun x => { x with trial := none }))
    else .next (s.modFw (fun x => x.back .failed))

/-- ARB_COMMIT. -/
def execArbCommit (r : Requester) (tag : Nat) (s : State) : Res := .next (s.setRequest r tag 0x9002 1 [1])

/-- FW_REVOKE. -/
def execFwRevoke (r : Requester) (tag : Nat) (v : List Byte) (s : State) : Res := .next (s.setRequest r tag 0x9002 2 v)

/-! ## The PROFILE command (R576) -/

/-- PROFILE SELECT: a stored record whose values lie outside their ranges fails its check. -/
def execProfileSelect (q : Nat) (s : State) : Res :=
  .next (s.runIf q 0x48 (subIs 0) (fun s _ c =>
    let p := cmdObj c
    let cap := leNat (s.stored (0x2100 + p) 3)
    if !within 400 1200 cap || !([1, 2, 4, 8] : List Nat).contains (s.profileDomains p) then s.refuse q c.no 0x70 0
    else State.succeed { s with mgmt := { s.mgmt with nextProfile := p } } q c.no 0))

/-- PROFILE CANCEL. -/
def execProfileCancel (q : Nat) (s : State) : Res :=
  .next (s.runIf q 0x48 (subIs 1) (fun s _ c =>
    if cmdObj c ≠ 0 then s.refuse q c.no 0x10 0x11
    else State.succeed { s with mgmt := { s.mgmt with nextProfile := 0xFF } } q c.no 0))

/-- The 16 bytes of PROFILE READ. -/
def State.profileBytes (s : State) : List Byte :=
  toLE 1 s.profile ++ toLE 1 s.bnd.strap ++ toLE 1 s.mgmt.nextProfile ++ [0]
    ++ (List.range 4).flatMap (fun p => toLE 1 (s.profileDomains p))
    ++ (List.range 4).flatMap (fun p => s.stored (0x2100 + p) 3)

/-- PROFILE READ. -/
def execProfileRead (q : Nat) (s : State) : Res :=
  .next (s.runIf q 0x48 (subIs 2) (fun s x c =>
    if cmdObj c ≠ 0 then s.refuse q c.no 0x10 0x11
    else if cmdLen c < 16 then s.refuse q c.no 0x10 0x20
    else s.keyOut q x c s.profileBytes))

/-- SET_CUSTOM. -/
def execSetCustom (q : Nat) (s : State) : Res :=
  .next (s.runIf q 0x48 (subIs 3) (fun s _ c =>
    if cmdObj c ≠ 3 then s.refuse q c.no 0x10 0x11
    else if cmdArg c ≠ 2 ∧ cmdArg c ≠ 4 then s.refuse q c.no 0x70 0
    else match s.persist (okey 0x2103 2) (toLE 1 (cmdArg c)) with
      | .done t _ => t.succeed q c.no 0
      | _ => s.refuse q c.no 0x71 0))

end Sys2Proof.Machine
end

