-- ==== Sys2Proof/Machine/Start.lean ====
section
/-! DEFINITION. Reset inputs, the ends and failures of starts, the reference clock (17_boundary.md R586 to R593, R604 to
R610; 11_scheduling.md R399, R400; 12_host_port.md R433, R441; 16_dictionary.md R575, R577). -/

namespace Sys2Proof.Machine

def State.setPower (s : State) (p : Power) : State := { s with bnd := { s.bnd with power := p } }

/-! ## Reset inputs (R589) -/

/-- POR_N, and the internal power-on reset: everything but the always-on and battery-backed content is lost. -/
def State.intoReset (s : State) : State :=
  let s := s.keepThroughCold
  { s with bnd := { s.bnd with power := .inReset, porLow := true, pwrcyc := false, trip := false } }

/-- POR_N_ASSERT: low for 1 µs. -/
def execPorNAssert (s : State) : Res := .next s.intoReset

/-- POR_N_RELEASE with the straps at `straps`: a cold start begins, unless REFCLK is absent. -/
def execPorNRelease (straps : Nat) (s : State) : Res :=
  if !s.bnd.porLow then .next s
  else
    let s := { s with bnd := { s.bnd with porLow := false, strapPins := straps % 4 } }
    if s.bnd.refclk then .next s.beginCold else .next (s.setPower .noClock)

/-- WARM_N. -/
def execWarmN (s : State) : Res := .next s.triggerWarm

/-- REFCLK_LOSS (R593): the block puts itself in reset; safe mode ends only by POR_N (R609). -/
def execRefclkLoss (s : State) : Res :=
  if !s.bnd.refclk then .next s
  else if s.bnd.power = .safe ∨ s.bnd.power = .tripped then .next { s with bnd := { s.bnd with refclk := false } }
  else
    let s := s.keepThroughCold
    .next { s with bnd := { s.bnd with refclk := false, power := if s.bnd.porLow then .inReset else .noClock } }

/-- REFCLK_RETURN (R593): in range for 1 ms. -/
def execRefclkReturn (s : State) : Res :=
  let back := { s with bnd := { s.bnd with refclk := true } }
  if s.bnd.power = .noClock ∧ !s.bnd.refclk then .next back.beginCold else .next back

/-! ## Ends of starts (R605, R606) -/

/-- Formes come into service with their stacks. -/
def State.formesStart (s : State) : State :=
  { s with formes := Vector.ofFn (fun (i : Fin 8) =>
      let up := (s.hbm[i]).state == StackState.inService
      { s.formes[i] with status := if up then FormeStatus.inService else FormeStatus.outOfService, stackUp := up }) }

/-- R433: on entry to the Exclusive profile instance 0 has 1 GiB of stack 0 as its staging area. -/
def State.exclusiveGrants (s : State) : State :=
  if s.exclusive then
    let g := (List.range 512).foldl (fun t k => tput t (128 + k) (0, false)) s.host.grants
    State.modInst { s with host := { s.host with grants := g } } 0 (fun (x : InstSt) => { x with staging := some (0x10000000, 0x40000000) })
  else s

/-- The settings a start puts in force: domains, power cap, port modes, pulse ratios; units take mode values (R577, R578). -/
def State.startSettings (s : State) (p : Nat) : State :=
  let s := { s with profile := p }
  let s := { s with domains := s.profileDomains p, net := { s.net with mode := s.net.modeSet },
                    bnd := { s.bnd with capW := leNat (s.stored (0x2100 + p) 3) } }
  let s := s.formesStart
  { s with mgmt := { s.mgmt with applied := s.mgmt.applied ||| (s.mgmt.modeUse &&& s.unitsUp) } }

/-- The block serves: the PF is enabled and READY; START is notified with the counts as they stood (R608). -/
def State.serve_ (s : State) (kind : Nat) (restarted : Bool) : State :=
  let s := s.modInst 0 (fun (x : InstSt) => { x with state := .enabled, fn := { x.fn with ready := true, restarted := restarted } })
  let s := s.exclusiveGrants.setPower .running
  (s.notify 3 [BitVec.ofNat 8 kind, BitVec.ofNat 8 s.profile, BitVec.ofNat 8 s.bnd.warmFails, BitVec.ofNat 8 s.bnd.coldFails]).evalFaultPin

/-- R399, R400, R610: the open period closes with POWER_LOSS and a new one opens; a ledger zone that failed its check is
initialised. -/
def State.ledgerStart (s : State) : State :=
  let l := s.mgmt.ledger
  if l.valid then
    let s := { s with host := { s.host with insts := l.sums.map (fun (p : Nat × Account) => (p.1, { InstSt.fresh with acct := p.2, snapPj := p.2.pj })) } }
    s.closePeriod l.lastFlush s.now 2 s.lenSet l.openRec
  else
    s.modLedger (fun l => { LedgerSt.zero with valid := true, len := s.lenSet, journal := l.journal, lastFlush := s.now,
                                               open_ := ⟨0, s.now, 0, 0, 4⟩ })

/-- Every stack has ended its training, and its voltage requests are set. -/
def State.trainDone (s : State) : Bool := s.hbm.toList.all (fun (x : StackSt) => x.state != StackState.training)

/-- COLD_START_DONE. -/
def execColdStartDone (s : State) : Res :=
  match s.bnd.power with
  | .starting .cold _ =>
    if !s.linkUp || !s.trainDone then .next s
    else
      let s := { s with sec := { s.sec with prot := { s.sec.prot with stage := 2, lock := true } } }
      let s := if s.sec.fw.sel.trial = 1 then s.writeBootsel (fun b => { b with trial := 0 }) else s
      let s := (s.startSettings (s.bnd.strap % 4)).ledgerStart.serve_ 0 false
      .next (State.settle { s with bnd := { s.bnd with warmFails := 0, coldFails := 0 } })
  | _ => .next s

/-- WARM_START_DONE: a forme whose stack is still in full training stays out of service (R297). -/
def execWarmStartDone (s : State) : Res :=
  match s.bnd.power with
  | .starting .warm _ =>
    if !s.linkUp || s.hbm.toList.any (fun (x : StackSt) => x.state == StackState.selfRefresh) then .next s
    else
      let p := s.startProfile
      let s := { s with mgmt := { s.mgmt with nextProfile := if s.mgmt.nextProfile < 4 then 0xFF else s.mgmt.nextProfile } }
      let s := (s.startSettings p).warmSlot.serve_ 1 true
      .next (State.settle { s with bnd := { s.bnd with warmFails := 0 } })
  | _ => .next s

/-! ## Failed starts (R607, R608) -/

/-- R549: after a trial that did not reach main firmware the ROM boots the other FS1 slot. -/
def State.trialBack (s : State) (reachedMain : Bool) : State :=
  if !reachedMain && s.sec.fw.sel.trial == 1 then s.writeBootsel (fun b => { b with fs1 := 1 - b.fs1, trial := 0 }) else s

/-- START_FAILED: `reachedMain` when a cold start got as far as the main firmware. -/
def execStartFailed (reachedMain : Bool) (s : State) : Res :=
  match s.bnd.power with
  | .starting .warm _ =>
    let n := s.bnd.warmFails + 1
    .next { s with bnd := { s.bnd with warmFails := n, power := .retry (if n < 3 then .warm else .cold) s.now } }
  | .starting .cold _ =>
    let n := s.bnd.coldFails + 1
    let s := s.trialBack reachedMain
    let s := { s with bnd := { s.bnd with coldFails := n } }
    if n < 3 then .next (s.keepThroughCold.setPower (.retry .cold (s.now + second)))
    else .next ((s.requestPowerCycle 0).enterSafe false)
  | _ => .next s

/-- START_RETRY. -/
def execStartRetry (s : State) : Res :=
  match s.bnd.power with
  | .retry k due =>
    if s.now < due then .next s
    else match k with
      | .warm => .next s.beginWarm
      | .cold => .next s.beginCold
  | _ => .next s

end Sys2Proof.Machine
end

