-- ==== Sys2Proof/Machine/Power.lean ====
section
/-! DEFINITION. Voltage requests, rails, the power cap and die temperatures (17_boundary.md R597 to R602; 01_architecture.md
R46, R50). -/

namespace Sys2Proof.Machine

/-! ## Voltage requests -/

/-- VRI_ACK of island f: the voltage asked for is in force, and the next step follows (R597). -/
def execVriAck (f : Nat) (s : State) : Res :=
  if decide (f < 8) && (vget s.bnd.vri f Vri.boot).req then
    .next (s.modVri f (fun x => Vri.next { x with volt := x.code, req := false } s.now))
  else .next s

/-- A forme's rail fails (Table 17-8). -/
def State.islandFault (s : State) (f : Nat) : State :=
  s.takeFault { faultOf 0x8FFF with unitType := 0x04, logical := f, phys := f } (.forme f)

/-- VRI_ACK_TIMEOUT: no acknowledgement within 100 µs (R599). -/
def execVriAckTimeout (f : Nat) (s : State) : Res :=
  let x := vget s.bnd.vri f Vri.boot
  if decide (f < 8) && x.req && decide (x.reqTick + 10000 ≤ s.now) then
    .next ((s.modVri f (fun x => { x with reqTick := s.now })).islandFault f)
  else .next s

/-- RAIL_TRIP (R599). -/
def execRailTrip (r : Rail) (s : State) : Res :=
  match r with
  | .sort f => if decide (f < 8) && s.powered then .next (s.islandFault f) else .next s
  | .fab => if s.powered then .next (s.takeFault { faultOf 0xAFFF with unitType := 0x00 } .block) else .next s
  | .memc =>
    if s.powered then
      let s := { s with hbm := s.hbm.map (fun (x : StackSt) => { x with lost := true }) }
      .next (s.levelFour { faultOf 0xAFFF with unitType := 0x00 } true).settle
    else .next s
  | .aon => .next s.intoReset

/-- VOLTAGE_BAND_CHANGE of island f: up at once, down after one second in a cooler band (R598). -/
def execVoltageBandChange (f : Nat) (s : State) : Res :=
  let x := vget s.bnd.vri f Vri.boot
  let b := dieBand (s.hotOf f)
  if 8 ≤ f ∨ !x.valid then .next s
  else if x.want < bandCode f b then .next (s.modVri f (fun x => x.aim f b s.now))
  else match x.quiet with
    | some (lower, t) =>
      if lower = b ∧ bandCode f b < x.want ∧ t + second ≤ s.now then .next (s.modVri f (fun x => x.aim f b s.now)) else .next s
    | none => .next s

/-- The sensors of an island as they bear on its voltage. -/
def Vri.watch (x : Vri) (f b now : Nat) : Vri :=
  if bandCode f b < x.want then
    match x.quiet with
    | some (lower, _) => if lower = b then x else { x with quiet := some (b, now) }
    | none => { x with quiet := some (b, now) }
  else { x with quiet := none }

/-! ## Pulse ratios and pacing -/

/-- Limits on k of forme f, from the cap and from its temperature. -/
def State.capKOf (s : State) (f : Nat) : Nat := (tget s.bnd.capK f).getD 16
def State.tempKOf (s : State) (f : Nat) : Nat := ((tget s.bnd.tempK f).map (·.1)).getD 16

/-- Whether the temperature of forme f paces its platen. -/
def State.hotPaced (s : State) (f : Nat) : Bool := s.bnd.fabHot || (decide (110 ≤ s.hotOf f) && (s.forme f).k == 2)

/-- The lowest of the limits applies (R601); platens are paced by the cap or by temperature. -/
def State.throttle (s : State) : State :=
  let s := { s with formes := Vector.ofFn (fun (i : Fin 8) =>
    { s.formes[i] with k := min (min (s.capKOf i) (s.tempKOf i)) (if s.bnd.fabHot then 8 else 16) }) }
  { s with platens := Vector.ofFn (fun (i : Fin 8) => { s.platens[i] with paced := s.bnd.pacedByCap || s.hotPaced i }) }

/-- CAP_PACING is recorded, with the draw. -/
def State.capPacing (s : State) : State :=
  let s := s.fault { faultOf 0xD005 with unitType := 0x0E, info0 := (s.bnd.draws.headD 0) / 1000 } []
  { s with mgmt := { s.mgmt with capEvents := s.mgmt.capEvents + 1 } }

/-- The draw exceeds the cap: k falls for one or more formes, by steps that the spec leaves to the PM; with every k at 2
the platens are paced. -/
def State.capDown (s : State) : State :=
  let high := (List.range 8).filter (fun f => decide (2 < s.capKOf f))
  let pick := (high[Config.capChoice s.fresh 8 % high.length]?).getD 0
  let lower (f : Nat) : Nat :=
    let k := s.capKOf f
    let c := Config.capChoice s.fresh f
    if k ≤ 2 then 2 else if f = pick ∨ c % 2 = 1 then 2 + c / 2 % (k - 2) else k
  let was := s.bnd.pacedByCap
  if high.isEmpty then
    let s := { s with bnd := { s.bnd with pacedByCap := true } }
    if was then s else s.capPacing
  else { s with fresh := s.fresh + 1, bnd := { s.bnd with capK := (List.range 8).map (fun f => (f, lower f)) } }

/-- The draw complies: pacing ends, and k rises as far as the PM lets it. -/
def State.capUp (s : State) : State :=
  let raise (f : Nat) : Nat := s.capKOf f + Config.capChoice s.fresh f % (17 - s.capKOf f)
  { s with fresh := s.fresh + 1, bnd := { s.bnd with pacedByCap := false, capK := (List.range 8).map (fun f => (f, raise f)) } }

/-- POWER_SAMPLE of mW: every 10 µs (R50, R600). -/
def execPowerSample (mW : Nat) (s : State) : Res :=
  if !s.powered || decide (s.now < s.bnd.drawTick + 1000) then .next s
  else
    let draws := (mW :: s.bnd.draws).take 100
    let turn := s.now / 10000000 != s.bnd.drawTick / 10000000
    let mean := (s.bnd.draws.sum + s.bnd.draws.length / 2) / max 1 s.bnd.draws.length
    let s := { s with
      bnd := { s.bnd with draws := draws, drawTick := s.now, drawSnap := if turn then mean else s.bnd.drawSnap },
      mgmt := { s.mgmt with energy := s.mgmt.energy + mW * 10000 } }
    .next ((if s.bnd.capW * 1000 < mW then s.capDown else s.capUp).throttle)

/-- R601: the limit of one forme follows its hottest sensor. -/
def State.coolForme (s : State) (f : Nat) : State :=
  let k := s.tempKOf f
  let t := ((tget s.bnd.tempK f).map (·.2)).getD 0
  let first := !thas s.bnd.tempK f
  let set (k : Nat) : State := { s with bnd := { s.bnd with tempK := tput s.bnd.tempK f (k, s.now) } }
  if 100 < s.hotOf f then (if first ∨ t + 10000 ≤ s.now then set (max 2 (k - 1)) else s)
  else if s.hotOf f < 97 ∧ k < 16 ∧ t + 100000 ≤ s.now then set (k + 1)
  else s

/-- DIE_TEMP_READ: the hottest sensor of each forme island, and of the VDD_FAB units and memory controllers, every
10 µs. -/
def execDieTempRead (temps : List Int) (fab : Int) (s : State) : Res :=
  if !s.powered then .next s
  else
    let before := (List.range 8).map s.hotPaced
    let s := { s with bnd := { s.bnd with
      hot := temps.zipIdx.foldl (fun t (p : Int × Nat) => if p.2 < 8 then tput t p.2 p.1 else t) s.bnd.hot, hotFab := fab,
      fabHot := if 110 ≤ fab then true else if fab < 105 then false else s.bnd.fabHot } }
    let s := (List.range 8).foldl (fun s f =>
      (s.coolForme f).modVri f (fun x => x.watch f (dieBand (s.hotOf f)) s.now)) s
    let s := s.throttle
    let began := (List.range 8).any (fun f => s.hotPaced f && !(before[f]?).getD false)
    .next (if began then s.capPacing else s)

/-- THERMTRIP (R602): the trip pin, everything off but the management side, the record at level 5. -/
def execThermtrip (s : State) : Res :=
  match s.bnd.power with
  | .inReset => .next s
  | .tripped => .next s
  | _ =>
    let s := { s with bnd := { s.bnd with trip := true } }
    let s := s.fault { faultOf 0xD004 with unitType := 0x00, level := 5 } []
    .next ((s.requestPowerCycle 0xD004).enterSafe true)

end Sys2Proof.Machine
end

