-- ==== Sys2Proof/Machine/Flash.lean ====
section
/-! DEFINITION. The flash port and the background compaction of the persistent store (17_boundary.md R611 to R619). -/

namespace Sys2Proof.Machine

/-! ## Registers and starts (R613) -/

/-- An operation is taken with the registers as they stand. -/
def FpSt.take (x : FpSt) (now : Nat) : FpSt :=
  { x with busy := some (x.op, x.addr, x.len), began := now, pend := false }

/-- START: one pending start is held while an operation runs. -/
def FpSt.start (x : FpSt) (now : Nat) : FpSt := if x.busy.isSome then { x with pend := true } else x.take now

/-- The MC sets the registers and starts an operation. -/
def State.fpCommand (s : State) (op addr len : Nat) : State :=
  if s.powered then
    s.modFp (fun x => FpSt.start { x with op := op, addr := addr % 2 ^ 32, len := len % 2 ^ 32 } s.now)
  else s

/-- FP_READ. -/
def execFpRead (addr len : Nat) (s : State) : Res := .next (s.fpCommand 1 addr len)

/-- FP_PROGRAM of the bytes put into FP_BUF. -/
def execFpProgram (addr : Nat) (data : List Byte) (s : State) : Res :=
  let s := if s.powered then s.modFp (fun x => { x with buf := mwrite x.buf 0 (data.take 4096) }) else s
  .next (s.fpCommand 2 addr data.length)

/-- FP_ERASE_4K. -/
def execFpErase4k (addr len : Nat) (s : State) : Res := .next (s.fpCommand 3 addr len)

/-- FP_BLANK_CHECK. -/
def execFpBlankCheck (addr len : Nat) (s : State) : Res := .next (s.fpCommand 4 addr len)

/-- FP_RESET_DEVICE. -/
def execFpResetDevice (len : Nat) (s : State) : Res := .next (s.fpCommand 5 s.bnd.fp.addr len)

/-! ## Results (R614 to R616) -/

/-- R613, Table 17-19: whether an operation is outside its range. -/
def fpRange (op addr len : Nat) : Bool :=
  match op with
  | 1 | 2 | 4 => !within 1 4096 len || decide (0x2000000 < addr + len)
  | 3 => len != 0 || addr % 4096 != 0 || decide (0x2000000 < addr + 4096)
  | 5 => len != 0
  | _ => true

/-- R616: the ranges that the governing BOOTSEL copy protects. -/
def State.fpProtected (s : State) (addr n : Nat) : Bool :=
  let b := s.sec.fw.sel
  overlaps addr n (fwAddr 1 b.fs1) (fwSlotSize 1) || overlaps addr n (fwAddr 2 b.main) (fwSlotSize 2)
  || overlaps addr n (bootselAddr b.copy) 0x10000

def State.erased (s : State) (addr n : Nat) : Bool := (s.flashRead addr n).all (fun b => b == 0xFF)

/-- An operation ends with a code; a pending start is then taken. -/
def State.fpEnd (s : State) (code : Nat) : State :=
  let bad := code == 4 || code == 5
  let n := if bad then s.bnd.fp.fails + 1 else 0
  let s := s.modFp (fun x =>
    let x := { x with busy := none, done := true, code := code, fails := if n = 3 then 0 else n }
    if x.pend then x.take s.now else x)
  if n = 3 then
    let s := { s with bnd := { s.bnd with store := { s.bnd.store with fault := true } } }
    s.takeFault { faultOf 0xAFFF with unitType := 0x10 } .block
  else if bad then s
  else { s with bnd := { s.bnd with store := { s.bnd.store with fault := false } } }

/-- A write that touches a BOOTSEL copy updates what the port protects. -/
def State.fpSelect (s : State) (addr : Nat) : State :=
  if addr < 0x20000 then { s with sec := { s.sec with fw := { s.sec.fw with sel := s.readBootsel } } } else s

/-- PROGRAM past its checks: what a failing read-back leaves programmed is not stated. -/
def State.fpWrite (s : State) (addr len : Nat) (e : FlashEnd) : State :=
  let data := mread s.bnd.fp.buf 0 len
  match e with
  | .device => s.fpEnd 5
  | .good => ((s.flashWrite addr data).fpSelect addr).fpEnd 0
  | .mismatch =>
    let data := data.zipIdx.map (fun (p : Byte × Nat) => p.1 ||| BitVec.ofNat 8 (Config.freeValue (s.fresh + p.2)))
    let s := { s with fresh := s.fresh + len }
    ((s.flashWrite addr data).fpSelect addr).fpEnd 6

/-- FP_OPERATION_DONE. -/
def execFpOperationDone (e : FlashEnd) (s : State) : Res :=
  match s.bnd.fp.busy with
  | none => .next s
  | some (op, addr, len) =>
    if fpRange op addr len then .next (s.fpEnd 3)
    else match op with
      | 1 => .next (State.fpEnd (s.modFp (fun x => { x with buf := mwrite x.buf 0 (s.flashRead addr len) })) 0)
      | 2 =>
        if s.fpProtected addr len then .next (s.fpEnd 2)
        else if !s.erased addr len then .next (s.fpEnd 1)
        else .next (s.fpWrite addr len e)
      | 3 =>
        if s.fpProtected addr 4096 then .next (s.fpEnd 2)
        else if e = .device then .next (s.fpEnd 5)
        else .next (((s.flashErase addr 4096).fpSelect addr).fpEnd 0)
      | 4 => .next (s.fpEnd (if s.erased addr len then 0 else 1))
      | _ => .next (s.fpEnd 0)

/-- The time that an operation may take (Table 17-15, R617): an erase, the pages of a program, a read's strobe. -/
def fpLimit (op addr len : Nat) : Option Nat :=
  match op with
  | 1 => some 100
  | 2 => some (500000 * ((addr + len - 1) / 256 - addr / 256 + 1))
  | 3 => some 40000000
  | 4 => some 100
  | _ => none

/-- FP_TIMEOUT: the port resets the device and enters its mode again. -/
def execFpTimeout (s : State) : Res :=
  match s.bnd.fp.busy with
  | none => .next s
  | some (op, addr, len) =>
    match fpLimit op addr len with
    | none => .next s
    | some n => if s.bnd.fp.began + n < s.now then .next (s.fpEnd 4) else .next s

/-! ## Compaction (R619) -/

/-- The latest records with new SEQ values, one after another from a position. -/
def State.putRecords (s : State) (area : Nat) : List (Nat × List Byte) → Nat → Nat → State × Nat × Nat
  | [], pos, seq => (s, pos, seq)
  | (key, v) :: rest, pos, seq =>
    State.putRecords (s.flashWrite (areaBase area + pos) (storeRecord key seq v)) area rest (pos + recordSize v.length) (seq + 1)

/-- STORE_COMPACTION: the other area is erased and takes the latest record of every object, its header last; it then
governs. -/
def execStoreCompaction (s : State) : Res :=
  let x := s.bnd.store
  if !x.compacting || !s.powered || x.fault then .next s
  else
    let recs := (readLog (fun pos n => s.flashRead (areaBase x.area + pos) n) 65536 64 0 []).1
    let b := 1 - x.area
    let s := s.flashErase (areaBase b) areaSize
    let r := State.putRecords s b (recs.map (fun p => (p.1, p.2.2))) 64 x.seq
    let s := r.1.flashWrite (areaBase b) (areaHeader ((x.areaSeq + 1) % 2 ^ 32))
    .next { s with bnd := { s.bnd with store := ⟨b, (x.areaSeq + 1) % 2 ^ 32, r.2.1, r.2.2, false, x.fault⟩ } }

end Sys2Proof.Machine
end

