-- ==== Sys2Proof/Machine/HostEvents.lean ====
section
/-! DEFINITION. Events at the host port: MSI-X, the HDM decoder, the aperture and CXL.mem, read timeouts, the link
(12_host_port.md R404, R414 to R417, R419, R431, R432). -/

namespace Sys2Proof.Machine

/-- MSIX_UNMASK (R419): a pending message of the vector is sent. -/
def State.unmask (s : State) (fn vec : Nat) : State :=
  let m := (s.inst fn).msix
  let due := m.pend.contains vec && !m.allMasked
  let s := s.modInst fn (fun y => { y with msix := { m with
    unmasked := m.unmasked.insert vec, pend := if m.allMasked then m.pend else m.pend.filter (fun v => v != vec) } })
  if due then s.raise fn vec else s

def execMsixUnmask (fn vec : Nat) (s : State) : Res :=
  if s.fnServes fn then .next (s.unmask fn vec) else .next s

/-- HDM_DECODER_COMMIT (R417). -/
def execHdmDecoderCommit (base size : Nat) (s : State) : Res :=
  if !s.up || s.host.link != .cxl then .next s
  else
    let ok := !s.exclusive && (match s.host.hdm with | some (_, n) => n == size | none => false)
    .next { s with host := { s.host with commitError := !ok, decoder := if ok then some (base, size) else none } }

/-! ## The aperture and CXL.mem -/

/-- What failed in an aperture or CXL.mem access. -/
inductive ApErr | none_ | miss | denied | lost | unitReset
  deriving DecidableEq, Repr

def ApErr.no (e : ApErr) : Nat := match e with | .none_ => 0 | .miss => 1 | .denied => 2 | .lost => 3 | .unitReset => 4

/-- R414: an APERTURE_FAULT, and the function's advisory. -/
def State.apertureFault (s : State) (fn off : Nat) (e : ApErr) : State :=
  let r : FaultRec := { faultOf 0x2006 with inst := some fn, unitType := 0x08, logical := fn, addr := off, info0 := Config.apertureCause e.no }
  State.fault { s with out := s.out ++ [.event 0x2006 fn off] } r []

/-- Device ranges that an aperture access reaches (R416). -/
def State.apertureRanges (s : State) (fn off n : Nat) (write : Bool) : Except ApErr (List (Nat × Nat)) :=
  match (s.inst fn).aperture.bind (fun c => tget s.ctxs c) with
  | none => .error .none_
  | some x =>
    if s.exclusive then .error .none_
    else if x.state = .lost then .error .lost
    else (rangePieces off n).foldl (fun (r : Except ApErr (List (Nat × Nat))) p =>
      match r with
      | .error e => .error e
      | .ok l => match x.translate p.1 write with
        | .ok (false, a) => if s.formeUp (stackOf a) then .ok (l ++ [(a, p.2)]) else .error .unitReset
        | .error 0x2001 => .error .miss
        | _ => .error .denied) (.ok [])

/-- The device range of a CXL.mem access (R417). -/
def State.cxlRange (s : State) (h n : Nat) : Except ApErr (List (Nat × Nat)) :=
  match s.host.decoder, s.host.hdm with
  | some (b, size), some (base, _) =>
    if s.exclusive || decide (h < b) || decide (b + size < h + n) then .error .none_
    else if s.formeUp (stackOf base) then .ok [(base + (h - b), n)] else .error .unitReset
  | _, _ => .error .none_

/-- Bytes of an access across the host port, its sheets, and their charge. -/
def State.chargeRanges (s : State) (ctx : Option Nat) (i n : Nat) (l : List (Nat × Nat)) : State :=
  (l.foldl (fun s r => s.chargeTo (stackOf r.1) ctx i (sheetsOf r.1 r.2)) s).chargeHost ctx i n

/-- The completion of a read: data, poisoned where a sheet is; a failed one completes with Unsupported Request,
one of a forme in reset with poisoned data. -/
def State.apRead (s : State) (kind fn off n : Nat) (ctx : Option Nat) (i : Nat) (r : Except ApErr (List (Nat × Nat))) : State :=
  match r with
  | .error .unitReset =>
    State.apertureFault { s with out := s.out ++ [.readData kind off (List.replicate n 0) true] } fn off .unitReset
  | .error e => State.apertureFault { s with out := s.out ++ [.readData kind off [] false] } fn off e
  | .ok l =>
    let s := (l.foldl (fun s p => s.decodeRange p.1 p.2) s).chargeRanges ctx i n l
    let bad := l.any (fun p => s.poisoned (p.1 / 256 * 256) (p.1 % 256 + p.2))
    { s with out := s.out ++ [.readData kind off (l.flatMap (fun p => mread s.mem p.1 p.2)) bad] }

/-- A write over device ranges; a failed one is dropped. -/
def State.apWrite (s : State) (fn off : Nat) (bytes : List Byte) (ctx : Option Nat) (i : Nat) (r : Except ApErr (List (Nat × Nat))) : State :=
  match r with
  | .error e => s.apertureFault fn off e
  | .ok l => (s.writeRanges ctx i l bytes).chargeHost ctx i bytes.length

/-- Size of BAR2. -/
def bar2Size (fn : Nat) : Nat := if fn = 0 then 2 ^ 36 else 2 ^ 32

/-- Whether an aperture access of a function is served, answered at once (R423), or meets no function. -/
def State.apertureServed (s : State) (fn off n : Nat) : Bool :=
  s.up && decide (off + n ≤ bar2Size fn) && decide (0 < n) && !(s.inst fn).d3 && (s.inst fn).state != .off

/-- APERTURE_READ. -/
def execApertureRead (fn off n : Nat) (s : State) : Res :=
  if !s.apertureServed fn off n then .next s
  else if (s.inst fn).state = .resetting then .next { s with out := s.out ++ [.readData 0 off (List.replicate n 0) false] }
  else .next (s.apRead 0 fn off n (s.inst fn).aperture fn (s.apertureRanges fn off n false)).settle

/-- APERTURE_WRITE. -/
def execApertureWrite (fn off : Nat) (bytes : List Byte) (s : State) : Res :=
  if !s.apertureServed fn off bytes.length ∨ (s.inst fn).state = .resetting then .next s
  else .next (s.apWrite fn off bytes (s.inst fn).aperture fn (s.apertureRanges fn off bytes.length true)).settle

/-- CXL_MEM_READ of n bytes at host physical address h. -/
def execCxlMemRead (h n : Nat) (s : State) : Res :=
  if !s.up || s.host.link != .cxl || n == 0 then .next s else .next (s.apRead 1 0 h n none 0 (s.cxlRange h n)).settle

/-- CXL_MEM_WRITE. -/
def execCxlMemWrite (h : Nat) (bytes : List Byte) (s : State) : Res :=
  if !s.up || s.host.link != .cxl || bytes.isEmpty then .next s
  else .next (s.apWrite 0 h bytes none 0 (s.cxlRange h bytes.length)).settle

/-! ## Read timeouts (R414, R415) -/

/-- Whether a range of a context lies on host pages somewhere. -/
def CtxSt.onHost (x : CtxSt) (va n : Nat) : Bool :=
  (rangePieces va n).any (fun p => match x.leafAt p.1 with | some (l, _) => l.host | none => false)

/-- HOST_READ_TIMEOUT: the read of an initiator times out. -/
def execHostReadTimeout (r : HostReader) (s : State) : Res :=
  match r with
  | .fetch q =>
    match tget s.queues q with
    | none => .next s
    | some x =>
      if !s.fetchable x || s.exclusive then .next s
      else if x.kind = 0 then .next (s.modQueue q (fun y => y.backOff s.now))
      else
        let va := x.sqVA + x.fetch % x.size * 64
        if ((tget s.ctxs x.ctx).map (fun c => c.onHost va 64)) = some true then
          .next (((s.modQueue q (fun y => { y with stopped := true })).accFault x.ctx (.fault 0x2003 va (Config.linkStatus va)) none).settle)
        else .next s
  | .command q =>
    match (tget s.queues q).bind (fun x => x.nextCmd) with
    | none => .next s
    | some c =>
      match s.startable q c.op with
      | none => .next s
      | some (x, c) =>
        if s.exclusive || x.kind != 0 then .next s else .next (s.cmdFault q x c 0x2003 (cmdBuf c) (Config.linkStatus (cmdBuf c))).settle
  | .move g tag =>
    let y := s.galley g
    match tget y.moves tag, y.ctx with
    | some m, some c =>
      if !m.srcGs && ((tget s.ctxs c).map (fun x => x.onHost m.src m.len)) = some true then
        .next ((State.stepAccess (s.modGalley g (fun y => { y with moves := tdel y.moves tag })) g (.fault 0x2003 m.src (Config.linkStatus m.src))).settle)
      else .next s
    | _, _ => .next s

/-! ## The link (R404, R431, R432) -/

/-- LINK_TRAINING: the port settles on CXL 3.1 when the partner accepts it, on PCIe 6.x otherwise; what was held goes
out. -/
def execLinkTraining (cxl : Bool) (s : State) : Res :=
  match s.host.link with
  | .down since =>
    if !(s.up || s.starting || s.bnd.power == .safe) then .next s
    else
      let s := { s with host := { s.host with link := if cxl then .cxl else .pcie, cxl := cxl, held := [],
                                              decoder := if cxl then s.host.decoder else none },
                        hostMem := s.host.held.foldl (fun (m : Mem) (w : Nat × List Byte) => mwrite m w.1 w.2) s.hostMem }
      if s.up then .next (s.fault { faultOf 0xB001 with unitType := 0x08, info0 := s.now - since } []).settle else .next s
  | _ => .next s

/-- LINK_DOWN: the FDI reports the link down. -/
def execLinkDown (s : State) : Res :=
  if s.linkUp then .next { s with host := { s.host with link := .down s.now } } else .next s

/-- LINK_LOST: down for more than 1,000,000 ticks. -/
def execLinkLost (s : State) : Res :=
  match s.host.link with
  | .down since =>
    if s.up && decide (since + 1000000 < s.now) then .next (s.levelFour { faultOf 0xB002 with unitType := 0x08 } false).settle else .next s
  | _ => .next s

end Sys2Proof.Machine
end

