-- ==== Sys2Proof/Machine/Illegal.lean ====
section
/-! DEFINITION. An instruction word whose opcode a core does not offer (03_sort.md R98, Table 03-4; 04_galleys.md R149). -/

namespace Sys2Proof.Machine

/-- Major opcodes of a sort (Table 03-4). -/
def sortOpcodes : List Nat :=
  [0x01, 0x02, 0x03, 0x04, 0x05, 0x06, 0x08, 0x09, 0x0A, 0x0B, 0x0C, 0x10, 0x18, 0x19, 0x1A, 0x1B, 0x1C, 0x1D, 0x1E,
   0x20, 0x21, 0x28, 0x30, 0x38, 0x39, 0x3C]

/-- Opcodes of a compositor: the scalar ones and those of Table 04-7. -/
def compOpcodes : List Nat := [0x01, 0x02, 0x03, 0x04, 0x05, 0x06, 0x08, 0x09, 0x40, 0x41, 0x42]

/-- ILLEGAL_INSTR: a core at a word whose opcode is not offered to it. -/
def execIllegalInstr (c : CoreId) (word : BitVec 32) (s : State) : Res :=
  let op := word.toNat % 128
  match c.sliver with
  | some sl => if sortOpcodes.contains op then .next s else .next (s.runSort c.galley sl isRunning (fun _ _ => .exc .illegalInstr))
  | none => if compOpcodes.contains op then .next s else .next (s.runComp c.galley (fun _ _ => .exc .compIllegal))

end Sys2Proof.Machine
end

