-- ==== Sys2Proof/Machine/Migrate.lean ====
section
/-! DEFINITION. SAVE and RESTORE of an instance (12_host_port.md R428, R430).  Within the parts of Table 12-10 the
fields stand packed in the order in which the table lists them. -/

namespace Sys2Proof.Machine

/-! ## What is saved -/

def padTo (n : Nat) (l : List Byte) : List Byte := l ++ List.replicate (n - l.length) 0

def TblFlags.code (x : TblFlags) : Nat :=
  b2n x.dynamic * 128 + b2n x.mapped * 64 + b2n x.mirrored * 32 + b2n x.missInsert * 16 + b2n x.defaultZero * 8
    + b2n x.idleEvict * 4 + b2n x.kick * 2 + b2n x.preloaded

def TblState.code (x : TblState) : Nat := match x with | .defining => 1 | .live => 2 | .retiring => 3 | .orphaned => 4
def MirrorSt.code (x : MirrorSt) : Nat := match x with | .inSync => 0 | .stale => 1 | .resync => 2

/-- Table 05-2. -/
def TableDesc.bytes (d : TableDesc) (t : Nat) : List Byte :=
  toLE 2 t ++ toLE 1 d.owner ++ toLE 1 d.flags.code ++ toLE 1 d.rowFormat ++ toLE 1 d.updSrc ++ toLE 2 (d.elems - 1)
    ++ toLE 2 d.pqM ++ toLE 2 d.rowBytes ++ toLE 2 d.pitch ++ toLE 1 d.rps ++ toLE 1 d.spr ++ toLE 8 d.rowBase ++ toLE 4 d.slots
    ++ toLE 4 d.defaultSlot ++ toLE 8 d.auxBase ++ toLE 4 d.indexLimit ++ toLE 1 d.bucketsLog2 ++ toLE 1 d.mirrorStack
    ++ toLE 1 d.freqShift ++ toLE 1 d.state.code ++ toLE 8 d.seed.toNat ++ toLE 8 d.freeBase ++ toLE 8 d.codebookBase
    ++ toLE 4 d.dyn.clockRate ++ toLE 4 d.dyn.clockHand ++ toLE 4 d.dyn.freeCount ++ toLE 4 d.dyn.fresh ++ toLE 4 d.dyn.liveCount
    ++ toLE 4 d.dyn.generation ++ toLE 1 d.dyn.mirrorState.code ++ toLE 31 0

def ctxSaved (s : State) (i c : Nat) (x : CtxSt) : List Byte :=
  padTo 64 (toLE 2 1 ++ toLE 2 c ++ toLE 1 (if x.state = .lost then 3 else 1) ++ toLE 1 x.domain ++ toLE 4 x.pasid
    ++ toLE 8 x.recordPA ++ toLE 1 (b2n ((s.inst i).aperture == some c)))

/-- The QUEUE_CREATE fields stand at the offsets of the command's body (Table 10-4). -/
def queueSaved (s : State) (q : Nat) (x : QueueSt) : List Byte :=
  let lost := x.kind != 0 && ((tget s.ctxs x.ctx).map (·.state)) == some CtxState.lost
  padTo 128 (toLE 2 2 ++ toLE 14 0 ++ toLE 2 q ++ toLE 1 x.kind ++ toLE 1 x.sqLog2 ++ toLE 2 x.ctx ++ toLE 2 x.vector ++ toLE 8 x.sqVA
    ++ toLE 8 x.cqVA ++ toLE 8 (x.ranks.foldl (fun m g => m + 2 ^ g) 0) ++ toLE 4 x.deadlineRel ++ toLE 2 x.wdogMs ++ toLE 2 0
    ++ toLE 2 x.epoch ++ toLE 4 x.head ++ toLE 4 x.tail ++ toLE 4 x.cqWritten ++ toLE 4 x.cqHead ++ toLE 4 x.head
    ++ toLE 1 (b2n lost * 2 + b2n x.dbDropped) ++ toLE 4 x.drops)

def fenceSaved (f : Nat) (x : FenceSt) : List Byte :=
  padTo 64 (toLE 2 3 ++ toLE 2 f ++ toLE 2 x.ctx ++ toLE 2 x.vector ++ toLE 8 x.counterVA ++ toLE 1 (b2n x.signalled) ++ toLE 8 x.count)

def sealSaved (h : Nat) (x : SealSt) : List Byte :=
  padTo 64 (toLE 2 4 ++ toLE 2 h ++ toLE 2 x.ctx ++ toLE 8 x.imageVA ++ toLE 8 x.bytes ++ toLE 8 x.info.modelId.toNat)

def tableSaved (t : Nat) (d : TableDesc) : List Byte := padTo 192 (toLE 2 5 ++ d.bytes t)

/-- The header around records; its CRC covers every other byte of header and records. -/
def savedHeader (i bytes : Nat) (counts : List Nat) (records : List Byte) : List Byte :=
  let h := padTo 60 (toLE 4 0x4D494752 ++ toLE 2 0x0100 ++ toLE 1 i ++ toLE 1 0 ++ toLE 4 bytes ++ counts.flatMap (toLE 2)
    ++ toLE 8 Config.serial)
  h ++ toLE 4 (crc32 (h ++ records))

def State.savedState (s : State) (i : Nat) : List Byte :=
  let cs := s.ctxs.filter (fun p => p.2.inst == i)
  let qs := s.queues.filter (fun p => p.2.inst == i)
  let fs := s.fences.filter (fun p => p.2.inst == i)
  let ss := s.seals.filter (fun p => cs.any (fun c => c.1 == p.2.ctx))
  let ts := s.tables.filter (fun p => p.2.owner == i && p.2.state == .live)
  let r := cs.flatMap (fun p => ctxSaved s i p.1 p.2) ++ qs.flatMap (fun p => queueSaved s p.1 p.2)
    ++ fs.flatMap (fun p => fenceSaved p.1 p.2) ++ ss.flatMap (fun p => sealSaved p.1 p.2) ++ ts.flatMap (fun p => tableSaved p.1 p.2)
  savedHeader i (64 + r.length) [cs.length, qs.length, fs.length, ss.length, ts.length] r ++ r

/-- Objects that SAVE forbids, and work that has started and has no completion entry yet. -/
def State.saveBusy (s : State) (i : Nat) : Bool :=
  let mine (c : Nat) : Bool := ((tget s.ctxs c).map (·.inst)) == some i
  s.serve.models.any (fun p => mine p.2.ctx) || s.serve.seqs.any (fun p => p.2.inst == i) || s.upd.rings.any (fun p => p.2.inst == i)
  || s.net.conns.any (fun p => p.2.inst == i && p.2.state != .disabled) || s.host.bce.pairs.any (fun p => p.1 / 8 == i)
  || s.queues.any (fun p => p.2.inst == i && (p.2.flush.isSome || p.2.cmds.any (fun c => c.st != .fetched)))

/-- SAVE (R428). -/
def execSave (q : Nat) (s : State) : Res :=
  .next (s.runInst q (subIs 0xD) (fun a => a == 0) notExclusive (fun s x c =>
    let i := cmdObj c
    let y := s.inst i
    if y.state ≠ .frozen then s.refuse q c.no 0x60 y.state.code
    else if s.saveBusy i then s.refuse q c.no 0x62 0
    else
      let l := s.savedState i
      if cmdLen c < l.length then s.refuse q c.no 0x10 0x20
      else
        let t := ((s.kernelWrite x.inst (cmdBuf c) l).2).tagInst s x.inst q c.no
        t.succeed q c.no l.length))

/-! ## What is restored -/

/-- The records of a saved state, with their byte offsets: the counts of the header give the kinds in order. -/
def recordsAt (off size n : Nat) (l : List Byte) : List (Nat × List Byte) :=
  (List.range n).map (fun k => (off + size * k, (l.drop (off + size * k)).take size))

structure Saved where
  ctxs : List (Nat × List Byte)
  queues : List (Nat × List Byte)
  fences : List (Nat × List Byte)
  seals : List (Nat × List Byte)
  tables : List (Nat × List Byte)
  deriving DecidableEq, Repr

def savedOf (l : List Byte) : Saved :=
  let n (k : Nat) := field l (0x0C + 2 * k) 2
  let o1 := 64 + 64 * n 0
  let o2 := o1 + 128 * n 1
  let o3 := o2 + 64 * n 2
  let o4 := o3 + 64 * n 3
  { ctxs := recordsAt 64 64 (n 0) l, queues := recordsAt o1 128 (n 1) l, fences := recordsAt o2 64 (n 2) l,
    seals := recordsAt o3 64 (n 3) l, tables := recordsAt o4 192 (n 4) l }

/-- Check 1 of R430: the byte offset that fails. -/
def savedFail (l : List Byte) : Option Nat :=
  let n (k : Nat) := field l (0x0C + 2 * k) 2
  if field l 0 4 ≠ 0x4D494752 then some 0
  else if field l 4 2 ≠ 0x0100 then some 4
  else if field l 8 4 ≠ 64 + 64 * n 0 + 128 * n 1 + 64 * n 2 + 64 * n 3 + 192 * n 4 ∨ field l 8 4 ≠ l.length then some 8
  else if field l 0x3C 4 ≠ crc32 (l.take 60 ++ l.drop 64) then some 0x3C
  else
    let v := savedOf l
    let bad (k : Nat) (rs : List (Nat × List Byte)) : Option Nat := (rs.find? (fun r => field r.2 0 2 != k)).map (·.1)
    [bad 1 v.ctxs, bad 2 v.queues, bad 3 v.fences, bad 4 v.seals, bad 5 v.tables].findSome? id

/-- A word of a frisket table in device memory; none when it is poisoned or outside the instance's pool. -/
def State.poolWord (s : State) (i a : Nat) : Option Nat :=
  if tget s.host.grants (a / 2 ^ 21) = some (i, true) ∧ !s.poisoned a 8 then some (mload s.mem a 8) else none

/-- What walking a frisket finds: leaves, a table outside the instance's pool, or a malformed entry. -/
inductive Walk
  | leaves (l : List (Nat × Leaf))
  | outside
  | malformed
  deriving DecidableEq, Repr

def Walk.join (a b : Walk) : Walk :=
  match a, b with
  | .leaves x, .leaves y => .leaves (x ++ y)
  | .outside, _ => .outside
  | _, .outside => .outside
  | _, _ => .malformed

/-- Well formed under Table 12-6 at a level: reserved bits, and which levels hold leaves. -/
def entryOk (level e : Nat) : Bool :=
  let leaf := bit e 62
  bits e 56 48 == 0
  && (if leaf then (level == 3 || level == 4) && (bit e 59 || bit e 58) && !(bit e 60 && (bit e 61 || bit e 57))
      else level != 4 && bits e 47 32 == 0 && bits e 61 57 == 0)

/-- R430 check 4: walk one table at a level; `va` is the first 64 KiB page it covers. -/
def State.walk (s : State) (i : Nat) : Nat → Nat → Nat → Nat → Walk
  | 0, _, _, _ => .malformed
  | fuel + 1, level, a, va =>
    let n := if level = 4 then 32 else 512
    let span := if level = 1 then 2 ^ 23 else if level = 2 then 2 ^ 14 else if level = 3 then 32 else 1
    (List.range n).foldl (fun (w : Walk) k =>
      match s.poolWord i (a + 8 * k) with
      | none => w.join .outside
      | some e =>
        if !bit e 63 then w
        else if !entryOk level e then w.join .malformed
        else if bit e 62 then
          let target := bits e 47 0 * 65536
          if level = 3 ∧ target % 2 ^ 21 ≠ 0 then w.join .malformed
          else w.join (.leaves [(va + span * k, ⟨level == 3, bit e 61, bit e 60, bit e 59, bit e 58, bit e 57, target⟩)])
        else w.join (s.walk i fuel (level + 1) (bits e 31 0 * 256) (va + span * k))) (.leaves [])

/-- The frisket that a record page's root names. -/
def State.walkRoot (s : State) (i record : Nat) : Walk :=
  let l1 := mload s.mem (record + 0x100) 8
  if l1 = 0 then .leaves [] else s.walk i 4 1 l1 0

/-- Whether a restored leaf's target may be reached by the instance's context in this domain. -/
def State.leafAllowed (s : State) (i domain : Nat) (l : Leaf) : Bool :=
  if l.host then true
  else
    let n := if l.big then 2 ^ 21 else 65536
    contextByte l.target && contextByte (l.target + n - 1) && decide (l.target < 2 ^ 39) && s.granted i l.target
    && s.formeAllowed i (stackOf l.target) && s.domainOf (stackOf l.target) == domain && (l.hdm == s.inHdm l.target)

/-- The page records of the restored mappings; none when two mappings of a page disagree on TABLE, or one
disagrees with the record kept. -/
def State.recordsOf (s : State) (ls : List Leaf) : Option (Tab PageRec) :=
  (ls.filter (fun l => !l.host)).foldl (fun (t : Option (Tab PageRec)) l =>
    (pages64 l.target (if l.big then 2 ^ 21 else 65536)).foldl (fun (t : Option (Tab PageRec)) p =>
      match t with
      | none => none
      | some t =>
        let r := (tget t (p / 65536)).getD ⟨l.table, 0⟩
        if (r.maps ≠ 0 ∧ r.table ≠ l.table) ∨ 32767 ≤ r.maps then none else some (tput t (p / 65536) ⟨l.table, r.maps + 1⟩)) t) (some s.host.pages)

/-- Check 5 of R430: R172 and R173 on a stored descriptor, whose addresses are physical and whose counts stand. -/
def State.savedTableOk (s : State) (i : Nat) (l : List Byte) : Bool :=
  let d := tableOfImage l
  let z := l.take 0x0A ++ toLE 6 0 ++ (l.drop 0x10).take 0x1F ++ [0] ++ (l.drop 0x30).take 0x1C ++ toLE 4 0
    ++ (l.drop 0x50).take 12 ++ toLE 5 0 ++ l.drop 0x61
  let z := z.take 3 ++ toLE 1 (field z 3 1 ||| 1) ++ z.drop 4
  tableImageOk z (field l 0 2) && field l 2 1 == i && !(d.flags.mirrored && d.mirrorStack == d.home)
    && s.areasPlaced (field l 0 2) d
    && d.allAreas.all (fun a => (pages64 (a.1 / 65536 * 65536) (roundUp a.2 65536)).all (s.granted i))

/-- Checks 2 to 5 of R430: status and DETAIL of the first that fails. -/
def State.restoreFail (s : State) (i : Nat) (v : Saved) : Option (Nat × Nat) :=
  let walks := v.ctxs.map (fun r => s.walkRoot i (field r.2 10 8))
  let lay := v.ctxs.zipIdx.findSome? (fun p =>
    if (s.grantOf (field p.1.2 10 8)).map (·.1) ≠ some i ∨ (walks[p.2]?) = some .outside then some (0x67, p.2) else none)
  let taken (rs : List (Nat × List Byte)) (used : Nat → Bool) (off : Nat) : Option (Nat × Nat) :=
    (rs.find? (fun r => used (field r.2 off 2))).map (fun r => (0x64, r.1 + off))
  let ids : Option (Nat × Nat) := [taken v.ctxs (fun c => thas s.ctxs c || decide (4096 ≤ c)) 2,
    (v.ctxs.find? (fun r => decide (s.domains ≤ field r.2 5 1))).map (fun r => (0x64, r.1 + 5)),
    taken v.queues (fun c => thas s.queues c || decide (2048 ≤ c)) 16, taken v.fences (fun c => thas s.fences c || decide (8192 ≤ c)) 2,
    taken v.tables (fun t => thas s.tables t) 2].findSome? id
  let leavesOf (w : Walk) : List (Nat × Leaf) := match w with
    | .leaves l => l
    | _ => []
  let walkBad := v.ctxs.zipIdx.findSome? (fun p =>
    let w := (walks[p.2]?).getD .malformed
    if w = .malformed ∨ !(leavesOf w).all (fun l => s.leafAllowed i (field p.1.2 5 1) l.2) then some (0x64, p.1.1 + 10) else none)
  let recBad := if (s.recordsOf (walks.flatMap (fun w => (leavesOf w).map (·.2)))).isNone then some (0x64, 64) else none
  let tblBad := v.tables.findSome? (fun r => if s.savedTableOk i ((r.2.drop 2).take 128) then none else some (0x64, r.1 + 2))
  [lay, ids, walkBad, recBad, tblBad].findSome? id

/-- Install the restored contexts, page records, queues, fences and tables; the aperture. -/
def State.installSaved (s : State) (i : Nat) (v : Saved) : State :=
  let leavesOf (a : Nat) : List (Nat × Leaf) := match s.walkRoot i a with
    | .leaves l => l
    | _ => []
  let pages := (s.recordsOf (v.ctxs.flatMap (fun r => (leavesOf (field r.2 10 8)).map (·.2)))).getD s.host.pages
  let s := v.ctxs.foldl (fun s r =>
    let f (o n : Nat) := field r.2 o n
    let pa := f 10 8
    let m (o n : Nat) := mload s.mem (pa + o) n
    let lost := f 4 1 == 3
    let acct : Account := ⟨m 0x40 8, m 0x48 8, m 0x50 8, m 0x58 8, m 0x68 8 * 1000000 + m 0x60 8, m 0x70 8, m 0x78 8⟩
    let x : CtxSt :=
      { inst := i, state := if lost then .lost else .idle, domain := f 5 1, pasid := f 6 4, recordPA := pa, slot := none, used := 0,
        lostCode := if lost then m 0x0C 2 else 0, lostTick := if lost then m 0x18 8 else 0, createTick := m 0x10 8, acct := acct,
        snapPj := acct.pj, gen := m 0x118 4, leaves := leavesOf pa, l1 := m 0x100 8, frames := [], teardown := none }
    let s := { s with ctxs := tput s.ctxs (f 2 2) x }
    if f 18 1 = 1 then s.modInst i (fun y => { y with aperture := some (f 2 2) }) else s) { s with host := { s.host with pages := pages } }
  let s := v.queues.foldl (fun (s : State) r =>
    let f (o n : Nat) := field r.2 o n
    let y := QueueSt.fresh (f 0x12 1) (f 0x14 2) i (f 0x13 1) (f 0x18 8) (f 0x20 8) (f 0x16 2) (maskGalleys (f 0x28 8))
    let y := { y with deadlineRel := f 0x30 4, wdogMs := f 0x34 2, epoch := f 0x38 2, head := f 0x3A 4, tail := f 0x3E 4,
                      cqWritten := f 0x42 4, cqHead := f 0x46 4, fetch := f 0x4A 4, dbDropped := bit (f 0x4E 1) 0, drops := f 0x4F 4 }
    { s with queues := tput s.queues (f 16 2) y }) s
  let s := v.fences.foldl (fun (s : State) r =>
    let f (o n : Nat) := field r.2 o n
    { s with fences := tput s.fences (f 2 2) ⟨f 4 2, i, f 8 8, f 6 2, bit (f 16 1) 0, f 17 8⟩ }) s
  v.tables.foldl (fun (s : State) r =>
    let l := (r.2.drop 2).take 128
    let t := field l 0 2
    let d := tableOfImage l
    let sync := field l 0x60 1 == 0
    let dyn := { d.dyn with clockHand := field l 0x4C 4, generation := (tget s.generations t).getD 0,
                            mirrorState := if sync then .inSync else .resync, staleStack := d.mirrorStack,
                            dirty := if sync then [] else (List.range (2 ^ 15)).filter d.granules }
    State.descWritten { s with tables := tput s.tables t { d with state := .live, dyn := dyn } } t) s

/-- The seal of one saved record, computed afresh (check 6 of R430); none when the image cannot be sealed. -/
def State.reseal (s : State) (r : List Byte) : Option (SealSt × State) :=
  let cid := field r 4 2
  let va := field r 6 8
  let n := field r 14 8
  if !(within 256 (2 ^ 20) n && n % 256 == 0) || s.sec.keyless then none
  else match s.ctxRead cid va n with
    | (.ok l, s) =>
      if !imageOk l || (imageOf l).imageBytes != n then none
      else
        let im := imageOf l
        let gen := (s.sealCount + 1) % 2 ^ 32
        some (⟨cid, gen, va, n, sealTag s.sealKey cid (field r 2 2) gen va im l, im, (l.drop im.costOff).take im.costLen⟩,
              { s with sealCount := gen })
    | (.error _, _) => none

/-- RESTORE (R430): everything is checked before anything is installed; the instance stays FROZEN. -/
def execRestore (q : Nat) (s : State) : Res :=
  .next (s.runInst q (subIs 0xE) (fun a => a == 0) notExclusive (fun s x c =>
    let i := cmdObj c
    let y := s.inst i
    if y.state ≠ .enabled then s.refuse q c.no 0x60 y.state.code
    else if s.ctxs.any (fun p => p.2.inst == i) || s.fences.any (fun p => p.2.inst == i)
        || s.queues.any (fun p => p.2.inst == i && p.1 != q) then s.refuse q c.no 0x62 0
    else if cmdLen c < 64 then s.refuse q c.no 0x10 0x20
    else s.withBuf q x c (cmdBuf c) (cmdLen c) (fun s l =>
      let l := if 64 ≤ field l 8 4 ∧ field l 8 4 ≤ l.length then l.take (field l 8 4) else l
      match savedFail l with
      | some o => s.refuse q c.no 0x64 o
      | none =>
        let v := savedOf l
        match s.restoreFail i v with
        | some (st, d) => s.refuse q c.no st d
        | none =>
          let t := s.installSaved i v
          let r := v.seals.foldl (fun (r : Option Nat × State) e =>
            match r.1 with
            | some _ => r
            | none =>
              let h := field e.2 2 2
              if thas r.2.seals h || decide (4096 ≤ h) || !v.ctxs.any (fun c => field c.2 2 2 == field e.2 4 2) then (some (e.1 + 2), r.2)
              else match r.2.reseal e.2 with
                | none => (some (e.1 + 6), r.2)
                | some (se, s') => (none, { s' with seals := tput s'.seals h se })) (none, t)
          match r.1 with
          | some o => s.refuse q c.no 0x64 o
          | none =>
            let s := (r.2.modInst i (fun y => { y with state := .frozen }))
            s.succeed q c.no 0)))

end Sys2Proof.Machine
end

