-- ==== Sys2Proof/Machine/RegWrite.lean ====
section
/-! DEFINITION. Register writes (00_scope.md R16 to R22; 10_queues.md Tables 10-8 to 10-15; 12_host_port.md Tables 12-1,
12-6a, 12-12, 12-13; 14_recovery.md Tables 14-3, 14-4; 15_security.md Tables 15-2, 15-3; 16_dictionary.md Tables 16-5,
16-6; 17_boundary.md Tables 17-17, 17-18). -/

namespace Sys2Proof.Machine

/-! ## Bytes of a write (R19, R21) -/

/-- A write as it reaches a register: the value in the enabled bytes, the others 0, and the mask of enabled bits. -/
structure RegPart where
  value : Nat
  mask : Nat
  deriving DecidableEq, Repr

/-- The part of a write at `off`, `width` bytes wide, that reaches the register of `rw` bytes at `ro`; none when no enabled
byte does. -/
def regPart (off width value en ro rw : Nat) : Option RegPart :=
  let hit (i : Nat) : Bool := decide (off ≤ ro + i) && decide (ro + i < off + width) && bit en (ro + i - off)
  let sum (f : Nat → Nat) : Nat := ((List.range rw).map (fun i => if hit i then f i * 256 ^ i else 0)).sum
  if (List.range rw).any hit then some ⟨sum (fun i => value / 256 ^ (ro + i - off) % 256), sum (fun _ => 0xFF)⟩ else none

/-- A register of the RW kinds: bytes that are not written keep their value. -/
def RegPart.onto (p : RegPart) (old : Nat) : Nat := old - (old &&& p.mask) + p.value

/-! ## The function page -/

/-- Registers of the function page that a write may act on, with their widths. -/
def fnRegs : List (Nat × Nat) :=
  [(0x004, 4), (0x008, 8), (0x010, 8), (0x018, 4), (0x040, 8), (0x048, 8), (0x060, 4), (0x064, 4), (0x080, 8), (0x088, 8),
   (0x090, 4), (0x098, 4), (0x0C0, 8), (0x0C8, 4), (0x0D0, 4), (0x0D4, 4), (0x800, 4), (0x804, 4), (0x808, 4)]

/-- A base register that is locked while `locked` (R18, R370, R471). -/
def State.lockedBase (s : State) (fn ro : Nat) (locked : Bool) (f : FnRegs → FnRegs) : State :=
  if locked then s.lockViolation ro (some fn) else s.modFn fn f

/-- The registers of a doorbell page (Table 10-8). -/
def State.doorReg (s : State) (fn q ro : Nat) (p : RegPart) : State :=
  match s.doorQueue fn q with
  | none => s
  | some x =>
    match ro with
    | 0x00 => s.modQueue q (fun x => x.ring p.value)
    | 0x08 =>
      let h := p.value % 2 ^ 32
      if x.unconsumed < (h + 2 ^ 32 - x.cqHead) % 2 ^ 32 then s.modQueue q QueueSt.drop
      else (s.modQueue q (fun x => { x with cqHead := h })).settle
    | 0x20 =>
      let s := if bit p.value 2 then s.modQueue q (fun x => { x with dbDropped := false }) else s
      if bit p.value 1 then (s.applyFlush q [] false).settle else s
    | 0x24 => s.modQueue q (fun x => { x with drops := p.onto x.drops })
    | _ => s

/-- FN_KQ_CTRL and FN_FLT_CTRL as a read returns their stored fields. -/
def FnRegs.kqCtrl (r : FnRegs) : Nat := b2n r.kqEnable * 2 ^ 31 + r.kqLog2 * 2 ^ 16 + r.kqVector
def FnRegs.fltCtrl (r : FnRegs) : Nat := b2n r.fltEnable * 2 ^ 31 + r.fltLog2 * 2 ^ 16 + r.fltVector
def FnRegs.bncCtrl (r : FnRegs) : Nat := b2n r.bncEnable * 2 ^ 31 + r.bncLog2 * 2 ^ 16

/-- The mailbox registers, in the PF's page (16_dictionary.md R571). -/
def State.mbxReg (s : State) (ro : Nat) (p : RegPart) : State :=
  match ro with
  | 0x800 => if bit p.value 0 then (s.message .mailbox (mread s.mgmt.mbx.req 0 1008)).settle else s
  | 0x804 => if bit p.value 1 then { s with mgmt := { s.mgmt with mbx := { s.mgmt.mbx with done := false } } } else s
  | _ => { s with mgmt := { s.mgmt with mbx := { s.mgmt.mbx with vector := p.onto s.mgmt.mbx.vector % 65536 } } }

/-- One register of a function's page. -/
def State.fnReg (s : State) (fn ro : Nat) (p : RegPart) : State :=
  let r := (s.inst fn).fn
  match ro with
  | 0x004 => s.modFn fn (fun y => { y with
      lockAdv := y.lockAdv && !bit p.value 3, ctxLost := y.ctxLost && !bit p.value 4,
      instReset := y.instReset && !bit p.value 5, restarted := y.restarted && !bit p.value 6 })
  | 0x008 => s.lockedBase fn ro r.kqEnable (fun y => { y with kqSq := p.onto y.kqSq })
  | 0x010 => s.lockedBase fn ro r.kqEnable (fun y => { y with kqCq := p.onto y.kqCq })
  | 0x018 => s.writeKqCtrl fn (p.onto r.kqCtrl)
  | 0x080 => if s.exclusive then s.lockedBase fn ro r.bncEnable (fun y => { y with bncIn := p.onto y.bncIn }) else s
  | 0x088 => if s.exclusive then s.lockedBase fn ro r.bncEnable (fun y => { y with bncOut := p.onto y.bncOut }) else s
  | 0x090 => if s.exclusive then (s.writeBncCtrl fn (p.onto r.bncCtrl)).settle else s
  | 0x098 => if s.exclusive && p.value % 2 == 0 then s.readProd (fn * 8 + p.value % 16 / 2) else s
  | 0x0C0 => s.lockedBase fn ro r.fltEnable (fun y => { y with fltBase := p.onto y.fltBase })
  | 0x0C8 => s.writeFltCtrl fn (p.onto r.fltCtrl)
  | 0x0D0 => s.modFn fn (fun y => { y with fltCons := p.onto y.fltCons })
  | 0x0D4 => s.modFn fn (fun y => { y with fltDrops := p.onto y.fltDrops })
  | _ =>
    if 0x800 ≤ ro then (if fn = 0 then s.mbxReg ro p else s)
    else match r.kqId with
      | some q => s.doorReg fn q (ro - 0x40) p
      | none => s

/-- Bytes of MBX_REQ that a write changes. -/
def State.mbxReqBytes (s : State) (off width value en : Nat) : State :=
  (List.range width).foldl (fun (s : State) i =>
    if bit en i && within 0x810 0xBFF (off + i) then
      { s with mgmt := { s.mgmt with mbx := { s.mgmt.mbx with
          req := mput s.mgmt.mbx.req (off + i - 0x810) (BitVec.ofNat 8 (value / 256 ^ i)) } } }
    else s) s

/-! ## MSI-X -/

/-- Vectors of a function (Table 12-1). -/
def vectorsOf (fn : Nat) : Nat := if fn = 0 then 2048 else 64

/-- One byte of the MSI-X table: address and data are kept; bit 0 of the vector control masks (R419). -/
def State.msixByte (s : State) (fn o : Nat) (b : Byte) : State :=
  let v := o / 16
  let s := s.modInst fn (fun (y : InstSt) => { y with msix := { y.msix with entries := mput y.msix.entries o b } })
  if o % 16 ≠ 12 then s
  else if b.toNat % 2 = 1 then
    s.modInst fn (fun (y : InstSt) => { y with msix := { y.msix with unmasked := y.msix.unmasked.filter (fun x => x != v) } })
  else s.unmask fn v

/-- Message Control: [15] enable, [14] function mask; what is pending and no longer held is sent. -/
def State.msixControl (s : State) (fn v : Nat) : State :=
  let s := s.modInst fn (fun (y : InstSt) => { y with msix := { y.msix with enable := bit v 15, allMasked := bit v 14 } })
  let m := (s.inst fn).msix
  let go := m.pend.filter (fun x => m.enable && !m.holds x)
  go.foldl (fun s x => s.raise fn x) (s.modInst fn (fun (y : InstSt) => { y with msix := { y.msix with pend := y.msix.pend.filter (fun x => !go.contains x) } }))

/-! ## BAR0 (Table 12-6a) -/

/-- Whether a function's registers take writes: in service, or the PF in safe mode (17_boundary.md R609). -/
def State.regServes (s : State) (fn : Nat) : Bool :=
  (s.fnServes fn && s.fnExists fn) || (s.bnd.power == .safe && fn == 0 && s.linkUp)

/-- A BAR0 write that the function takes. -/
def State.bar0Write (s : State) (fn off width value en : Nat) : State :=
  if off < 0x1000 then
    let s := fnRegs.foldl (fun (s : State) (r : Nat × Nat) => match regPart off width value en r.1 r.2 with
      | some p => s.fnReg fn r.1 p
      | none => s) s
    if fn = 0 then s.mbxReqBytes off width value en else s
  else if within 0x10000 (0x10000 + 16 * vectorsOf fn - 1) off then
    (List.range width).foldl (fun (s : State) i =>
      if bit en i then s.msixByte fn (off + i - 0x10000) (BitVec.ofNat 8 (value / 256 ^ i)) else s) s
  else if within 0x800000 0xFFFFFF off then
    let q := (off - 0x800000) / 0x1000
    ([(0x00, 8), (0x08, 8), (0x20, 4), (0x24, 4)] : List (Nat × Nat)).foldl (fun (s : State) (r : Nat × Nat) =>
      match regPart (off % 0x1000) width value en r.1 r.2 with
      | some p => s.doorReg fn q r.1 p
      | none => s) s
  else s

/-! ## Configuration space, protection set-up, flash port -/

/-- Configuration writes (Table 12-1, R415, R417, R419, R421). -/
def State.configWrite (s : State) (fn : Nat) (r : CfgReg) (value : Nat) : State :=
  match r with
  | .powerState =>
    if fn = 0 then s
    else if value = 3 then s.modInst fn (fun (y : InstSt) => { y with d3 := true })
    else if value = 0 ∧ (s.inst fn).d3 then ((s.modInst fn (fun (y : InstSt) => { y with d3 := false })).resetInstance fn [] false false).settle
    else s
  | .msixControl => s.msixControl fn value
  | .completionTimeout =>
    if fn = 0 ∧ within 5000 25000000 value then { s with host := { s.host with timeout := value } } else s
  | .hdmCommit =>
    if fn = 0 ∧ value = 0 ∧ s.host.link = .cxl then { s with host := { s.host with decoder := none, commitError := false } } else s

/-- Registers of the protection set-up. -/
def protRegs : List Nat := [0x000, 0x004, 0x008, 0x00C] ++ (List.range 64).map (fun k => 0x100 + 4 * k)

/-- One protection register (Table 15-3, R516). -/
def State.protReg (s : State) (ro : Nat) (p : RegPart) : State :=
  let r := s.sec.prot
  let set (r : ProtRegs) : State := { s with sec := { s.sec with prot := r } }
  if r.lock then
    -- PROT_LOCK alone may be written with the value it has (R18)
    if ro = 0 ∧ bit (p.onto (2 ^ 31)) 31 then s else s.lockViolation ro none
  else match ro with
    | 0x000 => if bit p.value 31 then set { r with lock := true } else s
    | 0x004 => set { r with frPolicy := p.onto r.frPolicy &&& 0xF }
    | 0x008 =>
      let v := p.onto r.debugCtrl &&& 0x80000003
      if bit v 31 = bit r.debugCtrl 31 then set { r with debugCtrl := v } else (set { r with debugCtrl := v }).coldSlots
    | 0x00C => set { r with keyPolicy := p.onto r.keyPolicy &&& 0xFF0007 }
    | _ =>
      let k := (ro - 0x100) / 4
      set { r with limits := tput r.limits k (p.onto ((tget r.limits k).getD 0xFFFFFFFF)) }

/-- One flash port register (Tables 17-17, 17-18). -/
def State.flashReg (s : State) (ro : Nat) (p : RegPart) : State :=
  match ro with
  | 0x000 =>
    let s := s.modFp (fun x => { x with op := p.onto x.op % 16 })
    if bit p.value 31 then s.modFp (fun x => x.start s.now) else s
  | 0x004 => if bit p.value 30 then s.modFp (fun x => { x with done := false }) else s
  | 0x008 => s.modFp (fun x => { x with addr := p.onto x.addr })
  | _ => s.modFp (fun x => { x with len := p.onto x.len })

/-- REGISTER_WRITE: `width` bytes at `off`, with the byte enables `en`. -/
def execRegisterWrite (sp : RegSpace) (off width value en : Nat) (s : State) : Res :=
  match sp with
  | .bar0 fn =>
    if !s.regServes fn then .next s
    else if (width != 4 && width != 8) || off % width != 0 then
      .next (s.fault { faultOf 0x3007 with inst := some fn, unitType := 0x08, addr := off, info0 := off } [])
    else .next (s.bar0Write fn off width value en)
  | .config fn r => if (s.up && s.fnExists fn) || (s.bnd.power == .safe && fn == 0) then .next (s.configWrite fn r value) else .next s
  | .prot =>
    if !s.powered then .next s
    else .next (protRegs.foldl (fun (s : State) ro => match regPart off width value en ro 4 with
      | some p => s.protReg ro p
      | none => s) s)
  | .flash =>
    if !s.powered then .next s
    else
      let s := ([0x000, 0x004, 0x008, 0x00C] : List Nat).foldl (fun (s : State) ro => match regPart off width value en ro 4 with
        | some p => s.flashReg ro p
        | none => s) s
      .next ((List.range width).foldl (fun (s : State) i =>
        if bit en i && within 0x1000 0x1FFF (off + i) then
          s.modFp (fun x => { x with buf := mput x.buf (off + i - 0x1000) (BitVec.ofNat 8 (value / 256 ^ i)) })
        else s) s)

end Sys2Proof.Machine
end

