-- ==== Sys2Proof/Machine/Serving.lean ====
section
/-! DEFINITION. The meanings of the serving commands, the step builder, the deadline monitor and the proofs of
sequence state (09_serving.md R306 to R333; 14_recovery.md R500 to R503). -/

namespace Sys2Proof.Machine

def State.modServe (s : State) (f : ServeSt → ServeSt) : State := { s with serve := f s.serve }

/-! ## The step grid (R310) -/

/-- The configuration with a change of period that is through taken in. -/
def StepCfg.norm (c : StepCfg) (now : Nat) : StepCfg :=
  match c.newPeriod with
  | some (p, k, t) => if t < now then { c with period := p, baseK := k, baseTick := t, newPeriod := none } else c
  | none => c

/-- The step of domain d whose step tick is t. -/
def StepCfg.stepAt (c : StepCfg) (d t : Nat) : Option Nat :=
  match c.origin with
  | none => none
  | some _ =>
    let first := c.baseTick + d * 2000
    if first ≤ t ∧ (t - first) % c.period = 0 then some (c.baseK + (t - first) / c.period) else none

/-- STEP_CONFIG. -/
def execStepConfig (q : Nat) (s : State) : Res :=
  .next (s.runCmd q 0x5D (fun s _ c =>
    let en := field c.body 0x10 1
    let p := field c.body 0x14 4
    let pp := field c.body 0x18 4
    if decide (2 ^ s.domains ≤ en) || decide (p < 50000) || decide (5000000 < p) || decide (pp < 100000) || decide (10000000 < pp) then
      s.refuse q c.no 0x48 0
    else
      let g := s.serve.cfg.norm s.now
      let g := { g with enable := en, proofPeriod := pp }
      let g := match g.origin with
        | none =>
          if en = 0 then { g with period := p }
          else
            let o := (s.now / 100 + 1) * 100
            { g with origin := some o, baseK := 0, baseTick := o, period := p }
        | some _ =>
          if g.period = p then { g with newPeriod := none }
          else
            -- the next step tick of domain 0
            let n := if s.now < g.baseTick then 0 else (s.now - g.baseTick) / g.period + 1
            { g with newPeriod := some (p, g.baseK + n, g.baseTick + n * g.period) }
      State.succeed (s.modServe (fun v => { v with cfg := g })) q c.no 0))

/-! ## Step models (R308, R309) -/

/-- The seal entry of a context's image at an address: the lowest handle. -/
def State.sealedAt (s : State) (cid va : Nat) : Option (Nat × SealSt) :=
  s.seals.find? (fun p => p.2.ctx == cid && p.2.imageVA == va)

/-- Phases of a cost model; 0 when there is none. -/
def costPhases (l : List Byte) : Nat := field l 0 1

/-- STEP_MODEL. -/
def execStepModel (q : Nat) (s : State) : Res :=
  .next (s.runCmd q 0x58 (fun s x c =>
    let f (off n : Nat) := field c.body off n
    let slot := f 0x10 1
    let no (st d : Nat) := s.refuse q c.no st d
    let owner := (tget s.serve.models slot).bind (fun (m : StepModel) => (tget s.ctxs m.ctx).map (·.inst))
    let foreign := match owner with
      | some i => !x.mayTouch i
      | none => false
    if foreign then no 0x12 0
    else if bit (f 0x11 1) 0 then
      (if (tget s.serve.models slot).isNone then no 0x17 0x10
       else if s.serve.seqs.any (fun p => p.2.model == slot) then no 0x4A 0
       else State.succeed (s.modServe (fun v => { v with models := tdel v.models slot })) q c.no 0)
    else
      let cid := f 0x12 2
      match s.namedCtx x cid 0x12 with
      | .error (st, d) => no st d
      | .ok cx =>
        match tget s.queues (f 0x14 2) with
        | none => no 0x17 0x14
        | some y =>
          let bm := f 0x16 2
          let mb := f 0x20 1
          let mode := f 0x21 1
          let margin : Int := BitVec.toInt (BitVec.ofNat 32 (f 0x24 4))
          let mbox := f 0x28 4
          let len := f 0x2C 4
          if !x.mayTouch y.inst then no 0x12 0
          else if y.kind != 1 || y.ctx != cid || bm == 0 || decide (4096 < bm) || mb == 0 || decide (16 < mb) || decide (2 < mode)
              || decide (margin < -1000000) || decide (1000000 < margin) || mbox % 64 != 0 || decide (mbox < generalBase)
              || decide (galleyBytes < mbox + 64) || len % 65536 != 0 || decide (len < 16 * bm * mb)
              || f 0x30 8 % 65536 != 0 || decide (2 ^ 48 ≤ f 0x30 8) then no 0x48 0
          else
            match s.sealedAt cid (f 0x18 8) with
            | none => no 0x4B 0
            | some (h, se) =>
              let im := se.info
              let ptr := im.ptrMask.toNat % 256
              if decide (im.patchLen < 64) || ptr != 2 || decide (im.seedWord ≤ 7)
                  || (mode == 2 && (!im.draft || im.costLen == 0)) || (mode != 0 && im.costLen == 0)
                  || (decide (64 < im.patchLen) && !cx.mapped (f 0x38 8) (im.patchLen - 64) true false) then no 0x48 0
              else
                let m : StepModel :=
                  { ctx := cid, queue := f 0x14 2, imageVA := f 0x18 8, sealNo := h, batchMax := bm, maxBatches := mb,
                    dlmMode := mode, margin := margin, mbox := mbox, wlBase := f 0x30 8, wlLen := len, templ := f 0x38 8,
                    cost := se.cost, cal := 1024, batches := 0, drafts := 0, late := 0, skipped := 0, wouldDraft := 0,
                    reports := 0, runs := [], wlPos := 0 }
                -- the counters of a slot that is redefined stay, and runs of batches under way in the same ring
                let m := match tget s.serve.models slot with
                  | some o =>
                    let m := { m with batches := o.batches, drafts := o.drafts, late := o.late, skipped := o.skipped,
                                      wouldDraft := o.wouldDraft, reports := o.reports }
                    if o.wlBase = m.wlBase ∧ o.wlLen = m.wlLen ∧ o.ctx = m.ctx then { m with runs := o.runs, wlPos := o.wlPos } else m
                  | none => m
                State.succeed (s.modServe (fun v => { v with models := tput v.models slot m })) q c.no 0))

/-! ## Sequences (R304, R306, R307, R311 to R313) -/

/-- The lowest free position of a slice. -/
def State.freePos (s : State) (v : Nat) : Option Nat :=
  let used := (s.serve.seqs.filter (fun p => sliceOf p.1 == v)).map (·.1)
  (List.range (used.length + 1)).findSome? (fun j =>
    if j < 2 ^ 15 ∧ !used.contains (v * 2 ^ 15 + j) then some (v * 2 ^ 15 + j) else none)

/-- SEQ_OPEN. -/
def execSeqOpen (q : Nat) (s : State) : Res :=
  .next (s.runCmd q 0x59 (fun s x c =>
    let f (off n : Nat) := field c.body off n
    let no (st d : Nat) := s.refuse q c.no st d
    let slot := f 0x10 1
    let rel := f 0x18 4
    let bytes := f 0x1C 4
    let va := f 0x20 8
    let proof := bit (f 0x11 1) 1
    match tget s.serve.models slot, tget s.ctxs x.ctx with
    | some m, some cx =>
      if m.ctx ≠ x.ctx then no 0x4B 0
      else if decide (rel < 100) || decide (100000000 < rel) || bytes % 256 != 0 || decide (65536 < bytes)
          || (va == 0 && bytes != 0) || (va != 0 && decide (2 ^ 48 < va + 2 * bytes)) || (bytes != 0 && !cx.mapped va (2 * bytes) true true) then
        no 0x48 0
      else if s.overQuota x.inst 6 1 then no 0x24 0
      else
        let home : List Nat := match s.transCtx x.ctx va with
          | some (false, a) => if va ≠ 0 ∧ s.domainOf (stackOf a) = cx.domain then [stackOf a] else []
          | _ => []
        match (home ++ s.domainSlices cx.domain).findSome? s.freePos with
        | none => no 0x49 0
        | some i =>
          let off := if proof then lowestGap (s.poolUsedBy (sliceOf i)) (2 * bytes) else some 0
          match off with
          | none => no 0x49 0
          | some o =>
            let e : SeqEntry :=
              { st := .idle, proof := proof, periodic := bit (f 0x11 1) 0, pend := false, resumed := false, late := false,
                drafted := false, model := slot, inst := x.inst, ctx := x.ctx, overrun := 0, loc := f 0x14 4, input := 0,
                steps := 0, deadlineRel := rel, deadline := 0, readyTime := 0, lastDone := 0, stateVA := va,
                stateBytes := bytes, proofStep := 0, lastStep := 0, pendDeadline := 0, poolOff := o, changed := true }
            State.succeed (s.modServe (fun v => { v with seqs := tput v.seqs i e })) q c.no i
    | _, _ => no 0x4B 0))

def incSat (n : Nat) : Nat := min 0xFFFF (n + 1)

/-- R312: what a signal accepted now does to an entry. -/
def SeqEntry.signal (e : SeqEntry) (now delta input : Nat) : SeqEntry :=
  let d := now + (if delta = 0 then e.deadlineRel else delta)
  match e.st with
  | .idle => if e.periodic then { e with input := input }
             else { e with input := input, deadline := d, readyTime := now, st := .ready }
  | .ready => if e.periodic then { e with input := input }
              else { e with input := input, deadline := min e.deadline d, overrun := incSat e.overrun }
  | .running =>
    if e.pend then { e with input := input, pendDeadline := min e.pendDeadline d, overrun := incSat e.overrun }
    else { e with input := input, pendDeadline := d, pend := true }
  | _ => e

/-- One signal record: its status and its effect. -/
def State.signalOne (s : State) (cid : Nat) (r : List Byte) : Nat × State :=
  let w := field r 0 4
  let i := w % 2 ^ 18
  if bits w 23 18 != 0 || field r 12 4 != 0 then (0x48, s)
  else match tget s.serve.seqs i with
    | none => (0x4A, s)
    | some e =>
      if e.ctx ≠ cid ∨ e.st = .closing ∨ e.st = .suspended then (0x4A, s)
      else (0, s.modSeq i (fun e => e.signal s.now (field r 4 4) (field r 8 4)))

/-- SEQ_SIGNAL: DETAIL counts the records whose status is not zero. -/
def execSeqSignal (q : Nat) (s : State) : Res :=
  .next (s.runCmd q 0x5A (fun s x c =>
    let n := field c.body 0x10 4
    let va := field c.body 0x18 8
    if n = 0 ∨ 65536 < n then s.refuse q c.no 0x48 0
    else
      let s0 := s
      match s.ctxRead x.ctx va (16 * n) with
      | (.error (.fault code a info), s) => s.cmdFault q x c code a info
      | (.error .unitReset, _) => s0
      | (.ok l, s) =>
        let r := (List.range n).foldl (fun (r : List Byte × Nat × State) k =>
          let rec_ := (l.drop (16 * k)).take 16
          let o := r.2.2.signalOne x.ctx rec_
          (r.1 ++ rec_.take 3 ++ toLE 1 o.1 ++ rec_.drop 4, r.2.1 + (if o.1 = 0 then 0 else 1), o.2)) ([], 0, s)
        match r.2.2.ctxWrite x.ctx va r.1 with
        | (some (.fault code a info), s) => s.cmdFault q x c code a info
        | (some .unitReset, _) => s0
        | (none, s) => (s.tagInst s0 x.inst q c.no).succeed q c.no r.2.1))

/-- SEQ_CLOSE. -/
def execSeqClose (q : Nat) (s : State) : Res :=
  .next (s.runCmd q 0x5B (fun s x c =>
    let i := field c.body 0x10 4
    match tget s.serve.seqs i with
    | none => s.refuse q c.no 0x4A 0
    | some e =>
      if e.ctx ≠ x.ctx then s.refuse q c.no 0x4A 0
      else
        let s := match e.st with
          | .running => s.modSeq i (fun e => { e with st := .closing })
          | .closing => s
          | _ => s.freeSeq i
        s.succeed q c.no 0))

def SeqSt.code (x : SeqSt) : Nat :=
  match x with | .idle => 1 | .ready => 2 | .running => 3 | .closing => 4 | .suspended => 5

/-- Table 09-1, as SEQ_QUERY writes it when `tenant`. -/
def SeqEntry.bytes (e : SeqEntry) (tenant : Bool) : List Byte :=
  let t (x : Nat) := toLE 8 (if tenant then coarse x else x)
  toLE 1 e.st.code
    ++ toLE 1 (b2n e.proof * 128 + b2n e.periodic * 64 + b2n e.pend * 32 + b2n e.resumed * 16 + b2n e.late * 8 + b2n e.drafted * 4)
    ++ toLE 1 e.model ++ toLE 1 e.inst ++ toLE 2 e.ctx ++ toLE 2 e.overrun ++ toLE 4 e.loc ++ toLE 4 e.input ++ toLE 4 e.steps
    ++ toLE 4 e.deadlineRel ++ t e.deadline ++ t e.readyTime ++ t e.lastDone ++ toLE 8 e.stateVA ++ toLE 4 e.stateBytes
    ++ toLE 4 e.proofStep ++ toLE 8 e.lastStep ++ t e.pendDeadline ++ toLE 48 0

/-- SEQ_QUERY (R307). -/
def execSeqQuery (q : Nat) (s : State) : Res :=
  .next (s.runCmd q 0x5C (fun s x c =>
    let first := field c.body 0x10 4
    let n := field c.body 0x14 2
    if n = 0 ∨ 256 < n ∨ 2 ^ 18 < first + n then s.refuse q c.no 0x48 0
    else
      let l := (List.range n).flatMap (fun j => match tget s.serve.seqs (first + j) with
        | some e => if e.ctx = x.ctx then e.bytes true else toLE 128 0
        | none => toLE 128 0)
      let s0 := s
      match s.ctxWrite x.ctx (field c.body 0x18 8) l with
      | (some (.fault code a info), s) => s.cmdFault q x c code a info
      | (some .unitReset, _) => s0
      | (none, s) => (s.tagInst s0 x.inst q c.no).succeed q c.no n))

/-! ## Building a step (R314 to R317) -/

/-- Whether a run of b bytes fits next in the work-list ring, and where (R316). -/
def StepModel.place (m : StepModel) (b : Nat) : Option Nat :=
  let o := if m.wlPos + b ≤ m.wlLen then m.wlPos else 0
  if b ≤ m.wlLen ∧ m.runs.all (fun r => !overlaps o b r.2.1 r.2.2.1) then some o else none

/-- Place the runs of batches with these sizes, numbered from k. -/
def StepModel.placeAll (m : StepModel) : List Nat → Nat → Option (List Nat × StepModel)
  | [], _ => some ([], m)
  | n :: l, k =>
    match m.place (16 * n) with
    | none => none
    | some o =>
      match StepModel.placeAll { m with runs := m.runs ++ [(k, o, 16 * n, false)], wlPos := o + 16 * n } l (k + 1) with
      | some (os, m') => some (o :: os, m')
      | none => none

/-- Sizes of the batches of `take` members: they differ by at most one, earlier ones the larger. -/
def batchSizes (take bmax : Nat) : List Nat :=
  let nb := (take + bmax - 1) / bmax
  (List.range nb).map (fun i => take / nb + (if i < take % nb then 1 else 0))

/-- free_records(m): the most members, up to n, whose batches' runs all fit. -/
def StepModel.fit (m : StepModel) (k : Nat) : Nat → Nat
  | 0 => 0
  | n + 1 => if (m.placeAll (batchSizes (n + 1) m.batchMax) k).isSome then n + 1 else StepModel.fit m k n

/-- Entries in order of deadline, then index. -/
def insertSeq (p : Nat × SeqEntry) : List (Nat × SeqEntry) → List (Nat × SeqEntry)
  | [] => [p]
  | a :: l => if p.2.deadline < a.2.deadline ∨ (p.2.deadline = a.2.deadline ∧ p.1 < a.1) then p :: a :: l else a :: insertSeq p l

/-- Entries that a build of domain d may select: READY, their context alive and its instance running, their slice
readable and not being written back. -/
def State.selectable (s : State) (d : Nat) (p : Nat × SeqEntry) : Bool :=
  let v := sliceOf p.1
  p.2.st == .ready && s.domainOf v == d && s.instRuns p.2.inst
  && ((tget s.ctxs p.2.ctx).map (fun x => x.state != CtxState.lost)).getD false
  && (s.formeUp v || s.serve.fromProof.contains v) && !s.serve.lost.contains v && !s.serve.writeBack.contains v

/-- Split a list into parts of the given sizes. -/
def splitBy {α : Type} : List Nat → List α → List (List α)
  | [], _ => []
  | n :: ns, l => l.take n :: splitBy ns (l.drop n)

/-- The batches of one slot: the room left, the batches with their members. -/
def State.buildSlot (s : State) (d k t slot : Nat) (m : StepModel) (snap : List (Nat × SeqEntry)) (room : Nat) :
    Nat × List Batch × State :=
  let cand := (snap.filter (fun p => p.2.model == slot && p.2.ctx == m.ctx)).foldl (fun l p => insertSeq p l) []
  let cap := min (min cand.length (m.batchMax * m.maxBatches)) room
  let take := m.fit s.serve.nextBatch cap
  if cand.isEmpty then (room, [], s)
  else if take = 0 then (room, [], s.modServe (fun v => { v with models := tput v.models slot { m with skipped := m.skipped + 1 } }))
  else
    let sizes := batchSizes take m.batchMax
    match m.placeAll sizes s.serve.nextBatch with
    | none => (room, [], s)
    | some (offs, m') =>
      let parts := splitBy sizes (cand.take take)
      let bs := ((parts.zip offs).zipIdx).map (fun (p : (List (Nat × SeqEntry) × Nat) × Nat) =>
        ({ model := slot, domain := d, stepNo := k, stepTick := t, number := p.2, members := p.1.1.map (·.1), conf := m',
           deadline := (p.1.1.head?.map (fun e => e.2.deadline)).getD 0, wlVA := m.wlBase + p.1.2, queue := m.queue, no := 0,
           verdicts := [], draftFrom := none, wouldDraft := false, predicted := 0, zeroReport := none, reports := [], fwd := [],
           done := none, drafted := false, preempted := false } : Batch))
      (room - take, bs, s.modServe (fun v => { v with models := tput v.models slot m', nextBatch := v.nextBatch + bs.length }))

/-- The records of a batch's work list (R316). -/
def State.workList (s : State) (b : Batch) : List Byte :=
  b.members.flatMap (fun i => match tget s.serve.seqs i with
    | some e => toLE 4 i ++ toLE 4 e.steps ++ toLE 4 e.input ++ toLE 4 e.loc
    | none => toLE 16 0)

/-- Table 09-8. -/
def Batch.stepBlock (b : Batch) : List Byte :=
  toLE 8 b.stepNo ++ toLE 8 b.wlVA ++ toLE 8 (b.number * 2 ^ 48 + b.members.length * 2 ^ 32 + b.model * 2 ^ 24)
    ++ toLE 8 (coarse b.deadline) ++ toLE 8 b.stepTick ++ toLE 24 0

/-- The run of a batch that is not injected is given back. -/
def State.dropRun (s : State) (k : Nat) (b : Batch) : State :=
  s.modServe (fun v => { v with models := tmod v.models b.model (fun (m : StepModel) =>
    { m with runs := m.runs.filter (fun r => r.1 != k) }) })

/-- R317, R321: write a batch's work list and inject it as a LAUNCH of its queue. -/
def State.inject (s : State) (k : Nat) (b : Batch) : State :=
  let m := b.conf
  match tget s.queues b.queue, tget s.ctxs m.ctx with
  | some y, some cx =>
    if cx.state = .lost ∨ y.ranks.isEmpty then s.dropRun k b
    else
      let se := tget s.seals m.sealNo
      let n := ((se.map (fun e => e.info.patchLen)).getD 64) - 64
      match s.ctxWrite m.ctx b.wlVA (s.workList b) with
      | (some (.fault code a info), s) => (s.accFault m.ctx (.fault code a info) none).dropRun k b
      | (some .unitReset, _) => s.dropRun k b
      | (none, s1) =>
        match s1.ctxRead m.ctx m.templ n with
        | (.error (.fault code a info), s) => (s.accFault m.ctx (.fault code a info) none).dropRun k b
        | (.error .unitReset, _) => s.dropRun k b
        | (.ok t, s) =>
          let no := y.nextNo
          let body := toLE 16 0 ++ toLE 2 m.sealNo ++ toLE 2 (64 + n) ++ toLE 4 0 ++ toLE 8 m.imageVA ++ toLE 8 b.deadline ++ toLE 16 0
          let c : Cmd := { Cmd.blank with op := 0x01, body := body, start := s.now, batch := some k }
          let s := (s.modQueue b.queue (fun z => z.push c)).modServe (fun v => { v with batches := tput v.batches k { b with no := no } })
          let s := b.members.foldl (fun s i => s.modSeq i (fun e => { e with st := .running })) s
          match se with
          | none => s.refuse b.queue no 0x13 0
          | some e =>
            if s.sec.keyless || e.ctx != m.ctx || e.imageVA != m.imageVA then s.refuse b.queue no 0x13 0
            else
              let w := b.stepBlock ++ t
              match ptrFail cx e.info w with
              | some i => s.refuse b.queue no 0x15 i
              | none => s.makeStep b.queue y no m.sealNo e y.ranks b.deadline (toLE 8 1 ++ body) w
  | _, _ => s.dropRun k b

/-- Batches in the order of injection: earliest member deadline, slot, batch number. -/
def insertBatch (p : Nat × Batch) : List (Nat × Batch) → List (Nat × Batch)
  | [] => [p]
  | a :: l =>
    let key (x : Nat × Batch) := [x.2.deadline, x.2.model, x.2.number]
    if key p < key a then p :: a :: l else a :: insertBatch p l

/-- STEP_BUILD: the step of domain d whose step tick is now; PERIODIC_READY is its first part (R312). -/
def execStepBuild (d : Nat) (s : State) : Res :=
  let g := s.serve.cfg.norm s.now
  match g.stepAt d s.now with
  | none => .next s
  | some k =>
    if !s.up || decide (s.domains ≤ d) || !bit g.enable d || decide (tget g.built d = some k) || !(s.domainSlices d).any s.formeUp then .next s
    else
      let t := s.now
      let s := s.modServe (fun v => { v with cfg := { g with built := tput g.built d k } })
      let s := s.modServe (fun v => { v with seqs := tmap v.seqs (fun i (e : SeqEntry) =>
        if s.domainOf (sliceOf i) = d ∧ e.periodic ∧ e.st = .idle
            ∧ ((tget s.ctxs e.ctx).map (fun x => x.state != CtxState.lost)).getD false then
          { e with st := .ready, deadline := t + e.deadlineRel, readyTime := t, changed := true }
        else e) })
      let snap := s.serve.seqs.filter (s.selectable d)
      let mine (m : StepModel) : Bool := match tget s.queues m.queue with
        | some y => s.domainOf (formeOf ((y.ranks.head?).getD 0)) == d
        | none => false
      let r := (s.serve.models.filter (fun p => mine p.2)).foldl (fun (r : Nat × List (Nat × Batch) × State) p =>
        let k0 := r.2.2.serve.nextBatch
        let o := r.2.2.buildSlot d k t p.1 p.2 snap r.1
        (o.1, (o.2.1.zipIdx.map (fun b => (k0 + b.2, b.1))).foldl (fun l b => insertBatch b l) r.2.1, o.2.2)) (32768, [], s)
      .next (r.2.1.foldl (fun s b => s.inject b.1 b.2) r.2.2).settle

/-! ## The deadline monitor (R319, R322 to R327) -/

/-- Remaining cost from boundary p of a batch of n members, full path or draft path (R323). -/
def remaining (cost : List Byte) (draft : Bool) (p n : Nat) : Nat :=
  ((List.range (costPhases cost)).filter (fun q => decide (p ≤ q))).foldl (fun x q =>
    let o := 0x10 + 16 * q + (if draft then 8 else 0)
    x + field cost o 4 + field cost (o + 4) 4 * n / 256) 0

/-- R324: predicted completion. -/
def predict (t r k cal : Nat) : Nat := t + (r * 16 * cal + k * 1024 - 1) / (k * 1024)

/-- The smallest pulse ratio among the formes of a domain. -/
def State.domainK (s : State) (d : Nat) : Nat := ((s.domainSlices d).map (fun f => (s.forme f).k)).foldl min 16

/-- DLM_REPORT: the DLM answers galley g's store to REPORT. -/
def execDlmReport (g : Nat) (s : State) : Res :=
  match s.serve.batches.find? (fun p => p.2.fwd.contains g) with
  | none => .next s
  | some (k, b) =>
    let p := mload (s.galley g).store b.conf.mbox 2
    let b := { b with fwd := b.fwd.erase g }
    let old := tget b.reports g
    let late : Bool := match old with
      | some o => decide (p < o)
      | none => false
    let answered := tput b.reports g (match old with | some o => max o p | none => p)
    let put (s : State) (b : Batch) : State := (s.modServe (fun v => { v with batches := tput v.batches k b })).writeVerdict g b
    let m := b.conf
    if b.done.isSome then .next (s.modServe (fun v => { v with batches := tput v.batches k b }))
    else if (m.dlmMode ≠ 0 ∧ costPhases m.cost ≤ p) ∨ late then
      let s := s.modServe (fun v => { v with models := tmod v.models b.model (fun (x : StepModel) => { x with reports := x.reports + 1 }) })
      let s := s.fault { faultOf 0x3008 with ctx := some m.ctx, inst := (tget s.ctxs m.ctx).map (·.inst), unitType := 0x0C,
                                             logical := b.domain, phys := b.model, info0 := b.model, info1 := p } []
      .next (put s { b with reports := answered })
    else if m.dlmMode = 0 then .next (put s { b with reports := answered })
    else
      let cal := ((tget s.serve.models b.model).map (·.cal)).getD 1024
      let n := b.members.length
      let kk := max 1 (s.domainK b.domain)
      let full := predict s.now (remaining m.cost false p n) kk cal
      let dr := predict s.now (remaining m.cost true p n) kk cal
      let b := { b with reports := answered, zeroReport := if p = 0 ∧ b.zeroReport.isNone then some (s.now, kk) else b.zeroReport }
      if b.verdicts.contains p then .next (put s b)
      else
        let b := { b with verdicts := p :: b.verdicts }
        let would := bit (field m.cost 4 4) p && b.draftFrom.isNone && decide (m.margin < (full : Int) - (b.deadline : Int))
        if b.draftFrom.isSome then .next (put s { b with predicted := dr })
        else if would ∧ m.dlmMode = 2 then .next (put s { b with draftFrom := some p, predicted := dr })
        else if would ∧ !b.wouldDraft then
          .next (put (s.modServe (fun v => { v with models := tmod v.models b.model (fun (x : StepModel) => { x with wouldDraft := x.wouldDraft + 1 }) }))
            { b with wouldDraft := true, predicted := full })
        else .next (put s { b with predicted := full })

/-- R320: what retirement does to one member. -/
def SeqEntry.retire (e : SeqEntry) (b : Batch) (ok : Bool) (doneTick now : Nat) (lost : Bool) : SeqEntry :=
  let e := if ok then
      { e with steps := (e.steps + 1) % 2 ^ 32, lastDone := doneTick, lastStep := b.stepNo, drafted := b.drafted,
               late := decide (e.deadline < doneTick), resumed := false }
    else { e with resumed := true }
  if e.pend then { e with st := .ready, deadline := e.pendDeadline, readyTime := now, pend := false, pendDeadline := 0 }
  else if !ok && !lost then { e with st := .ready }
  else { e with st := .idle }

/-- R327: the calibration factor after a batch on the full path; with no cost to divide by its value is not
stated. -/
def State.recalibrate (s : State) (b : Batch) (doneTick : Nat) : State :=
  match b.zeroReport with
  | none => s
  | some (t0, k) =>
    let r := remaining b.conf.cost false 0 b.members.length
    let x := if r = 0 then Config.freeValue s.fresh else 1024 * (doneTick - t0) * k / (r * 16)
    State.modServe { s with fresh := if r = 0 then s.fresh + 1 else s.fresh } (fun v => { v with
      models := tmod v.models b.model (fun (m : StepModel) =>
        let c : Int := m.cal + ((x : Int) - m.cal) / 8
        { m with cal := min 4096 (max 512 c.toNat) }) })

/-- BATCH_RETIRE. -/
def execBatchRetire (k : Nat) (s : State) : Res :=
  match tget s.serve.batches k with
  | none => .next s
  | some b =>
    match b.done with
    | none => .next s
    | some (status, t) =>
      let ok := status == 0
      let lost := ((tget s.ctxs b.conf.ctx).map (fun x => x.state == CtxState.lost)).getD true
      let r := b.members.foldl (fun (r : Nat × State) i =>
        match tget r.2.serve.seqs i with
        | none => r
        | some e =>
          let e' := e.retire b ok t s.now lost
          let n := r.1 + b2n (ok && e'.late)
          match e.st with
          | .closing => (n, r.2.freeSeq i)
          | .running => (n, r.2.modSeq i (fun _ => e'))
          | _ => r) (0, s)
      let s := r.2.modServe (fun v => { v with
        batches := tdel v.batches k,
        models := tmod v.models b.model (fun (m : StepModel) =>
          let runs := m.runs.map (fun u => if u.1 = k then (u.1, u.2.1, u.2.2.1, true) else u)
          { m with batches := m.batches + 1, drafts := m.drafts + b2n (ok && b.drafted), late := m.late + r.1,
                   runs := runs.dropWhile (fun u => u.2.2.2) }) })
      .next (if ok && b.draftFrom.isNone && !b.preempted then s.recalibrate b t else s)

/-! ## Proofs (R331, R498 to R504) -/

def State.proofFailed (s : State) (v i inst : Nat) : State :=
  s.fault { faultOf 0x500A with inst := some inst, unitType := 0x05, logical := v, phys := v, info0 := i } []

/-- Copy one entry to its proof record, with the current half of its state when it is proved. -/
def State.proveOne (s : State) (v i round : Nat) (e : SeqEntry) : State :=
  let prev := tget s.serve.proofs i
  let half := if e.proof then !((prev.map (·.half)).getD true) else false
  let put (s : State) : State :=
    s.modServe (fun x => { x with
      proofs := tput x.proofs i ⟨{ e with proofStep := e.steps, pendDeadline := 0 }, round, half, s.now⟩,
      seqs := tmod x.seqs i (fun (e : SeqEntry) => { e with proofStep := e.steps, changed := false }) })
  if e.proof ∧ e.stateBytes ≠ 0 then
    match s.proofRead e.ctx (e.stateVA + e.steps % 2 * e.stateBytes) e.stateBytes with
    | (none, s) => s.proofFailed v i e.inst
    | (some l, s) =>
      let a := s.poolBase v + e.poolOff + b2n half * e.stateBytes
      put (State.heal { s with mem := mwrite s.mem a l } a l.length)
  else put s

/-- PROOF_ROUND of slice v, at or after a PROOF_PERIOD boundary. -/
def execProofRound (v : Nat) (s : State) : Res :=
  let b := s.now / s.serve.cfg.proofPeriod * s.serve.cfg.proofPeriod
  if !s.up || decide (8 ≤ v) || b == 0 || tget s.serve.lastRound v == some b then .next s
  else
    let no := s.serve.rounds + 1
    let s := s.modServe (fun x => { x with lastRound := tput x.lastRound v b, rounds := no })
    if s.serve.fromProof.contains v || s.serve.lost.contains v then .next s
    else
      let down := !s.formeUp (s.proofStack v) || !s.formeUp v || s.serve.writeBack.contains v
      let s := if down ∨ s.now ≠ b then
          s.fault { faultOf 0x500B with unitType := 0x05, logical := v, phys := v, info0 := v, info1 := no } [] else s
      if down then .next s.settle
      else
        let l := s.serve.seqs.filter (fun p => sliceOf p.1 == v && p.2.changed && p.2.st != .running && p.2.st != .closing)
        let s := l.foldl (fun s p => s.proveOne v p.1 no p.2) s
        .next (s.modServe (fun x => { x with
          proofs := tkeep x.proofs (fun i _ => sliceOf i != v || thas x.seqs i), proofLost := x.proofLost.erase v })).settle

/-- Restore one entry of a lost slice from its record. -/
def State.restoreOne (s : State) (v i : Nat) (r : ProofRec) : State :=
  let e := r.entry
  if (tget s.ctxs e.ctx).isNone then s
  else
    let base : SeqEntry := { e with changed := true, steps := e.proofStep }
    let put (s : State) (x : SeqEntry) : State := s.modServe (fun y => { y with seqs := tput y.seqs i x })
    if !e.proof then put s { base with st := .suspended }
    else if e.stateBytes ≠ 0 ∧ s.poisoned (s.poolBase v + e.poolOff + b2n r.half * e.stateBytes) e.stateBytes then
      s.proofFailed v i e.inst
    else
      let s := put s base
      if e.stateBytes = 0 ∨ s.vaUp e.ctx e.stateVA then
        match s.rollBack i r with
        | (true, s) => s
        | (false, s) => s.modSeq i (fun x => { x with st := .suspended })
      else s.modSeq i (fun x => { x with st := .suspended })

/-- SLICE_RESTORE: a lost slice comes back from its proof records; `bad` are the positions whose record fails
its CRC. -/
def execSliceRestore (v : Nat) (bad : List Nat) (s : State) : Res :=
  if !s.serve.lost.contains v || !s.formeUp (s.proofStack v) then .next s
  else
    let recs := s.serve.proofs.filter (fun p => sliceOf p.1 == v)
    let s := s.modServe (fun x => { x with
      seqs := tkeep x.seqs (fun i _ => sliceOf i != v), lost := x.lost.erase v,
      batches := tmap x.batches (fun _ (b : Batch) => { b with members := b.members.filter (fun i => sliceOf i != v) }) })
    let s := recs.foldl (fun s p =>
      if bad.contains (p.1 % 2 ^ 15) then s.proofFailed v p.1 p.2.entry.inst else s.restoreOne v p.1 p.2) s
    .next (s.modServe (fun x => { x with fromProof := if s.formeUp v then x.fromProof else x.fromProof.insert v })).settle

/-- SLICE_WRITE_BACK: the slice is in its returned stack again. -/
def execSliceWriteBack (v : Nat) (s : State) : Res :=
  if s.serve.writeBack.contains v && s.formeUp v then .next (s.modServe (fun x => { x with writeBack := x.writeBack.erase v }))
  else .next s

end Sys2Proof.Machine
end

