-- ==== Sys2Proof/Machine/Sorts.lean ====
section
/-! DEFINITION. The meanings of the sort-only instructions and the sort's events (03_sort.md R93 to R127,
04_galleys.md R142, R156, R159). -/

namespace Sys2Proof.Machine

/-- An option result: none is an illegal instruction (R100). -/
def legal (r : Option SortSt) : SortRes :=
  match r with
  | some t => .next t false
  | none => .exc .illegalInstr

/-! ## Case and tile access (R93, R94, Table 03-7) -/

/-- VLD. -/
def execVld (g sl : Nat) (vd rs : Reg) (imm : BitVec 12) (s : State) : Res :=
  .next (s.runSort g sl isRunning (fun _ t => t.caseLoad (t.ea rs imm) 64 (fun x => t.sv vd x)))

/-- VLDB. -/
def execVldb (g sl : Nat) (vd rs : Reg) (imm : BitVec 12) (s : State) : Res :=
  .next (s.runSort g sl isRunning (fun _ t =>
    t.caseLoad (t.ea rs imm) 4 (fun x => t.sv vd (packLanes 32 (List.replicate 16 x)))))

/-- VST. -/
def execVst (g sl : Nat) (vt rs : Reg) (imm : BitVec 12) (s : State) : Res :=
  .next (s.runSort g sl isRunning (fun _ t => t.caseStore (t.ea rs imm) 64 (t.gv vt).toNat))

/-- TLD: rd[4:3] must be 0. -/
def execTld (g sl : Nat) (rd rs : Reg) (imm : BitVec 12) (s : State) : Res :=
  .next (s.runSort g sl isRunning (fun _ t =>
    if 8 ≤ rd.toNat then .exc .illegalInstr
    else t.caseLoad (t.ea rs imm) 256 (fun x => t.sa rd.toNat x)))

/-- TST. -/
def execTst (g sl : Nat) (rd rs : Reg) (imm : BitVec 12) (s : State) : Res :=
  .next (s.runSort g sl isRunning (fun _ t => t.caseStore (t.ea rs imm) 256 (t.ga (rd.toNat % 8)).toNat))

/-- TZERO: rs and imm12 must be 0. -/
def execTzero (g sl : Nat) (rd rs : Reg) (imm : BitVec 12) (s : State) : Res :=
  .next (s.runSort g sl isRunning (fun _ t =>
    if rs ≠ 0 ∨ imm ≠ 0 then .exc .illegalInstr else .next (t.sa (rd.toNat % 8) 0) false))

/-- TRV: rows 2p and 2p + 1 of a tile into a vector; imm12[11:2] must be 0 (R104). -/
def execTrv (g sl : Nat) (vd rs : Reg) (imm : BitVec 12) (s : State) : Res :=
  .next (s.runSort g sl isRunning (fun _ t =>
    if 4 ≤ imm.toNat then .exc .illegalInstr
    else .next (t.sv vd (lane 512 (t.ga (rs.toNat % 8)).toNat imm.toNat)) false))

/-- TWV: a vector into rows 2p and 2p + 1 of a tile. -/
def execTwv (g sl : Nat) (rd vs : Reg) (imm : BitVec 12) (s : State) : Res :=
  .next (s.runSort g sl isRunning (fun _ t =>
    .next (t.sa (rd.toNat % 8)
      (setBits (t.ga (rd.toNat % 8)).toNat (512 * (imm.toNat % 4)) 512 (t.gv vs).toNat)) false))

/-! ## Vector floating point (R105, Table 03-8) -/

def fpOpOf : VFpOp → FpOp
  | .vadd => .add | .vsub => .sub | .vmul => .mul | .vdiv => .div

/-- VADD VSUB VMUL VDIV; add, subtract and multiply are checked (R121). -/
def execVArith (g sl : Nat) (op : VFpOp) (ty : BitVec 2) (rm : BitVec 3) (vd va vb : Reg) (s : State) : Res :=
  .next (s.runUnit g sl 3 (fun _ t => t.vfp ty rm (op != .vdiv) vd (fun f n r =>
    lanes2 f.width n (fpLane f (fpOpOf op) r) (t.gv va).toNat (t.gv vb).toNat)))

/-- VSQRT; vb must be 0. -/
def execVsqrt (g sl : Nat) (ty : BitVec 2) (rm : BitVec 3) (vd va vb : Reg) (s : State) : Res :=
  .next (s.runUnit g sl 3 (fun _ t =>
    if vb ≠ 0 then .exc .illegalInstr
    else t.vfp ty rm false vd (fun f n r => lanes2 f.width n (fun a _ => sqrtLane f r a) (t.gv va).toNat 0)))

/-- VMIN VMAX (R70). -/
def execVMinMax (g sl : Nat) (op : VMinMax) (ty : BitVec 2) (rm : BitVec 3) (vd va vb : Reg) (s : State) : Res :=
  .next (s.runUnit g sl 3 (fun _ t => t.vfp ty rm false vd (fun f n r =>
    lanes2 f.width n (fun a b =>
      let x := f.decode a
      let y := f.decode b
      ((f.round r (match op with | .vmin => x.min y | .vmax => x.max y)).1, 0)) (t.gv va).toNat (t.gv vb).toNat)))

/-- VABS VNEG: exact; a NaN gives the canonical NaN; any valid RM, RSR not among them; vb must be 0. -/
def execVSign (g sl : Nat) (op : VSignOp) (ty : BitVec 2) (rm : BitVec 3) (vd va vb : Reg) (s : State) : Res :=
  .next (s.runUnit g sl 3 (fun _ t =>
    if vb ≠ 0 then .exc .illegalInstr
    else t.vfp ty rm false vd (fun f n _ => lanes2 f.width n (fun a _ =>
      let x := f.decode a
      ((f.round .rne (match op with | .vabs => x.abs | .vneg => x.neg)).1, 0)) (t.gv va).toNat 0)))

/-- VCMPEQ VCMPLT VCMPLE VCMPNE: all ones when true; with a NaN only not-equal holds (R70). -/
def execVcmp (g sl : Nat) (op : VCmpOp) (ty : BitVec 2) (rm : BitVec 3) (vd va vb : Reg) (s : State) : Res :=
  .next (s.runUnit g sl 3 (fun _ t => t.vfp ty rm false vd (fun f n _ =>
    lanes2 f.width n (fun a b =>
      let x := f.decode a
      let y := f.decode b
      let r := match op with
        | .vcmpeq => x.eqv y
        | .vcmplt => x.lt y
        | .vcmple => x.lt y || x.eqv y
        | .vcmpne => !x.eqv y
      (if r then 2 ^ f.width - 1 else 0, 0)) (t.gv va).toNat (t.gv vb).toNat)))

/-- VHSUM: the exact sum of all lanes, rounded once, in lane 0; other lanes +0; vb must be 0. -/
def execVhsum (g sl : Nat) (ty : BitVec 2) (rm : BitVec 3) (vd va : Reg) (s : State) : Res :=
  .next (s.runUnit g sl 3 (fun _ t => t.vfp ty rm true vd (fun f n r =>
    hsum f r (lanes f.width n (t.gv va).toNat))))

/-- VHMAX. -/
def execVhmax (g sl : Nat) (ty : BitVec 2) (rm : BitVec 3) (vd va : Reg) (s : State) : Res :=
  .next (s.runUnit g sl 3 (fun _ t => t.vfp ty rm false vd (fun f n _ =>
    (hmax f (lanes f.width n (t.gv va).toNat), 0))))

/-- Lanes of three vectors. -/
def lanes3 (w n : Nat) (f : Nat → Nat → Nat → Nat × Flags) (x y z : Nat) : Nat × Flags :=
  let l := (List.range n).map (fun i => f (lane w x i) (lane w y i) (lane w z i))
  (packLanes w (l.map (·.1)), orFlags (l.map (·.2)))

/-- VFMA. -/
def execVfma (g sl : Nat) (ty : BitVec 2) (rm : BitVec 3) (vd va vb vc : Reg) (s : State) : Res :=
  .next (s.runUnit g sl 3 (fun _ t => t.vfp ty rm true vd (fun f n r =>
    lanes3 f.width n (fmaLane f false r) (t.gv va).toNat (t.gv vb).toNat (t.gv vc).toNat)))

/-- VFNMA. -/
def execVfnma (g sl : Nat) (ty : BitVec 2) (rm : BitVec 3) (vd va vb vc : Reg) (s : State) : Res :=
  .next (s.runUnit g sl 3 (fun _ t => t.vfp ty rm true vd (fun f n r =>
    lanes3 f.width n (fmaLane f true r) (t.gv va).toNat (t.gv vb).toNat (t.gv vc).toNat)))

/-! ## Vector integer (R106, Table 03-9) -/

/-- VIADD VISUB VIMUL. -/
def execVInt (g sl : Nat) (op : VIntOp) (ty : BitVec 2) (vd va vb : Reg) (s : State) : Res :=
  .next (s.runUnit g sl 3 (fun _ t => t.vint ty vd (fun w n =>
    ilanes w n (fun a b => match op with
      | .viadd => a + b
      | .visub => a + 2 ^ w - b
      | .vimul => a * b) (t.gv va).toNat (t.gv vb).toNat)))

/-- VAND VOR VXOR. -/
def execVLogic (g sl : Nat) (op : VLogicOp) (ty : BitVec 2) (vd va vb : Reg) (s : State) : Res :=
  .next (s.runUnit g sl 3 (fun _ t => t.vint ty vd (fun _ _ =>
    (match op with
      | .vand => t.gv va &&& t.gv vb
      | .vor => t.gv va ||| t.gv vb
      | .vxor => t.gv va ^^^ t.gv vb).toNat)))

/-- VSHL VSHR VSAR: by the low bits of the same lane of vb. -/
def execVShift (g sl : Nat) (op : VShiftOp) (ty : BitVec 2) (vd va vb : Reg) (s : State) : Res :=
  .next (s.runUnit g sl 3 (fun _ t => t.vint ty vd (fun w n =>
    ilanes w n (fun a b =>
      let k := b % w
      match op with
      | .vshl => a * 2 ^ k
      | .vshr => a / 2 ^ k
      | .vsar => ofSigned w (toSigned w a / 2 ^ k)) (t.gv va).toNat (t.gv vb).toNat)))

/-- VIMIN VIMAX. -/
def execVIMinMax (g sl : Nat) (op : VIMinMax) (ty : BitVec 2) (vd va vb : Reg) (s : State) : Res :=
  .next (s.runUnit g sl 3 (fun _ t => t.vint ty vd (fun w n =>
    ilanes w n (fun a b =>
      let lt := decide (toSigned w a < toSigned w b)
      match op with
      | .vimin => if lt then a else b
      | .vimax => if lt then b else a) (t.gv va).toNat (t.gv vb).toNat)))

/-- VSEL: vd = (va AND vd) OR (vb AND NOT vd). -/
def execVsel (g sl : Nat) (ty : BitVec 2) (vd va vb : Reg) (s : State) : Res :=
  .next (s.runUnit g sl 3 (fun _ t => t.vint ty vd (fun _ _ =>
    ((t.gv va &&& t.gv vd) ||| (t.gv vb &&& ~~~ t.gv vd)).toNat)))

/-- VPERM: lane i of vd = lane (lane i of vb modulo the lane count) of va. -/
def execVperm (g sl : Nat) (ty : BitVec 2) (vd va vb : Reg) (s : State) : Res :=
  .next (s.runUnit g sl 3 (fun _ t => t.vint ty vd (fun w n =>
    packLanes w ((List.range n).map (fun i => lane w (t.gv va).toNat (lane w (t.gv vb).toNat i % n))))))

/-- VBCST: the low lane-width bits of a scalar register in every lane; vb must be 0. -/
def execVbcst (g sl : Nat) (ty : BitVec 2) (vd sa vb : Reg) (s : State) : Res :=
  .next (s.runUnit g sl 3 (fun _ t =>
    if vb ≠ 0 then .exc .illegalInstr
    else t.vint ty vd (fun w n => packLanes w (List.replicate n ((t.gs sa).toNat % 2 ^ w)))))

/-- VEXT: a lane of va, zero-extended, into a scalar register; the lane number below the lane count. -/
def execVext (g sl : Nat) (ty : BitVec 2) (sd va : Reg) (ln : BitVec 5) (s : State) : Res :=
  .next (s.runUnit g sl 3 (fun _ t =>
    match intType ty with
    | none => .exc .illegalInstr
    | some (w, n) =>
      if n ≤ ln.toNat then .exc .illegalInstr
      else t.checked (fun u => u.ss sd (BitVec.ofNat 64 (lane w (u.gv va).toNat ln.toNat)))))

/-! ## Conversions and matrix (R107 to R110) -/

/-- VCVT. -/
def execVcvt (g sl : Nat) (tgt src ctl : BitVec 4) (rm : BitVec 3) (vd va : Reg) (s : State) : Res :=
  .next (s.runUnit g sl 3 (fun e t => legal (vcvt t e tgt src ctl rm vd va)))

/-- VMX. -/
def execVmx (g sl : Nat) (mxe : BitVec 3) (fmt pos : BitVec 2) (rm : BitVec 3) (vd va sd : Reg) (s : State) : Res :=
  .next (s.runUnit g sl 3 (fun e t => legal (vmx t e mxe fmt pos rm vd va sd)))

/-- VDQMX. -/
def execVdqmx (g sl : Nat) (mxe : BitVec 3) (fmt pos : BitVec 2) (rm : BitVec 3) (vd va rs : Reg) (s : State) : Res :=
  .next (s.runUnit g sl 3 (fun e t => legal (vdqmx t e mxe fmt pos rm vd va rs)))

/-- MMA: its exact sum is checked (R121). -/
def execMma (g sl : Nat) (afmt bfmt : BitVec 4) (mx : Bool) (ad : BitVec 3) (va vb : Reg) (s : State) : Res :=
  .next (s.runUnit g sl (if afmt.toNat = 1 ∨ afmt.toNat = 2 then 2 else 1) (fun _ t =>
    match mma t afmt bfmt mx ad va vb with
    | none => .exc .illegalInstr
    | some f => t.checked f))

/-- MSCL. -/
def execMscl (g sl : Nat) (rs rt : Reg) (s : State) : Res :=
  .next (s.runSort g sl isRunning (fun _ t => .next { t with xa := t.gs rs, xb := t.gs rt } false))

/-! ## Stream moves (R111) -/

/-- A stream move of a kind. -/
def State.streamMove (s : State) (g sl : Nat) (k : StreamKind) (rd rs rt : Reg) (len7 : BitVec 7) : State :=
  s.runSort g sl isRunning (fun _ t => (s.galley g).smov sl k rd rs rt len7.toNat t)

def execSmovCs (g sl : Nat) (rd rs rt : Reg) (len7 : BitVec 7) (s : State) : Res := .next (s.streamMove g sl .cs rd rs rt len7)
def execSmovSc (g sl : Nat) (rd rs rt : Reg) (len7 : BitVec 7) (s : State) : Res := .next (s.streamMove g sl .sc rd rs rt len7)
def execSmovCg (g sl : Nat) (rd rs rt : Reg) (len7 : BitVec 7) (s : State) : Res := .next (s.streamMove g sl .cg rd rs rt len7)
def execSmovGc (g sl : Nat) (rd rs rt : Reg) (len7 : BitVec 7) (s : State) : Res := .next (s.streamMove g sl .gc rd rs rt len7)
def execSmovSg (g sl : Nat) (rd rs rt : Reg) (len7 : BitVec 7) (s : State) : Res := .next (s.streamMove g sl .sg rd rs rt len7)
def execSmovGs (g sl : Nat) (rd rs rt : Reg) (len7 : BitVec 7) (s : State) : Res := .next (s.streamMove g sl .gs rd rs rt len7)

/-- STREAM_MOVE_DONE (R111, R95): the last byte is written and the tag released; an inbound stream waits
for an earlier one over the same bytes. -/
def execStreamMoveDone (g sl tag : Nat) (s : State) : Res :=
  let y := s.galley g
  match y.sliver sl with
  | none => .next s
  | some t =>
    match tget t.tags tag with
    | none => .next s
    | some m =>
      if t.olderInbound m then .next s
      else
        let data := y.streamData sl t m s.fresh
        let s := s.stepCharge g { Account.zero with pj := energyOf 4 (m.len / 64) }
        .next { s.setGalley g ((s.galley g).streamWrite sl tag t m data) with fresh := s.fresh + 1 }

/-- The tags or tickets a mask names, all of them for a mask of 0. -/
def maskOf (m n : Nat) : List Nat := if m % 2 ^ n = 0 then List.range n else (List.range n).filter (fun i => bit m i)

/-- SWAIT: rt must be 0. -/
def execSwait (g sl : Nat) (rs rt : Reg) (s : State) : Res :=
  .next (s.runSort g sl isRunning (fun _ t =>
    if rt ≠ 0 then .exc .illegalInstr
    else if (maskOf (t.gs rs).toNat 8).any (fun i => thas t.tags i) then .stall t else .next t false))

/-! ## Lookups (R112, R113) -/

/-- LKUP: the list is read as it stands at issue; the lowest free ticket is taken. -/
def execLkup (g sl : Nat) (rd rs rt : Reg) (s : State) : Res :=
  .next (s.runSort g sl isRunning (fun e t =>
    let p := (s.galley g).plan sl
    let a := (t.gs rs).toNat
    let r := (t.gs rt).toNat
    if a % 64 ≠ 0 ∨ r % 64 ≠ 0 then .exc .misaligned
    else if caseBytes < a + 64 then .exc .lookupRange
    else
      let h := listHdr (mread t.dcase a 64)
      let n := listBytes (clampTo 1 1024 h.entries) (clampTo 1 512 h.bags)
      let m := max 64 h.resBytes
      if caseBytes < a + n ∨ !inGalleyWindow p r m true then .exc .lookupRange
      else
        match lowestFree t.tickets 4 0 with
        | none => .stall t
        | some k =>
          if t.eccBad a n then .exc .eccUncorr
          else
            let tk : Ticket := {
              list := mread t.dcase a n, res := r, issueTime := e.now, checked := false,
              entries := 0, bags := 0, entriesDone := 0, bagsDone := 0, flags := 0, anyLost := false,
              anyShape := false, waiting := [], done := false }
            .next ({ t with tickets := tput t.tickets k tk }.ss rd (BitVec.ofNat 64 k)) false))

/-- Release a ticket; a later list under the number has a new generation (R113, R215). -/
def SortSt.release (t : SortSt) (k : Nat) : SortSt :=
  { t with tickets := tdel t.tickets k, tgen := vset t.tgen k (vget t.tgen k 0 + 1) }

/-- LWAIT: stalls until every masked ticket is done, and releases them. -/
def execLwait (g sl : Nat) (rs : Reg) (s : State) : Res :=
  .next (s.runSort g sl isRunning (fun _ t =>
    let ks := (maskOf (t.gs rs).toNat 4).filter (fun k => thas t.tickets k)
    if ks.any (fun k => match tget t.tickets k with | some x => !x.done | none => false) then .stall t
    else .next (ks.foldl (fun t k => t.release k) t) false))

/-- LSTAT: busy in bit 63, the result flags of a complete list in bits [3:0]; 0 for a free ticket. -/
def execLstat (g sl : Nat) (rd rs : Reg) (s : State) : Res :=
  .next (s.runSort g sl isRunning (fun _ t =>
    let k := (t.gs rs).toNat % 4
    match tget t.tickets k with
    | none => .next (t.ss rd 0) false
    | some x =>
      if x.done then .next ((t.release k).ss rd (x.flags.setWidth 64)) false
      else .next (t.ss rd (BitVec.ofNat 64 (2 ^ 63 + x.flags.toNat))) false))

/-! ## Barriers and messages (R114 to R116, 04_galleys.md R142) -/

def GalleySt.bar (y : GalleySt) (gal : Bool) (key : Nat) : Bar :=
  (tget (if gal then y.barG else y.barS) key).getD ⟨0, []⟩

def GalleySt.setBar (y : GalleySt) (gal : Bool) (key : Nat) (b : Bar) : GalleySt :=
  if gal then { y with barG := tput y.barG key b } else { y with barS := tput y.barS key b }

/-- Generation count of a sliver at a barrier, and its increment. -/
def SortSt.barCount (t : SortSt) (gal : Bool) (b : Nat) : Nat := vget (if gal then t.book.barG else t.book.barS) b 0
def SortSt.barPass (t : SortSt) (gal : Bool) (b : Nat) : SortSt :=
  let n := t.barCount gal b + 1
  let book := if gal then { t.book with barG := vset t.book.barG b n } else { t.book with barS := vset t.book.barS b n }
  { t with book := book }

/-- Whether a sliver takes part in a barrier (R142). -/
def GalleySt.takesPart (y : GalleySt) (sl : Nat) (gal : Bool) (b : Nat) : Bool :=
  let p := y.plan sl
  bit (if gal then p.barG else p.barS) b

/-- Key of a barrier: stick × 4 + b for a stick barrier. -/
def barKey (gal : Bool) (sl b : Nat) : Nat := if gal then b else stickOf sl * 4 + b

/-- A sort arrives at a barrier: one that does not take part, or whose generation is already released,
passes; otherwise the arrival counts once and the sort stalls. -/
def State.barrier (s : State) (g sl : Nat) (gal : Bool) (b : Nat) : State :=
  let y := s.galley g
  let key := barKey gal sl b
  let br := y.bar gal key
  match y.sliver sl with
  | none => s
  | some t =>
    if t.status ≠ .running then s
    else if !y.takesPart sl gal b then s.runSort g sl isRunning (fun _ t => .next t false)
    else if t.barCount gal b < br.gen then s.runSort g sl isRunning (fun _ t => .next (t.barPass gal b) false)
    else
      let arrived := if br.arrived.contains sl then br.arrived else br.arrived ++ [sl]
      let t := { t with status := (if gal then .waitBarG b else .waitBarS b) }
      s.setGalley g (GalleySt.setBar { y with slivers := tput y.slivers sl t } gal key ⟨br.gen, arrived⟩)

/-- BAR.S: other fields than the barrier number must be 0. -/
def execBarS (g sl : Nat) (rd rs : Reg) (imm : BitVec 12) (s : State) : Res :=
  if rd ≠ 0 ∨ rs ≠ 0 ∨ 4 ≤ imm.toNat then .next (s.runSort g sl isRunning (fun _ _ => .exc .illegalInstr))
  else .next (s.barrier g sl false imm.toNat)

/-- BAR.G. -/
def execBarG (g sl : Nat) (rd rs : Reg) (imm : BitVec 12) (s : State) : Res :=
  if rd ≠ 0 ∨ rs ≠ 0 ∨ 4 ≤ imm.toNat then .next (s.runSort g sl isRunning (fun _ _ => .exc .illegalInstr))
  else .next (s.barrier g sl true imm.toNat)

/-- The participants a barrier awaits: those of the stick or share that have not ended (R142). -/
def GalleySt.awaited (y : GalleySt) (gal : Bool) (key : Nat) : List Nat :=
  let b := key % 4
  (y.slivers.map (·.1)).filter (fun sl =>
    (gal || stickOf sl == key / 4) && y.takesPart sl gal b
    && (match y.sliver sl with
        | some t => t.status != .ended && decide (t.barCount gal b ≤ (y.bar gal key).gen)
        | none => false))

/-- BARRIER_RELEASE (R114): after the last arrival the generation releases, and every waiting participant
goes on. -/
def execBarrierRelease (g : Nat) (gal : Bool) (key : Nat) (s : State) : Res :=
  let y := s.galley g
  let br := y.bar gal key
  let b := key % 4
  if !br.arrived.isEmpty && (y.awaited gal key).all (fun sl => br.arrived.contains sl) then
    let s := s.setGalley g (y.setBar gal key ⟨br.gen + 1, []⟩)
    .next (br.arrived.foldl (fun s sl =>
      match (s.galley g).sliver sl with
      | some t =>
        if t.status = (if gal then .waitBarG b else .waitBarS b) then
          s.sortNext g sl { t.barPass gal b with status := .running }
        else s
      | none => s) s)
  else .next s

/-- MSEND: to the sliver whose index is in the register rd names; stalls on a full inbox. -/
def execMsend (g sl : Nat) (rd rs rt : Reg) (s : State) : Res :=
  let y := s.galley g
  match y.sliver sl with
  | none => .next s
  | some t =>
    let dest := (t.gs rd).toNat
    let full := match y.sliver dest with
      | some r => decide (16 ≤ r.inbox.length)
      | none => false
    let go := (t.status = .running ∨ t.status = .waitSend) ∧ dest < (s.sortEnv g sl).slivers ∧ !full
    let m : Msg := ⟨sl, t.book.slugs, t.book.sends, t.gs rs, t.gs rt⟩
    let s' := s.runSort g sl (fun st => st == .running || st == .waitSend) (fun e t =>
      if e.slivers ≤ dest then .exc .msgDest
      else if full then .stall { t with status := .waitSend }
      else .next { t with book := { t.book with sends := t.book.sends + 1 } } false)
    if go then .next (s'.modGalley g (fun y => { y with msgs := y.msgs ++ [(dest, m)] })) else .next s'

/-- MESSAGE_DELIVERY (R115, R116): the oldest message from one sliver to another reaches the inbox once it
has room; a message whose tag is not later than the last accepted one is dropped; one to an ended sliver
is discarded. -/
def execMessageDelivery (g sender dest : Nat) (s : State) : Res :=
  let y := s.galley g
  let is (p : Nat × Msg) := p.1 == dest && p.2.sender == sender
  match y.msgs.find? is with
  | none => .next s
  | some (_, m) =>
    let y' := { y with msgs := eraseFirst is y.msgs }
    match y.sliver dest with
    | none => .next (s.setGalley g y')
    | some t =>
      let later := match tget t.lastMsg sender with
        | some (a, b) => decide (a < m.slug) || (a == m.slug && decide (b < m.send))
        | none => true
      if t.status = .ended ∨ !later then .next (s.setGalley g y')
      else if 16 ≤ t.inbox.length then .next s
      else
        let t := { t with inbox := t.inbox ++ [m], lastMsg := tput t.lastMsg sender (m.slug, m.send) }
        .next (s.setGalley g { y' with slivers := tput y.slivers dest t })

/-- MRECV: rd even; stalls while the inbox is empty. -/
def execMrecv (g sl : Nat) (rd : Reg) (s : State) : Res :=
  .next (s.runSort g sl (fun st => st == .running || st == .waitRecv) (fun _ t =>
    if Reg.odd rd then .exc .illegalInstr
    else match t.inbox with
      | [] => .stall { t with status := .waitRecv }
      | m :: r => .next (({ t with inbox := r }.ss rd m.lo).ss (Reg.succ rd) m.hi) false))

/-- MPOLL. -/
def execMpoll (g sl : Nat) (rd : Reg) (s : State) : Res :=
  .next (s.runSort g sl isRunning (fun _ t => .next (t.ss rd (BitVec.ofNat 64 t.inbox.length)) false))

/-! ## Slugs and system instructions (R117, R118, R126, R127) -/

/-- Whether every stream tag and lookup ticket is free (R117 step 1). -/
def SortSt.drained (t : SortSt) : Bool := t.tags.isEmpty && t.tickets.isEmpty

/-- R117 step 5: a sort that has just passed its boundary with a request pending stops there. -/
def State.stopAtSlug (s : State) (g sl entry : Nat) : State :=
  match (s.galley g).sliver sl with
  | some t =>
    if (s.galley g).preempt && t.status == .running && t.snap.entry == some entry && t.snap.pc == t.pc then
      s.setSliver g sl { t with status := .stopped (some entry) }
    else s
  | none => s

/-- SLUG: drain, end the slug, snapshot, restart the slug cycle counter, and stop if a pre-emption is
pending. -/
def execSlug (g sl : Nat) (rd rs : Reg) (imm : BitVec 12) (s : State) : Res :=
  .next (s.runSort g sl isRunning (fun e t =>
    if rd ≠ 0 ∨ rs ≠ 0 then .exc .illegalInstr
    else if e.slugCount ≤ imm.toNat then .exc .slugIndex
    else if !t.drained then .stall t
    else if t.pc = 0x1FFC then .next (t.boundary (t.pc + 4) imm.toNat) false
    else
      let u := t.boundary (t.pc + 4) imm.toNat
      .jump { u with pc := t.pc + 4 }) |>.stopAtSlug g sl imm.toNat)

/-- SLUG_OVERRUN (R118): the slug cycle counter has reached 64,000. -/
def execSlugOverrun (g sl : Nat) (s : State) : Res :=
  match (s.galley g).sliver sl with
  | some t =>
    let live := match t.status with
      | .running | .waitBarS _ | .waitBarG _ | .waitRecv | .waitSend => true
      | _ => false
    if live && decide (64000 ≤ t.book.slugCyc.toNat) then
      .next (s.coreException ⟨g, some sl⟩ .slugOverrun t.pc.toNat)
    else .next s
  | none => .next s

/-- SDONE: drain, end the sliver; its inbox is discarded, and the share ends with its last sliver. -/
def execSdone (g sl : Nat) (s : State) : Res :=
  let y := s.galley g
  match y.sliver sl with
  | some t =>
    if t.status = .running ∧ t.drained then
      .next (s.setGalley g (GalleySt.shareEndCheck { y with slivers := tput y.slivers sl { t with status := .ended, inbox := [] } }))
    else .next s
  | none => .next s

/-- NOP of the sort. -/
def execSystemNop (g sl : Nat) (s : State) : Res :=
  .next (s.runSort g sl isRunning (fun _ t => .next t false))

/-- SRD. -/
def execSrd (g sl : Nat) (rd : Reg) (csr : BitVec 12) (s : State) : Res :=
  .next (s.runSort g sl isRunning (fun e t =>
    match csrRead t e csr with
    | some x => .next (t.ss rd x) false
    | none => .exc .illegalInstr))

/-- SWR. -/
def execSwr (g sl : Nat) (rs : Reg) (csr : BitVec 12) (s : State) : Res :=
  .next (s.runSort g sl isRunning (fun _ t => legal (csrWrite t csr (t.gs rs))))

/-- RCTL.INJ: imm12[0] persistent; honoured only with the image's TEST flag; other fields must be 0. -/
def execRctlInj (g sl : Nat) (rd rs : Reg) (imm : BitVec 12) (s : State) : Res :=
  .next (s.runSort g sl isRunning (fun e t =>
    if !e.test || rd != 0 || rs != 0 || decide (2 ≤ imm.toNat) then .exc .illegalInstr
    else if t.book.injUsed then .next t false
    else .next { t with book := { t.book with inj := some (bit imm.toNat 0), injUsed := true } } false))

/-- R124, R125: the spare of a sliver's stick takes the sliver and its sort is retired; while another sort of the stick
is under test, the spare keeps that sort's sliver and the sort under test takes this one. -/
def State.adoptSort (s : State) (g sl : Nat) : State :=
  let sp := (s.galley g).spares
  let j := stickOf sl
  let old := sp.stickAt j * 17 + sp.placeOf sl
  let test := s.fm.ift.find? (fun t => t.galley == g && t.stick == s.physStick g j)
  let place := match test with
    | some t => (match t.sliver with
      | some k => tput (tput sp.place k (sp.sparePlace j)) sl t.sort
      | none => tput sp.place sl t.sort)
    | none => tput sp.place sl (sp.sparePlace j)
  let s := s.modGalley g (fun y => { y with spares := { y.spares with
    sortSpare := tput sp.sortSpare j sl, place := place, retiredSorts := sp.retiredSorts ++ [old] } })
  let s := { s with fm := { s.fm with ift := s.fm.ift.filter (fun t => !(t.galley == g && t.stick == s.physStick g j)) } }
  s.oversLow 0x02 g 0 0 s.sortsFree

/-- SORT_ADOPTION_DONE (R124): the spare sort has the snapshot and case, and the slug runs again. After an
injected mismatch the failed sort goes back to the spare pool instead of being retired (R126). -/
def execSortAdoptionDone (g sl : Nat) (s : State) : Res :=
  let y := s.galley g
  match y.sliver sl with
  | some t =>
    match t.status with
    | .adopting injected =>
      if y.spares.replacing.isSome then .next s
      else
        let u := t.rollback.countRetry
        let u := { u with status := .running, book := { u.book with retried := true } }
        let r := { s.causeRecord ⟨g, some sl⟩ 0x6001 t.pc.toNat with level := 0 }
        let s := s.setGalley g { y with slivers := tput y.slivers sl u }
        if injected then .next (s.fault r []) else .next ((s.adoptSort g sl).fault r [])
    | _ => .next s
  | none => .next s

/-- STICK_REPLACEMENT_DONE (04_galleys.md R159): every sliver of the stick runs its slug again. -/
def execStickReplacementDone (g : Nat) (s : State) : Res :=
  let y := s.galley g
  match y.spares.replacing with
  | none => .next s
  | some j =>
    let again (t : SortSt) : SortSt :=
      match t.status with
      | .ended | .killed | .stopped _ => t
      | _ =>
        let u := t.rollback.countRetry
        { u with status := .running, book := { u.book with retried := true } }
    let s := s.setGalley g { y with
      slivers := tmap y.slivers (fun sl t => if stickOf sl = j then again t else t),
      spares := { y.spares with replacing := none, stickSpare := some j, sortSpare := tdel y.spares.sortSpare j,
                                place := tkeep y.spares.place (fun sl _ => stickOf sl != j), freeAt := tdel y.spares.freeAt j } }
    let s := s.fault { faultOf 0x6002 with unitType := 0x02, logical := g, phys := s.physGalley g * 17 + j } []
    .next (s.oversLow 0x03 g 1 0 s.sticksFree)

end Sys2Proof.Machine
end

