-- ==== Sys2Proof/Machine/Dispatch.lean ====
section
/-! DEFINITION. The dispatch of commands to their meanings, one arm for each constructor. -/

namespace Sys2Proof.Machine

/-- The effect of a command on everything but the queue. -/
def exec (i : Instr) (s : State) : Host.Outcome State Fault Refusal :=
  match i with
  | .alu c op rd rs rt => Sys2Proof.Machine.execAlu c op rd rs rt s
  | .mul c op rd rs rt => Sys2Proof.Machine.execMul c op rd rs rt s
  | .div c op rd rs rt => Sys2Proof.Machine.execDiv c op rd rs rt s
  | .cmp c op rd rs rt => Sys2Proof.Machine.execCmp c op rd rs rt s
  | .count c op rd rs rt => Sys2Proof.Machine.execCount c op rd rs rt s
  | .aluImm c op rd rs imm => Sys2Proof.Machine.execAluImm c op rd rs imm s
  | .lui c rd imm => Sys2Proof.Machine.execLui c rd imm s
  | .branch c op rs rt off => Sys2Proof.Machine.execBranch c op rs rt off s
  | .jal c rd off => Sys2Proof.Machine.execJal c rd off s
  | .jalr c rd rs imm => Sys2Proof.Machine.execJalr c rd rs imm s
  | .load c op rd rs imm => Sys2Proof.Machine.execLoad c op rd rs imm s
  | .store c op rs rt imm => Sys2Proof.Machine.execStore c op rs rt imm s
  | .vld g sl vd rs imm => Sys2Proof.Machine.execVld g sl vd rs imm s
  | .vldb g sl vd rs imm => Sys2Proof.Machine.execVldb g sl vd rs imm s
  | .vst g sl vt rs imm => Sys2Proof.Machine.execVst g sl vt rs imm s
  | .tld g sl rd rs imm => Sys2Proof.Machine.execTld g sl rd rs imm s
  | .tst g sl rd rs imm => Sys2Proof.Machine.execTst g sl rd rs imm s
  | .tzero g sl rd rs imm => Sys2Proof.Machine.execTzero g sl rd rs imm s
  | .trv g sl vd rs imm => Sys2Proof.Machine.execTrv g sl vd rs imm s
  | .twv g sl rd vs imm => Sys2Proof.Machine.execTwv g sl rd vs imm s
  | .vArith g sl op ty rm vd va vb => Sys2Proof.Machine.execVArith g sl op ty rm vd va vb s
  | .vsqrt g sl ty rm vd va vb => Sys2Proof.Machine.execVsqrt g sl ty rm vd va vb s
  | .vMinMax g sl op ty rm vd va vb => Sys2Proof.Machine.execVMinMax g sl op ty rm vd va vb s
  | .vSign g sl op ty rm vd va vb => Sys2Proof.Machine.execVSign g sl op ty rm vd va vb s
  | .vCmp g sl op ty rm vd va vb => Sys2Proof.Machine.execVcmp g sl op ty rm vd va vb s
  | .vhsum g sl ty rm vd va => Sys2Proof.Machine.execVhsum g sl ty rm vd va s
  | .vhmax g sl ty rm vd va => Sys2Proof.Machine.execVhmax g sl ty rm vd va s
  | .vfma g sl ty rm vd va vb vc => Sys2Proof.Machine.execVfma g sl ty rm vd va vb vc s
  | .vfnma g sl ty rm vd va vb vc => Sys2Proof.Machine.execVfnma g sl ty rm vd va vb vc s
  | .vInt g sl op ty vd va vb => Sys2Proof.Machine.execVInt g sl op ty vd va vb s
  | .vLogic g sl op ty vd va vb => Sys2Proof.Machine.execVLogic g sl op ty vd va vb s
  | .vShift g sl op ty vd va vb => Sys2Proof.Machine.execVShift g sl op ty vd va vb s
  | .vIMinMax g sl op ty vd va vb => Sys2Proof.Machine.execVIMinMax g sl op ty vd va vb s
  | .vsel g sl ty vd va vb => Sys2Proof.Machine.execVsel g sl ty vd va vb s
  | .vperm g sl ty vd va vb => Sys2Proof.Machine.execVperm g sl ty vd va vb s
  | .vbcst g sl ty vd sa vb => Sys2Proof.Machine.execVbcst g sl ty vd sa vb s
  | .vext g sl ty sd va ln => Sys2Proof.Machine.execVext g sl ty sd va ln s
  | .vcvt g sl tgt src ctl rm vd va => Sys2Proof.Machine.execVcvt g sl tgt src ctl rm vd va s
  | .vmx g sl mxe fmt pos rm vd va sd => Sys2Proof.Machine.execVmx g sl mxe fmt pos rm vd va sd s
  | .vdqmx g sl mxe fmt pos rm vd va rs => Sys2Proof.Machine.execVdqmx g sl mxe fmt pos rm vd va rs s
  | .mma g sl afmt bfmt mx ad va vb => Sys2Proof.Machine.execMma g sl afmt bfmt mx ad va vb s
  | .mscl g sl rs rt => Sys2Proof.Machine.execMscl g sl rs rt s
  | .smovCs g sl rd rs rt len7 => Sys2Proof.Machine.execSmovCs g sl rd rs rt len7 s
  | .smovSc g sl rd rs rt len7 => Sys2Proof.Machine.execSmovSc g sl rd rs rt len7 s
  | .smovCg g sl rd rs rt len7 => Sys2Proof.Machine.execSmovCg g sl rd rs rt len7 s
  | .smovGc g sl rd rs rt len7 => Sys2Proof.Machine.execSmovGc g sl rd rs rt len7 s
  | .smovSg g sl rd rs rt len7 => Sys2Proof.Machine.execSmovSg g sl rd rs rt len7 s
  | .smovGs g sl rd rs rt len7 => Sys2Proof.Machine.execSmovGs g sl rd rs rt len7 s
  | .streamMoveDone g sl tag => Sys2Proof.Machine.execStreamMoveDone g sl tag s
  | .swait g sl rs rt => Sys2Proof.Machine.execSwait g sl rs rt s
  | .lkup g sl rd rs rt => Sys2Proof.Machine.execLkup g sl rd rs rt s
  | .lwait g sl rs => Sys2Proof.Machine.execLwait g sl rs s
  | .lstat g sl rd rs => Sys2Proof.Machine.execLstat g sl rd rs s
  | .barS g sl rd rs imm => Sys2Proof.Machine.execBarS g sl rd rs imm s
  | .barG g sl rd rs imm => Sys2Proof.Machine.execBarG g sl rd rs imm s
  | .barrierRelease g gal key => Sys2Proof.Machine.execBarrierRelease g gal key s
  | .msend g sl rd rs rt => Sys2Proof.Machine.execMsend g sl rd rs rt s
  | .messageDelivery g sender dest => Sys2Proof.Machine.execMessageDelivery g sender dest s
  | .mrecv g sl rd => Sys2Proof.Machine.execMrecv g sl rd s
  | .mpoll g sl rd => Sys2Proof.Machine.execMpoll g sl rd s
  | .slug g sl rd rs imm => Sys2Proof.Machine.execSlug g sl rd rs imm s
  | .slugOverrun g sl => Sys2Proof.Machine.execSlugOverrun g sl s
  | .sdone g sl => Sys2Proof.Machine.execSdone g sl s
  | .systemNop g sl => Sys2Proof.Machine.execSystemNop g sl s
  | .srd g sl rd csr => Sys2Proof.Machine.execSrd g sl rd csr s
  | .swr g sl rs csr => Sys2Proof.Machine.execSwr g sl rs csr s
  | .rctlInj g sl rd rs imm => Sys2Proof.Machine.execRctlInj g sl rd rs imm s
  | .sortAdoptionDone g sl => Sys2Proof.Machine.execSortAdoptionDone g sl s
  | .stickReplacementDone g => Sys2Proof.Machine.execStickReplacementDone g s
  | .dstart g rd rs rt => Sys2Proof.Machine.execDstart g rd rs rt s
  | .dwait g rd rs rt => Sys2Proof.Machine.execDwait g rd rs rt s
  | .dstat g rd rs rt => Sys2Proof.Machine.execDstat g rd rs rt s
  | .gmove g rd rs rt => Sys2Proof.Machine.execGmove g rd rs rt s
  | .moveDone g tag => Sys2Proof.Machine.execMoveDone g tag s
  | .gmwait g rd rs rt => Sys2Proof.Machine.execGmwait g rd rs rt s
  | .gflush g rd rs rt => Sys2Proof.Machine.execGflush g rd rs rt s
  | .qwait g rd rs rt => Sys2Proof.Machine.execQwait g rd rs rt s
  | .qtake g rd rs rt => Sys2Proof.Machine.execQtake g rd rs rt s
  | .qdone g rd rs rt => Sys2Proof.Machine.execQdone g rd rs rt s
  | .qinfo g rd rs rt => Sys2Proof.Machine.execQinfo g rd rs rt s
  | .qexit g rd rs rt => Sys2Proof.Machine.execQexit g rd rs rt s
  | .lockstepCheck g differ => Sys2Proof.Machine.execLockstepCheck g differ s
  | .imageLoadVerify g => Sys2Proof.Machine.execImageLoadVerify g s
  | .listCheck src => Sys2Proof.Machine.execListCheck src s
  | .lookupEntry g f => Sys2Proof.Machine.execLookupEntry g f s
  | .endMark g f => Sys2Proof.Machine.execEndMark g f s
  | .entryAdmit g f => Sys2Proof.Machine.execEntryAdmit g f s
  | .tokenRefill => Sys2Proof.Machine.execTokenRefill s
  | .windowClose f => Sys2Proof.Machine.execWindowClose f s
  | .sheetReadDone f w sheet => Sys2Proof.Machine.execSheetReadDone f w sheet s
  | .windowComplete f w => Sys2Proof.Machine.execWindowComplete f w s
  | .bagSettle f src bag => Sys2Proof.Machine.execBagSettle f src bag s
  | .listComplete src => Sys2Proof.Machine.execListComplete src s
  | .unitResetResponse g f => Sys2Proof.Machine.execUnitResetResponse g f s
  | .codebookLoadDone f t => Sys2Proof.Machine.execCodebookLoadDone f t s
  | .sketchHalving => Sys2Proof.Machine.execSketchHalving s
  | .insertPlace f => Sys2Proof.Machine.execInsertPlace f s
  | .quarantineRelease f => Sys2Proof.Machine.execQuarantineRelease f s
  | .freqIncrement f => Sys2Proof.Machine.execFreqIncrement f s
  | .clockAgeing => Sys2Proof.Machine.execClockAgeing s
  | .mirrorResyncGranule t => Sys2Proof.Machine.execMirrorResyncGranule t s
  | .tableDefine q => Sys2Proof.Machine.execTableDefine q s
  | .tableDefineDone t => Sys2Proof.Machine.execTableDefineDone t s
  | .tableRetire q => Sys2Proof.Machine.execTableRetire q s
  | .tableRetireDone t => Sys2Proof.Machine.execTableRetireDone t s
  | .tableAdopt q => Sys2Proof.Machine.execTableAdopt q s
  | .updateRows q => Sys2Proof.Machine.execUpdateRows q s
  | .updateRecord src => Sys2Proof.Machine.execUpdateRecord src s
  | .write n => Sys2Proof.Machine.execWrite n s
  | .writeInsert n => Sys2Proof.Machine.execWriteInsert n s
  | .delete n => Sys2Proof.Machine.execDelete n s
  | .pin n => Sys2Proof.Machine.execPin n s
  | .unpin n => Sys2Proof.Machine.execUnpin n s
  | .rawSheets n => Sys2Proof.Machine.execRawSheets n s
  | .pad c k => Sys2Proof.Machine.execPad c k s
  | .updateRingRegister q => Sys2Proof.Machine.execUpdateRingRegister q s
  | .updateRingRemove q => Sys2Proof.Machine.execUpdateRingRemove q s
  | .updateRingPoll c k => Sys2Proof.Machine.execUpdateRingPoll c k s
  | .epochFence q => Sys2Proof.Machine.execEpochFence q s
  | .epochFenceDone q no => Sys2Proof.Machine.execEpochFenceDone q no s
  | .recentWriteRotate => Sys2Proof.Machine.execRecentWriteRotate s
  | .scrubStep f => Sys2Proof.Machine.execScrubStep f s
  | .frameRetireDone f => Sys2Proof.Machine.execFrameRetireDone f s
  | .flashListAppend f => Sys2Proof.Machine.execFlashListAppend f s
  | .ceTrackerClear => Sys2Proof.Machine.execCeTrackerClear s
  | .writeQueueTurn f pc => Sys2Proof.Machine.execWriteQueueTurn f pc s
  | .refresh f => Sys2Proof.Machine.execRefresh f s
  | .stackTempRead f temp => Sys2Proof.Machine.execStackTempRead f temp s
  | .trainingRecordWrite f values => Sys2Proof.Machine.execTrainingRecordWrite f values s
  | .fullTrainingDone f values phase => Sys2Proof.Machine.execFullTrainingDone f values phase s
  | .warmRestoreDone f remapOk recordOk verifyOk => Sys2Proof.Machine.execWarmRestoreDone f remapOk recordOk verifyOk s
  | .zeroFillDone f => Sys2Proof.Machine.execZeroFillDone f s
  | .selfRefreshTimeout f => Sys2Proof.Machine.execSelfRefreshTimeout f s
  | .stepConfig q => Sys2Proof.Machine.execStepConfig q s
  | .stepModel q => Sys2Proof.Machine.execStepModel q s
  | .seqOpen q => Sys2Proof.Machine.execSeqOpen q s
  | .seqSignal q => Sys2Proof.Machine.execSeqSignal q s
  | .seqClose q => Sys2Proof.Machine.execSeqClose q s
  | .seqQuery q => Sys2Proof.Machine.execSeqQuery q s
  | .stepBuild d => Sys2Proof.Machine.execStepBuild d s
  | .dlmReport g => Sys2Proof.Machine.execDlmReport g s
  | .batchRetire k => Sys2Proof.Machine.execBatchRetire k s
  | .proofRound v => Sys2Proof.Machine.execProofRound v s
  | .sliceRestore v bad => Sys2Proof.Machine.execSliceRestore v bad s
  | .sliceWriteBack v => Sys2Proof.Machine.execSliceWriteBack v s
  | .nop q => Sys2Proof.Machine.execNop q s
  | .launch q => Sys2Proof.Machine.execLaunch q s
  | .waitValue q => Sys2Proof.Machine.execWaitValue q s
  | .waitValueReread q => Sys2Proof.Machine.execWaitValueReread q s
  | .writeValue q => Sys2Proof.Machine.execWriteValue q s
  | .fenceReset q => Sys2Proof.Machine.execFenceReset q s
  | .query q => Sys2Proof.Machine.execQuery q s
  | .sealProgram q => Sys2Proof.Machine.execSealProgram q s
  | .unseal q => Sys2Proof.Machine.execUnseal q s
  | .map q => Sys2Proof.Machine.execMap q s
  | .unmap q => Sys2Proof.Machine.execUnmap q s
  | .mapAttr q => Sys2Proof.Machine.execMapAttr q s
  | .ctxCreate q => Sys2Proof.Machine.execCtxCreate q s
  | .ctxDestroy q => Sys2Proof.Machine.execCtxDestroy q s
  | .queueCreate q => Sys2Proof.Machine.execQueueCreate q s
  | .queueDestroy q => Sys2Proof.Machine.execQueueDestroy q s
  | .queueBind q => Sys2Proof.Machine.execQueueBind q s
  | .queueFlush q => Sys2Proof.Machine.execQueueFlush q s
  | .fenceCreate q => Sys2Proof.Machine.execFenceCreate q s
  | .fenceDestroy q => Sys2Proof.Machine.execFenceDestroy q s
  | .quotaSet q => Sys2Proof.Machine.execQuotaSet q s
  | .resetContext q => Sys2Proof.Machine.execResetContext q s
  | .resetQueue q => Sys2Proof.Machine.execResetQueue q s
  | .resetInstance q => Sys2Proof.Machine.execResetInstance q s
  | .resetGalley q => Sys2Proof.Machine.execResetGalley q s
  | .resetForme q => Sys2Proof.Machine.execResetForme q s
  | .resetBlock q => Sys2Proof.Machine.execResetBlock q s
  | .dbTail fn q value => Sys2Proof.Machine.execDbTail fn q value s
  | .dbCqHead fn q value => Sys2Proof.Machine.execDbCqHead fn q value s
  | .flush fn q => Sys2Proof.Machine.execFlush fn q s
  | .commandFetch q => Sys2Proof.Machine.execCommandFetch q s
  | .stalledRefetch q => Sys2Proof.Machine.execStalledRefetch q s
  | .spreadClaim q g => Sys2Proof.Machine.execSpreadClaim q g s
  | .kqEnable fn v => Sys2Proof.Machine.execKqEnable fn v s
  | .kqDisable fn v => Sys2Proof.Machine.execKqDisable fn v s
  | .registerWrite sp off width value en => Sys2Proof.Machine.execRegisterWrite sp off width value en s
  | .preemptSaveDone k => Sys2Proof.Machine.execPreemptSaveDone k s
  | .deadlineBudgetRefill => Sys2Proof.Machine.execDeadlineBudgetRefill s
  | .ledgerFlush => Sys2Proof.Machine.execLedgerFlush s
  | .periodClose => Sys2Proof.Machine.execPeriodClose s
  | .journalAppend => Sys2Proof.Machine.execJournalAppend s
  | .grant q => Sys2Proof.Machine.execGrant q s
  | .revoke q => Sys2Proof.Machine.execRevoke q s
  | .poolAdd q => Sys2Proof.Machine.execPoolAdd q s
  | .poolRemove q => Sys2Proof.Machine.execPoolRemove q s
  | .aperture q => Sys2Proof.Machine.execAperture q s
  | .hdm q => Sys2Proof.Machine.execHdm q s
  | .staging q => Sys2Proof.Machine.execStaging q s
  | .trackStart q => Sys2Proof.Machine.execTrackStart q s
  | .trackStop q => Sys2Proof.Machine.execTrackStop q s
  | .dirty q => Sys2Proof.Machine.execDirty q s
  | .readPages q => Sys2Proof.Machine.execReadPages q s
  | .writePages q => Sys2Proof.Machine.execWritePages q s
  | .freeze q => Sys2Proof.Machine.execFreeze q s
  | .freezeQuiet fn => Sys2Proof.Machine.execFreezeQuiet fn s
  | .freezeTimeout fn => Sys2Proof.Machine.execFreezeTimeout fn s
  | .save q => Sys2Proof.Machine.execSave q s
  | .restore q => Sys2Proof.Machine.execRestore q s
  | .thaw q => Sys2Proof.Machine.execThaw q s
  | .bceWeight q => Sys2Proof.Machine.execBceWeight q s
  | .streamOpen q => Sys2Proof.Machine.execStreamOpen q s
  | .streamClose q => Sys2Proof.Machine.execStreamClose q s
  | .instanceResetDone fn => Sys2Proof.Machine.execInstanceResetDone fn s
  | .flrVf fn => Sys2Proof.Machine.execFlrVf fn s
  | .flrPf => Sys2Proof.Machine.execFlrPf s
  | .d3hotToD0 fn => Sys2Proof.Machine.execD3hotToD0 fn s
  | .vfEnableSet n => Sys2Proof.Machine.execVfEnableSet n s
  | .vfEnableClear n => Sys2Proof.Machine.execVfEnableClear n s
  | .msixUnmask fn vec => Sys2Proof.Machine.execMsixUnmask fn vec s
  | .hdmDecoderCommit base size => Sys2Proof.Machine.execHdmDecoderCommit base size s
  | .apertureRead fn off n => Sys2Proof.Machine.execApertureRead fn off n s
  | .apertureWrite fn off bytes => Sys2Proof.Machine.execApertureWrite fn off bytes s
  | .cxlMemRead h n => Sys2Proof.Machine.execCxlMemRead h n s
  | .cxlMemWrite h bytes => Sys2Proof.Machine.execCxlMemWrite h bytes s
  | .hostReadTimeout r => Sys2Proof.Machine.execHostReadTimeout r s
  | .linkTraining cxl => Sys2Proof.Machine.execLinkTraining cxl s
  | .linkDown => Sys2Proof.Machine.execLinkDown s
  | .linkLost => Sys2Proof.Machine.execLinkLost s
  | .bounceWrite fn p => Sys2Proof.Machine.execBounceWrite fn p s
  | .bounceRead fn p => Sys2Proof.Machine.execBounceRead fn p s
  | .bouncePad fn p => Sys2Proof.Machine.execBouncePad fn p s
  | .parkedReadRecheck n => Sys2Proof.Machine.execParkedReadRecheck n s
  | .bceSegmentDone out => Sys2Proof.Machine.execBceSegmentDone out s
  | .outboundMessageSend fn p => Sys2Proof.Machine.execOutboundMessageSend fn p s
  | .fnBncKick fn v => Sys2Proof.Machine.execFnBncKick fn v s
  | .bounceProdPoll => Sys2Proof.Machine.execBounceProdPoll s
  | .bncEnable fn v => Sys2Proof.Machine.execBncEnable fn v s
  | .bncDisable fn v => Sys2Proof.Machine.execBncDisable fn v s
  | .portLinkDown p => Sys2Proof.Machine.execPortLinkDown p s
  | .remoteGather p l => Sys2Proof.Machine.execRemoteGather p l s
  | .gatherExecutionDone id => Sys2Proof.Machine.execGatherExecutionDone id s
  | .gatherReply p l => Sys2Proof.Machine.execGatherReply p l s
  | .tableUpdate p l => Sys2Proof.Machine.execTableUpdate p l s
  | .ingest p l => Sys2Proof.Machine.execIngest p l s
  | .ack p l => Sys2Proof.Machine.execAck p l s
  | .nack p l => Sys2Proof.Machine.execNack p l s
  | .rawFrameIngest p l => Sys2Proof.Machine.execRawFrameIngest p l s
  | .pfcFrame p l => Sys2Proof.Machine.execPfcFrame p l s
  | .pfcRefresh p => Sys2Proof.Machine.execPfcRefresh p s
  | .pfcXon p pri => Sys2Proof.Machine.execPfcXon p pri s
  | .sendRingPoll n => Sys2Proof.Machine.execSendRingPoll n s
  | .ackSend n => Sys2Proof.Machine.execAckSend n s
  | .rtoExpiry n seq => Sys2Proof.Machine.execRtoExpiry n seq s
  | .gatherReplyTimeout n seq => Sys2Proof.Machine.execGatherReplyTimeout n seq s
  | .ingestConsPoll n => Sys2Proof.Machine.execIngestConsPoll n s
  | .fnFltEnable fn v => Sys2Proof.Machine.execFnFltEnable fn v s
  | .faultFlush => Sys2Proof.Machine.execFaultFlush s
  | .wgmScan => Sys2Proof.Machine.execWgmScan s
  | .queueWatchdog q => Sys2Proof.Machine.execQueueWatchdog q s
  | .kqWatchdog q => Sys2Proof.Machine.execKqWatchdog q s
  | .contextTeardownDone c => Sys2Proof.Machine.execContextTeardownDone c s
  | .ladderBoundMissed l => Sys2Proof.Machine.execLadderBoundMissed l s
  | .galleyResetDone g selfOk spareOk => Sys2Proof.Machine.execGalleyResetDone g selfOk spareOk s
  | .formeResetDone f ok failed => Sys2Proof.Machine.execFormeResetDone f ok failed s
  | .mcHeartbeatMiss => Sys2Proof.Machine.execMcHeartbeatMiss s
  | .mcWatchdog => Sys2Proof.Machine.execMcWatchdog s
  | .rotatingTestStart n => Sys2Proof.Machine.execRotatingTestStart n s
  | .iftDone n pass step => Sys2Proof.Machine.execIftDone n pass step s
  | .keyInfo q => Sys2Proof.Machine.execKeyInfo q s
  | .genPair q => Sys2Proof.Machine.execGenPair q s
  | .keyAttest q => Sys2Proof.Machine.execKeyAttest q s
  | .agree q => Sys2Proof.Machine.execAgree q s
  | .erase q => Sys2Proof.Machine.execErase q s
  | .assign q => Sys2Proof.Machine.execAssign q s
  | .sessionKeys q => Sys2Proof.Machine.execSessionKeys q s
  | .keySlotCommit n => Sys2Proof.Machine.execKeySlotCommit n s
  | .tamperN => Sys2Proof.Machine.execTamperN s
  | .protLock => Sys2Proof.Machine.execProtLock s
  | .getVersion fn => Sys2Proof.Machine.execGetVersion fn s
  | .getCapabilities fn v => Sys2Proof.Machine.execGetCapabilities fn v s
  | .negotiateAlgorithms fn => Sys2Proof.Machine.execNegotiateAlgorithms fn s
  | .getDigests fn => Sys2Proof.Machine.execGetDigests fn s
  | .getCertificate fn slot off n => Sys2Proof.Machine.execGetCertificate fn slot off n s
  | .challenge fn slot req => Sys2Proof.Machine.execChallenge fn slot req s
  | .getMeasurements fn op signed req => Sys2Proof.Machine.execGetMeasurements fn op signed req s
  | .keyExchange fn reqId req => Sys2Proof.Machine.execKeyExchange fn reqId req s
  | .spdmFinish fn => Sys2Proof.Machine.execSpdmFinish fn s
  | .endSession fn => Sys2Proof.Machine.execEndSession fn s
  | .heartbeat fn => Sys2Proof.Machine.execHeartbeat fn s
  | .keyUpdate fn op => Sys2Proof.Machine.execKeyUpdate fn op s
  | .getCsr fn req => Sys2Proof.Machine.execGetCsr fn req s
  | .setCertificate fn slot secured chain => Sys2Proof.Machine.execSetCertificate fn slot secured chain s
  | .spdmUnsupportedRequest fn => Sys2Proof.Machine.execSpdmUnsupportedRequest fn s
  | .mbxGo => Sys2Proof.Machine.execMbxGo s
  | .mgtIrq ok => Sys2Proof.Machine.execMgtIrq ok s
  | .macphyRetry ok => Sys2Proof.Machine.execMacphyRetry ok s
  | .neighbourSolicitation target mac src => Sys2Proof.Machine.execNeighbourSolicitation target mac src s
  | .hello l => Sys2Proof.Machine.execHello l s
  | .apgusFinish l => Sys2Proof.Machine.execApgusFinish l s
  | .handshakeTimeout n => Sys2Proof.Machine.execHandshakeTimeout n s
  | .record l => Sys2Proof.Machine.execRecord l s
  | .sessionIdleTimeout n => Sys2Proof.Machine.execSessionIdleTimeout n s
  | .get r tag fn sub => Sys2Proof.Machine.execGet r tag fn sub s
  | .set r tag fn sub v => Sys2Proof.Machine.execSet r tag fn sub v s
  | .apgusInfo r tag fn sub => Sys2Proof.Machine.execApgusInfo r tag fn sub s
  | .blobRead r tag fn sub off len => Sys2Proof.Machine.execBlobRead r tag fn sub off len s
  | .blobWrite r tag fn sub last off d => Sys2Proof.Machine.execBlobWrite r tag fn sub last off d s
  | .subscribe r tag mask => Sys2Proof.Machine.execSubscribe r tag mask s
  | .close r tag => Sys2Proof.Machine.execClose r tag s
  | .telemetryTick => Sys2Proof.Machine.execTelemetryTick s
  | .beacon => Sys2Proof.Machine.execBeacon s
  | .connectionOpen r tag c => Sys2Proof.Machine.execConnectionOpen r tag c s
  | .connectionDisable r tag c => Sys2Proof.Machine.execConnectionDisable r tag c s
  | .modeChange r tag fn sub v => Sys2Proof.Machine.execModeChange r tag fn sub v s
  | .prepareDeadline missed => Sys2Proof.Machine.execPrepareDeadline missed s
  | .modeCommit => Sys2Proof.Machine.execModeCommit s
  | .confirmDeadline failed => Sys2Proof.Machine.execConfirmDeadline failed s
  | .nextProfile r tag p => Sys2Proof.Machine.execNextProfile r tag p s
  | .quotaObjectWrite r tag fn sub v => Sys2Proof.Machine.execQuotaObjectWrite r tag fn sub v s
  | .resetReqWarm r tag => Sys2Proof.Machine.execResetReqWarm r tag s
  | .resetReqCold r tag => Sys2Proof.Machine.execResetReqCold r tag s
  | .resetReqPowerCycle r tag => Sys2Proof.Machine.execResetReqPowerCycle r tag s
  | .alertAck r tag mask => Sys2Proof.Machine.execAlertAck r tag mask s
  | .release r tag f => Sys2Proof.Machine.execRelease r tag f s
  | .trainReq r tag k => Sys2Proof.Machine.execTrainReq r tag k s
  | .wallSet r tag ns => Sys2Proof.Machine.execWallSet r tag ns s
  | .install r tag n v => Sys2Proof.Machine.execInstall r tag n v s
  | .claim r tag v => Sys2Proof.Machine.execClaim r tag v s
  | .debugToken r tag v => Sys2Proof.Machine.execDebugToken r tag v s
  | .fwImage r tag v => Sys2Proof.Machine.execFwImage r tag v s
  | .verify r tag => Sys2Proof.Machine.execVerify r tag s
  | .stage r tag => Sys2Proof.Machine.execStage r tag s
  | .activate r tag => Sys2Proof.Machine.execActivate r tag s
  | .trialEnd pass => Sys2Proof.Machine.execTrialEnd pass s
  | .confirm r tag => Sys2Proof.Machine.execConfirm r tag s
  | .selectFs1 r tag => Sys2Proof.Machine.execSelectFs1 r tag s
  | .fwAbort r tag => Sys2Proof.Machine.execFwAbort r tag s
  | .arbCommit r tag => Sys2Proof.Machine.execArbCommit r tag s
  | .fwRevoke r tag v => Sys2Proof.Machine.execFwRevoke r tag v s
  | .profileSelect q => Sys2Proof.Machine.execProfileSelect q s
  | .profileCancel q => Sys2Proof.Machine.execProfileCancel q s
  | .profileRead q => Sys2Proof.Machine.execProfileRead q s
  | .setCustom q => Sys2Proof.Machine.execSetCustom q s
  | .porNAssert => Sys2Proof.Machine.execPorNAssert s
  | .porNRelease straps => Sys2Proof.Machine.execPorNRelease straps s
  | .warmN => Sys2Proof.Machine.execWarmN s
  | .coldStartDone => Sys2Proof.Machine.execColdStartDone s
  | .warmStartDone => Sys2Proof.Machine.execWarmStartDone s
  | .startFailed reachedMain => Sys2Proof.Machine.execStartFailed reachedMain s
  | .startRetry => Sys2Proof.Machine.execStartRetry s
  | .refclkLoss => Sys2Proof.Machine.execRefclkLoss s
  | .refclkReturn => Sys2Proof.Machine.execRefclkReturn s
  | .vriAck f => Sys2Proof.Machine.execVriAck f s
  | .vriAckTimeout f => Sys2Proof.Machine.execVriAckTimeout f s
  | .railTrip r => Sys2Proof.Machine.execRailTrip r s
  | .powerSample mW => Sys2Proof.Machine.execPowerSample mW s
  | .dieTempRead temps fab => Sys2Proof.Machine.execDieTempRead temps fab s
  | .voltageBandChange f => Sys2Proof.Machine.execVoltageBandChange f s
  | .thermtrip => Sys2Proof.Machine.execThermtrip s
  | .fpRead addr len => Sys2Proof.Machine.execFpRead addr len s
  | .fpProgram addr data => Sys2Proof.Machine.execFpProgram addr data s
  | .fpErase4k addr len => Sys2Proof.Machine.execFpErase4k addr len s
  | .fpBlankCheck addr len => Sys2Proof.Machine.execFpBlankCheck addr len s
  | .fpResetDevice len => Sys2Proof.Machine.execFpResetDevice len s
  | .fpOperationDone e => Sys2Proof.Machine.execFpOperationDone e s
  | .fpTimeout => Sys2Proof.Machine.execFpTimeout s
  | .storeCompaction => Sys2Proof.Machine.execStoreCompaction s
  | .illegalInstr c word => Sys2Proof.Machine.execIllegalInstr c word s
  | .unitFault u => Sys2Proof.Machine.execUnitFault u s
  | .fabricLinkFault k group central => Sys2Proof.Machine.execFabricLinkFault k group central s
  | .portLinkUp p => Sys2Proof.Machine.execPortLinkUp p s
  | .tamperNDeassert => Sys2Proof.Machine.execTamperNDeassert s
  | .pfcQuantaExpiry p pri => Sys2Proof.Machine.execPfcQuantaExpiry p pri s
  | .keyCellFailure n => Sys2Proof.Machine.execKeyCellFailure n s

end Sys2Proof.Machine
end

