-- ==== Sys2Proof/Machine/Tick.lean ====
section
/-! DEFINITION. One tick of device time, 10 ns, in which no command arrives: device time, slug cycle counters, engine time and
deadline budgets, watchdogs (00_scope.md R9; 01_architecture.md R46; 03_sort.md R118; 11_scheduling.md R378, R394, R396,
R398; 14_recovery.md R481). -/

namespace Sys2Proof.Machine

/-- Device time counts periods of REFCLK from the start of the block; it stops in reset (17_boundary.md R593). -/
def State.timeRuns (s : State) : Bool := s.bnd.refclk && s.bnd.power != .inReset && s.bnd.power != .noClock

/-- Whether a sort's cycle counters run: it executes or stalls. -/
def SortStatus.counts (x : SortStatus) : Bool :=
  match x with
  | .running | .waitBarS _ | .waitBarG _ | .waitRecv | .waitSend => true
  | _ => false

/-- A tick holds 16 pulses of SCLK, of which the forme keeps k (R46). -/
def SortSt.tick (k : Nat) (t : SortSt) : SortSt :=
  if t.status.counts then
    { t with book := { t.book with slugCyc := t.book.slugCyc + BitVec.ofNat 32 k, cycle := t.book.cycle + BitVec.ofNat 64 k } }
  else t

/-- The sorts of every galley. -/
def State.tickSorts (s : State) : State :=
  { s with galleys := Vector.ofFn (fun (i : Fin 64) =>
      let y := s.galleys[i]
      { y with slivers := tmap y.slivers (fun _ t => t.tick (s.forme (formeOf i)).k) }) }

/-- A galley owned by a step for one tick (R394, R396); a DEADLINE step's time falls on its instance's budget (R378). -/
def State.tickGalley (s : State) (g : Nat) : State :=
  match (s.galley g).owner with
  | none => s
  | some k =>
    match tget s.steps k with
    | none => s
    | some p =>
      let s := s.modStep k (fun (p : StepRec) => { p with ticks := p.ticks + 1 })
      let s := s.account (some p.ctx) p.inst { Account.zero with ticks := 1, pj := energyOf 0 1 }
      if p.urgent && (s.inst p.inst).budget.limited then
        s.modInst p.inst (fun (x : InstSt) => { x with budget := { x.budget with count := x.budget.count - 1 } })
      else s

/-- Watchdogs of the queues (R481). -/
def State.tickQueues (s : State) : State :=
  { s with queues := tmap s.queues (fun q (x : QueueSt) => if s.wdogCounts q x then { x with wdog := x.wdog + 1 } else x) }

/-- At a 100 ms boundary the energies that tenants may read are taken (R398). -/
def State.tickEnergy (s : State) : State :=
  if s.now % 10000000 = 0 then
    { s with ctxs := tmap s.ctxs (fun _ (x : CtxSt) => { x with snapPj := x.acct.pj }),
             host := { s.host with insts := tmap s.host.insts (fun _ (x : InstSt) => { x with snapPj := x.acct.pj }) } }
  else s

/-- One tick. -/
def State.tick (s : State) : State :=
  if s.timeRuns then
    let s := { s with now := s.now + 1 }
    let s := if s.up then ((List.range 64).foldl State.tickGalley s.tickSorts).tickQueues else s
    s.tickEnergy
  else s

end Sys2Proof.Machine
end

