-- ==== Sys2Proof/Safety.lean ====
section
/-! DEFINITION. What counts as an ordinary run, in the terms the statements use: when a sort, a compositor or a queue is about to
execute its next command, and the state it leaves when the command completes in sequence. -/

namespace Sys2Proof.Machine

/-- The sort of sliver sl in galley g, in state t, is about to execute: the sliver exists and runs, no residue error is armed in
its slug, and the instruction is not the last of the instruction memory (03_sort.md R103, R126). -/
def State.Runs (s : State) (g sl : Nat) (t : SortSt) : Prop :=
  (s.galley g).sliver sl = some t ∧ t.status = .running ∧ t.book.inj = none ∧ t.pc ≠ 0x1FFC

/-- The sliver's sort goes on in state t at the next instruction; nothing else differs. -/
def State.after (s : State) (g sl : Nat) (t : SortSt) : State :=
  s.setSliver g sl { t with pc := t.pc + 4, status := .running }

/-- As `State.after`, for an instruction of an energy class (11_scheduling.md R396): the event is charged too. -/
def State.afterUnit (s : State) (g sl cls : Nat) (t : SortSt) : State :=
  (s.after g sl t).stepCharge g { Account.zero with pj := energyOf cls 1 }

/-- A case access of n bytes at a that the sort may make now: aligned, inside the case, under no incomplete inbound stream, and
without a double-bit error (03_sort.md R94 to R96). -/
def SortSt.Accessible (t : SortSt) (a n : Nat) : Prop :=
  caseCheck a n = none ∧ t.inboundBusy a n = false ∧ t.eccBad a n = false

/-- A ticket as LKUP leaves it: its list as read at issue, its result area, and nothing settled (03_sort.md R112). -/
def newTicket (list : List Byte) (res now : Nat) : Ticket :=
  { list := list, res := res, issueTime := now, checked := false, entries := 0, bags := 0, entriesDone := 0, bagsDone := 0,
    flags := 0, anyLost := false, anyShape := false, waiting := [], done := false }

/-- The compositor pair of galley g, in state k, is about to execute, not at the last instruction of its memory. -/
def State.CompRuns (s : State) (g : Nat) (k : CompSt) : Prop :=
  g < 64 ∧ (s.galley g).comp = k ∧ k.status = .running ∧ k.pc ≠ 0x7FFC

/-- The compositor goes on in state k at the next instruction; nothing else differs. -/
def State.compAfter (s : State) (g : Nat) (k : CompSt) : State :=
  s.modGalley g (fun y => { y with comp := { k with pc := k.pc + 4 } })

/-- Command c of queue x is the next command of queue q, may start now with opcode op, and names no fence that it may not name. -/
def State.Starts (s : State) (q op : Nat) (x : QueueSt) (c : Cmd) : Prop :=
  s.startable q op = some (x, c) ∧ s.fenceRefusal x c = none

/-- Command c of queue x, an INSTANCE command with SUBOP n on an instance that is not in reset, may start. -/
def State.StartsInst (s : State) (q n : Nat) (x : QueueSt) (c : Cmd) : Prop :=
  s.Starts q 0x40 x c ∧ subIs n c = true ∧ (s.inst (cmdObj c)).state ≠ .resetting

/-- The first n bytes of a kernel command's buffer read as l, and s1 is the state after the read has been charged. -/
def State.BufferIs (s : State) (q : Nat) (x : QueueSt) (c : Cmd) (n : Nat) (l : List Byte) (s1 : State) : Prop :=
  s.kernelRead x.inst (cmdBuf c) n = some l ∧ s1 = (s.kernelCharge x.inst (cmdBuf c) n).tagInst s x.inst q c.no

/-- The granule list of a command, as read from its buffer (12_host_port.md Table 12-3). -/
def granulesOf (c : Cmd) (l : List Byte) : List Nat := (List.range (cmdLen c / 8)).map (fun i => field l (8 * i) 8)

/-- Command c of queue x, a KEY command with SUBOP n whose buffer holds at least `bytes`, may start while the block has its keys. -/
def State.StartsKey (s : State) (q n bytes : Nat) (x : QueueSt) (c : Cmd) : Prop :=
  s.Starts q 0x44 x c ∧ subIs n c = true ∧ bytes ≤ cmdLen c ∧ s.sec.keyless = false

/-- The mailbox of function i is served, and its algorithms are negotiated. -/
def State.SpdmServes (s : State) (i : Nat) : Prop :=
  s.doeUp i = true ∧ s.sec.keyless = false ∧ (s.spdm i).algs = true

/-- Table t is defined with descriptor d, and its home forme serves. -/
def State.Serves (s : State) (f t : Nat) (d : TableDesc) : Prop := tget s.tables t = some d ∧ s.formeUp f = true

/-- The message with TAG, INDEX and SUB of requester r is executed now, from state t: the mailbox while it is served; a session while it is
open and the message is no retry of one executed or under way (15_security.md R564; 16_dictionary.md R571). -/
def State.Takes (s : State) (r : Requester) (op tag i sub : Nat) (t : State) : Prop :=
  match r with
  | .mailbox => (s.up = true ∨ s.bnd.power = .safe) ∧ t = s
  | .session n => ∃ x, tget s.mgmt.sessions n = some x ∧ x.opened = true ∧ s.mgmtUp = true ∧ s.mgmt.macPhy = true ∧
      t = s.modSess n (fun y => { y with since := s.now }) ∧ t.executing (r.waiter op tag i sub) = false ∧
      x.replies.find? (fun k => k.1 == tag && k.2.1 == op && k.2.2.1 == i && k.2.2.2.1 == sub) = none

/-- Requester r may write v to object (i, sub), described by o, now: it has access, the value fits and its lock is open
(16_dictionary.md R567 to R569). -/
def State.Writes (s : State) (r : Requester) (tag i sub : Nat) (v : List Byte) (o : Obj) (t : State) : Prop :=
  s.Takes r 2 tag i sub t ∧ t.accessFail r i sub true = none ∧ objInfo i sub = some o ∧ t.valueFail o i sub v = none ∧
  ¬(o.acc = .rwl ∧ t.objLocked i sub = true)

/-- A write of object (i, sub) that left state u is answered OK. -/
def State.wrote (u : State) (r : Requester) (tag i sub : Nat) : State := (u.reply r 2 tag i sub 0 false []).settle

/-- A write of object (i, sub) is answered with a status other than OK. -/
def State.notWrote (u : State) (r : Requester) (tag i sub st : Nat) : State := (u.reply r 2 tag i sub st false []).settle

/-- The profile in force is one of the four and has its number of domains (01_architecture.md Table 01-2), and both memories are canonical. -/
def State.Legal (s : State) : Prop :=
  s.profile < 4 ∧ (s.profile = 0 → s.domains = 1) ∧ (s.profile = 1 → s.domains = 8) ∧ (s.profile = 2 → s.domains = 1) ∧
  memWf s.mem = true ∧ memWf s.hostMem = true

end Sys2Proof.Machine
end

