-- ==== Sys2Proof/Certificates/Slice0/Obligations.lean ====
section
/-! DEFINITION. The statements for the provers. -/

open Sys2Proof Sys2Proof.Machine

/-- A step runs the command at the front of the queue on the state with the queue's rest. -/
def Obligations.StepRunsTheFrontCommand : Prop :=
  ∀ (s : State) (c : Instr) (rest : List Instr),
    step { s with pending := c :: rest } = exec c { s with pending := rest }

/-- With an empty queue a step spends one tick of device time (a choice of the model, log entry 2): device time goes up by one
tick of 10 ns while REFCLK runs and the block is out of reset, and stands still otherwise; memory does not change. -/
def Obligations.IdleStepSpendsOneTick : Prop :=
  ∀ (s : State), s.pending = [] → ∃ t, step s = .next t ∧ t.pending = [] ∧ t.mem = s.mem ∧ t.hostMem = s.hostMem ∧
    (s.timeRuns = true → t.now = s.now + 1) ∧ (s.timeRuns = false → t = s)

/-- Every command of the table has a next state in every state: the model never refuses and never faults. -/
def Obligations.EveryCommandCompletes : Prop :=
  ∀ (c : Instr) (s : State), ∃ t, exec c s = .next t

/-- The scalar register instructions of a sort: the result of the operation goes to rd, s0 discards it, and the sort goes on at
the next instruction with nothing else changed.

The same instructions on the compositor pair of a galley. -/
def Obligations.ScalarInstructions : Prop :=
  (∀ (s : State) (g sl : Nat) (t : SortSt), s.Runs g sl t →
    (∀ op rd rs rt, exec (.alu ⟨g, some sl⟩ op rd rs rt) s = .next (s.after g sl (t.ss rd (aluOp op (t.gs rs) (t.gs rt))))) ∧
    (∀ op rd rs rt, exec (.mul ⟨g, some sl⟩ op rd rs rt) s = .next (s.after g sl (t.ss rd (mulOp op (t.gs rs) (t.gs rt))))) ∧
    (∀ op rd rs rt, exec (.div ⟨g, some sl⟩ op rd rs rt) s = .next (s.after g sl (t.ss rd (divOp op (t.gs rs) (t.gs rt))))) ∧
    (∀ op rd rs rt, exec (.cmp ⟨g, some sl⟩ op rd rs rt) s = .next (s.after g sl (t.ss rd (cmpOp op (t.gs rs) (t.gs rt))))) ∧
    (∀ op rd rs, exec (.count ⟨g, some sl⟩ op rd rs 0) s = .next (s.after g sl (t.ss rd (countOp op (t.gs rs))))) ∧
    (∀ op rd rs imm, immIllegal op imm = false →
      exec (.aluImm ⟨g, some sl⟩ op rd rs imm) s = .next (s.after g sl (t.ss rd (immOp op (t.gs rs) imm)))) ∧
    (∀ rd imm, exec (.lui ⟨g, some sl⟩ rd imm) s = .next (s.after g sl (t.ss rd (luiVal imm))))) ∧
  (∀ (s : State) (g : Nat) (k : CompSt), s.CompRuns g k →
    (∀ op rd rs rt, exec (.alu ⟨g, none⟩ op rd rs rt) s = .next (s.compAfter g (k.ss rd (aluOp op (k.gs rs) (k.gs rt))))) ∧
    (∀ op rd rs rt, exec (.mul ⟨g, none⟩ op rd rs rt) s = .next (s.compAfter g (k.ss rd (mulOp op (k.gs rs) (k.gs rt))))) ∧
    (∀ op rd rs rt, exec (.div ⟨g, none⟩ op rd rs rt) s = .next (s.compAfter g (k.ss rd (divOp op (k.gs rs) (k.gs rt))))) ∧
    (∀ op rd rs rt, exec (.cmp ⟨g, none⟩ op rd rs rt) s = .next (s.compAfter g (k.ss rd (cmpOp op (k.gs rs) (k.gs rt))))) ∧
    (∀ op rd rs, exec (.count ⟨g, none⟩ op rd rs 0) s = .next (s.compAfter g (k.ss rd (countOp op (k.gs rs))))) ∧
    (∀ op rd rs imm, immIllegal op imm = false →
      exec (.aluImm ⟨g, none⟩ op rd rs imm) s = .next (s.compAfter g (k.ss rd (immOp op (k.gs rs) imm)))) ∧
    (∀ rd imm, exec (.lui ⟨g, none⟩ rd imm) s = .next (s.compAfter g (k.ss rd (luiVal imm)))))

/-- R102: a divide by 0 gives all ones and a remainder by 0 gives the dividend; −2^63 ÷ −1 gives −2^63 and remainder 0; no divide
or remainder traps: a sort that executes one goes on at the next instruction. -/
def Obligations.DivideNeverTraps : Prop :=
  (∀ x : W64, divOp .divu x 0 = BitVec.allOnes 64 ∧ divOp .divs x 0 = BitVec.allOnes 64 ∧ divOp .remu x 0 = x ∧ divOp .rems x 0 = x) ∧
  divOp .divs (BitVec.intMin 64) (BitVec.allOnes 64) = BitVec.intMin 64 ∧ divOp .rems (BitVec.intMin 64) (BitVec.allOnes 64) = 0 ∧
  (∀ (s : State) (g sl : Nat) (t : SortSt) (op : DivOp) (rd rs rt : Reg), s.Runs g sl t →
    ∃ s' t', exec (.div ⟨g, some sl⟩ op rd rs rt) s = .next s' ∧ (s'.galley g).sliver sl = some t' ∧ t'.status = .running ∧
      t'.pc = t.pc + 4)

/-- R90: s0 reads as zero, and an instruction that names it as destination changes nothing but the PC. -/
def Obligations.RegisterZeroDiscardsWrites : Prop :=
  (∀ (t : SortSt) (x : W64), t.gs 0 = 0 ∧ t.ss 0 x = t) ∧
  (∀ (s : State) (g sl : Nat) (t : SortSt) (op : AluOp) (rs rt : Reg), s.Runs g sl t →
    exec (.alu ⟨g, some sl⟩ op 0 rs rt) s = .next (s.after g sl t)) ∧
  (∀ (s : State) (g : Nat) (k : CompSt) (op : AluOp) (rs rt : Reg), s.CompRuns g k →
    exec (.alu ⟨g, none⟩ op 0 rs rt) s = .next (s.compAfter g k))

/-- The frame of the scalar register instructions of a sort: no other register, tile, flag, case byte, stream, ticket or message
of the sliver, no other sliver, galley, platen, memory byte or queue changes. -/
def Obligations.ScalarInstructionFrame : Prop :=
  ∀ (s : State) (g sl : Nat) (t : SortSt), s.Runs g sl t → ∀ (c : Instr) (rd : Reg),
    ((∃ op rs rt, c = .alu ⟨g, some sl⟩ op rd rs rt) ∨ (∃ op rs rt, c = .mul ⟨g, some sl⟩ op rd rs rt) ∨
     (∃ op rs rt, c = .div ⟨g, some sl⟩ op rd rs rt) ∨ (∃ op rs rt, c = .cmp ⟨g, some sl⟩ op rd rs rt) ∨
     (∃ op rs, c = .count ⟨g, some sl⟩ op rd rs 0) ∨ (∃ imm, c = .lui ⟨g, some sl⟩ rd imm)) →
    ∃ s' t', exec c s = .next s' ∧ (s'.galley g).sliver sl = some t' ∧
      (∀ r, r ≠ rd → t'.gs r = t.gs r) ∧ t'.v = t.v ∧ t'.a = t.a ∧ t'.xa = t.xa ∧ t'.xb = t.xb ∧ t'.ssr = t.ssr ∧
      t'.dcase = t.dcase ∧ t'.icase = t.icase ∧ t'.tags = t.tags ∧ t'.tickets = t.tickets ∧ t'.inbox = t.inbox ∧ t'.book = t.book ∧
      (∀ j, j ≠ sl → (s'.galley g).sliver j = (s.galley g).sliver j) ∧ (∀ h, h ≠ g → s'.galley h = s.galley h) ∧
      (s'.galley g).store = (s.galley g).store ∧ (s'.galley g).comp = (s.galley g).comp ∧
      s' = { s with galleys := s'.galleys }

/-- Branches and jumps of a sort (R103): a taken branch or a jump goes to its target, linking PC + 4 in rd for JAL and JALR; an
untaken branch goes to the next instruction; a target beyond the instruction memory raises PC_RANGE.

Branches and jumps of a compositor pair, whose instruction memory holds 32 KiB (R149). -/
def Obligations.Branches : Prop :=
  (∀ (s : State) (g sl : Nat) (t : SortSt), s.Runs g sl t →
    (∀ op rs rt off, brTaken op (t.gs rs) (t.gs rt) = false → exec (.branch ⟨g, some sl⟩ op rs rt off) s = .next (s.after g sl t)) ∧
    (∀ op rs rt off, brTaken op (t.gs rs) (t.gs rt) = true → relTarget t.pc.toNat off.toInt < 0x2000 →
      exec (.branch ⟨g, some sl⟩ op rs rt off) s =
        .next (s.setSliver g sl { t with pc := BitVec.ofNat 13 (relTarget t.pc.toNat off.toInt) })) ∧
    (∀ rd off, relTarget t.pc.toNat off.toInt < 0x2000 → exec (.jal ⟨g, some sl⟩ rd off) s =
        .next (s.setSliver g sl { t.ss rd (BitVec.ofNat 64 (t.pc.toNat + 4)) with pc := BitVec.ofNat 13 (relTarget t.pc.toNat off.toInt) })) ∧
    (∀ rd rs imm, (t.gs rs + imm64 imm).toNat / 4 * 4 < 0x2000 → exec (.jalr ⟨g, some sl⟩ rd rs imm) s =
        .next (s.setSliver g sl { t.ss rd (BitVec.ofNat 64 (t.pc.toNat + 4)) with pc := BitVec.ofNat 13 ((t.gs rs + imm64 imm).toNat / 4 * 4) })) ∧
    (∀ rd off, 0x2000 ≤ relTarget t.pc.toNat off.toInt → exec (.jal ⟨g, some sl⟩ rd off) s =
        .next (s.coreException ⟨g, some sl⟩ .pcRange t.pc.toNat))) ∧
  (∀ (s : State) (g : Nat) (k : CompSt), s.CompRuns g k →
    (∀ op rs rt off, brTaken op (k.gs rs) (k.gs rt) = false → exec (.branch ⟨g, none⟩ op rs rt off) s = .next (s.compAfter g k)) ∧
    (∀ op rs rt off, brTaken op (k.gs rs) (k.gs rt) = true → relTarget k.pc.toNat off.toInt < 0x8000 →
      exec (.branch ⟨g, none⟩ op rs rt off) s =
        .next (s.modGalley g (fun y => { y with comp := { k with pc := BitVec.ofNat 15 (relTarget k.pc.toNat off.toInt) } }))) ∧
    (∀ rd off, relTarget k.pc.toNat off.toInt < 0x8000 → exec (.jal ⟨g, none⟩ rd off) s =
        .next (s.modGalley g (fun y => { y with comp := { k.ss rd (BitVec.ofNat 64 (k.pc.toNat + 4)) with
          pc := BitVec.ofNat 15 (relTarget k.pc.toNat off.toInt) } }))) ∧
    (∀ rd rs imm, (k.gs rs + imm64 imm).toNat / 4 * 4 < 0x8000 → exec (.jalr ⟨g, none⟩ rd rs imm) s =
        .next (s.modGalley g (fun y => { y with comp := { k.ss rd (BitVec.ofNat 64 (k.pc.toNat + 4)) with
          pc := BitVec.ofNat 15 ((k.gs rs + imm64 imm).toNat / 4 * 4) } }))) ∧
    (∀ rd off, 0x8000 ≤ relTarget k.pc.toNat off.toInt → exec (.jal ⟨g, none⟩ rd off) s =
        .next (s.coreException ⟨g, none⟩ .pcRange k.pc.toNat)))

/-- Loads of a sort: the bytes at rs + imm12 go to the register, and nothing else changes; an aligned access beyond the case raises CASE_RANGE.

Stores of a sort: the bytes go to rs + imm12, every other byte of the case reads as before, and no register, tile, flag or
other sliver changes. -/
def Obligations.CaseLoadsAndStores : Prop :=
  (∀ (s : State) (g sl : Nat) (t : SortSt) (rs : Reg) (imm : BitVec 12), s.Runs g sl t →
    (∀ op rd, t.Accessible (t.ea rs imm) (loadShape op).1 → exec (.load ⟨g, some sl⟩ op rd rs imm) s =
      .next (s.after g sl (t.ss rd (loadVal op (mload t.dcase (t.ea rs imm) (loadShape op).1))))) ∧
    (∀ vd, t.Accessible (t.ea rs imm) 64 → exec (.vld g sl vd rs imm) s =
      .next (s.after g sl (t.sv vd (mload t.dcase (t.ea rs imm) 64)))) ∧
    (∀ vd, t.Accessible (t.ea rs imm) 4 → exec (.vldb g sl vd rs imm) s =
      .next (s.after g sl (t.sv vd (packLanes 32 (List.replicate 16 (mload t.dcase (t.ea rs imm) 4)))))) ∧
    (∀ rd : Reg, rd.toNat < 8 → t.Accessible (t.ea rs imm) 256 → exec (.tld g sl rd rs imm) s =
      .next (s.after g sl (t.sa rd.toNat (mload t.dcase (t.ea rs imm) 256)))) ∧
    (∀ op rd, t.ea rs imm % (loadShape op).1 = 0 → 0x6000 < t.ea rs imm + (loadShape op).1 →
      exec (.load ⟨g, some sl⟩ op rd rs imm) s = .next (s.coreException ⟨g, some sl⟩ .caseRange t.pc.toNat)) ∧
    (∀ op rt, t.ea rs imm % storeBytes op = 0 → 0x6000 < t.ea rs imm + storeBytes op →
      exec (.store ⟨g, some sl⟩ op rs rt imm) s = .next (s.coreException ⟨g, some sl⟩ .caseRange t.pc.toNat))) ∧
  (∀ (s : State) (g sl : Nat) (t : SortSt) (rs : Reg) (imm : BitVec 12), s.Runs g sl t →
    ∀ (c : Instr) (n x : Nat),
      ((∃ op rt, c = .store ⟨g, some sl⟩ op rs rt imm ∧ n = storeBytes op ∧ x = (t.gs rt).toNat) ∨
       (∃ vt, c = .vst g sl vt rs imm ∧ n = 64 ∧ x = (t.gv vt).toNat) ∨
       (∃ rd : Reg, c = .tst g sl rd rs imm ∧ n = 256 ∧ x = (t.ga (rd.toNat % 8)).toNat)) →
      t.Accessible (t.ea rs imm) n →
      ∃ s' t', exec c s = .next s' ∧ (s'.galley g).sliver sl = some t' ∧
        t'.dcase = mstore t.dcase (t.ea rs imm) n x ∧
        (∀ b, b < t.ea rs imm ∨ t.ea rs imm + n ≤ b → mget t'.dcase b = mget t.dcase b) ∧
        t'.pc = t.pc + 4 ∧ t'.status = .running ∧ t'.s = t.s ∧ t'.v = t.v ∧ t'.a = t.a ∧ t'.ssr = t.ssr ∧ t'.book = t.book ∧
        (∀ j, j ≠ sl → (s'.galley g).sliver j = (s.galley g).sliver j) ∧ (∀ h, h ≠ g → s'.galley h = s.galley h) ∧
        s' = { s with galleys := s'.galleys })

/-- R94: a case access that is not naturally aligned — a scalar access to its size, a vector access to 64 B, a tile access to 256 B — raises
MISALIGNED (0x04), and nothing of the access takes effect: the exception is raised in the state that the instruction found. -/
def Obligations.MisalignedCaseAccess : Prop :=
  Cause.value .misaligned = 0x04 ∧
  ∀ (s : State) (g sl : Nat) (t : SortSt) (rs rd : Reg) (imm : BitVec 12), s.Runs g sl t →
    (∀ op, t.ea rs imm % (loadShape op).1 ≠ 0 → exec (.load ⟨g, some sl⟩ op rd rs imm) s =
      .next (s.coreException ⟨g, some sl⟩ .misaligned t.pc.toNat)) ∧
    (∀ op, t.ea rs imm % storeBytes op ≠ 0 → exec (.store ⟨g, some sl⟩ op rs rd imm) s =
      .next (s.coreException ⟨g, some sl⟩ .misaligned t.pc.toNat)) ∧
    (t.ea rs imm % 4 ≠ 0 → exec (.vldb g sl rd rs imm) s = .next (s.coreException ⟨g, some sl⟩ .misaligned t.pc.toNat)) ∧
    (t.ea rs imm % 64 ≠ 0 →
      exec (.vld g sl rd rs imm) s = .next (s.coreException ⟨g, some sl⟩ .misaligned t.pc.toNat) ∧
      exec (.vst g sl rd rs imm) s = .next (s.coreException ⟨g, some sl⟩ .misaligned t.pc.toNat)) ∧
    (t.ea rs imm % 256 ≠ 0 → exec (.tst g sl rd rs imm) s = .next (s.coreException ⟨g, some sl⟩ .misaligned t.pc.toNat) ∧
      (rd.toNat < 8 → exec (.tld g sl rd rs imm) s = .next (s.coreException ⟨g, some sl⟩ .misaligned t.pc.toNat)))

/-- Memory accesses of a compositor pair (R149): data memory below 0x8000, the galley store from 0x400000, its image area closed
to stores. -/
def Obligations.CompositorMemory : Prop :=
  ∀ (s : State) (g : Nat) (k : CompSt) (rs : Reg) (imm : BitVec 12), s.CompRuns g k →
    (∀ op rd o, (k.gs rs + imm64 imm).toNat % (loadShape op).1 = 0 →
      compSpace (k.gs rs + imm64 imm).toNat (loadShape op).1 = some (false, o) → exec (.load ⟨g, none⟩ op rd rs imm) s =
      .next (s.compAfter g (k.ss rd (loadVal op (mload k.dmem o (loadShape op).1))))) ∧
    (∀ op rd o, (k.gs rs + imm64 imm).toNat % (loadShape op).1 = 0 →
      compSpace (k.gs rs + imm64 imm).toNat (loadShape op).1 = some (true, o) → exec (.load ⟨g, none⟩ op rd rs imm) s =
      .next (s.compAfter g (k.ss rd (loadVal op (mload (s.galley g).store o (loadShape op).1))))) ∧
    (∀ op rt o, (k.gs rs + imm64 imm).toNat % storeBytes op = 0 →
      compSpace (k.gs rs + imm64 imm).toNat (storeBytes op) = some (false, o) → exec (.store ⟨g, none⟩ op rs rt imm) s =
      .next (s.compAfter g { k with dmem := mstore k.dmem o (storeBytes op) (k.gs rt).toNat })) ∧
    (∀ op rt o, (k.gs rs + imm64 imm).toNat % storeBytes op = 0 →
      compSpace (k.gs rs + imm64 imm).toNat (storeBytes op) = some (true, o) → inImageArea o (storeBytes op) = true →
      exec (.store ⟨g, none⟩ op rs rt imm) s = .next (s.coreException ⟨g, none⟩ .compRange k.pc.toNat)) ∧
    (∀ op rt o, (k.gs rs + imm64 imm).toNat % storeBytes op = 0 →
      compSpace (k.gs rs + imm64 imm).toNat (storeBytes op) = some (true, o) → inImageArea o (storeBytes op) = false →
      exec (.store ⟨g, none⟩ op rs rt imm) s = .next (((s.modGalley g (fun y => { y with
        store := mstore y.store o (storeBytes op) (k.gs rt).toNat })).compAfter g k).forwardReport g o (storeBytes op)))

/-- Tile and matrix register moves of a sort.

Conversions, MX blocks and the matrix multiply of a sort: a legal form writes its result and goes on, an illegal one raises
ILLEGAL_INSTR (R100, R107 to R110). -/
def Obligations.TileAndMatrixInstructions : Prop :=
  (∀ (s : State) (g sl : Nat) (t : SortSt), s.Runs g sl t →
    (∀ rd : Reg, exec (.tzero g sl rd 0 0) s = .next (s.after g sl (t.sa (rd.toNat % 8) 0))) ∧
    (∀ (vd rs : Reg) (imm : BitVec 12), imm.toNat < 4 → exec (.trv g sl vd rs imm) s =
      .next (s.after g sl (t.sv vd (lane 512 (t.ga (rs.toNat % 8)).toNat imm.toNat)))) ∧
    (∀ (rd vs : Reg) (imm : BitVec 12), exec (.twv g sl rd vs imm) s =
      .next (s.after g sl (t.sa (rd.toNat % 8)
        (setBits (t.ga (rd.toNat % 8)).toNat (512 * (imm.toNat % 4)) 512 (t.gv vs).toNat)))) ∧
    (∀ rs rt, exec (.mscl g sl rs rt) s = .next (s.after g sl { t with xa := t.gs rs, xb := t.gs rt }))) ∧
  (∀ (s : State) (g sl : Nat) (t : SortSt), s.Runs g sl t →
    (∀ tgt src ctl rm vd va u, vcvt t (s.sortEnv g sl) tgt src ctl rm vd va = some u →
      exec (.vcvt g sl tgt src ctl rm vd va) s = .next (s.afterUnit g sl 3 u)) ∧
    (∀ mxe fmt pos rm vd va sd u, vmx t (s.sortEnv g sl) mxe fmt pos rm vd va sd = some u →
      exec (.vmx g sl mxe fmt pos rm vd va sd) s = .next (s.afterUnit g sl 3 u)) ∧
    (∀ mxe fmt pos rm vd va rs u, vdqmx t (s.sortEnv g sl) mxe fmt pos rm vd va rs = some u →
      exec (.vdqmx g sl mxe fmt pos rm vd va rs) s = .next (s.afterUnit g sl 3 u)) ∧
    (∀ (afmt bfmt : BitVec 4) (mx : Bool) (ad : BitVec 3) (va vb : Reg) (f : SortSt → SortSt), mma t afmt bfmt mx ad va vb = some f →
      exec (.mma g sl afmt bfmt mx ad va vb) s =
        .next (s.afterUnit g sl (if afmt.toNat = 1 ∨ afmt.toNat = 2 then 2 else 1) (f t))) ∧
    (∀ tgt src ctl rm vd va, vcvt t (s.sortEnv g sl) tgt src ctl rm vd va = none →
      exec (.vcvt g sl tgt src ctl rm vd va) s = .next (s.coreException ⟨g, some sl⟩ .illegalInstr t.pc.toNat)))

/-- Vector floating-point instructions of a sort (R105): with a listed type and a rounding mode that is no RSR, each lane's result
is rounded by that mode, the flags are raised in SSR, and one vector operation is charged.

R70: minimum, maximum, sign operations and compares raise no flag, and write lane by lane the minimum or maximum of the
values, the value with its sign cleared or inverted, or all ones where the comparison holds and zero where it does not.

Vector integer instructions of a sort (R106). -/
def Obligations.VectorInstructions : Prop :=
  (∀ (s : State) (g sl : Nat) (t : SortSt) (ty : BitVec 2) (rm : BitVec 3) (f : FFmt) (n : Nat) (r : RM),
    s.Runs g sl t → fpType ty = some (f, n) → arithRm rm = some r →
    (∀ op vd va vb, exec (.vArith g sl op ty rm vd va vb) s = .next (s.afterUnit g sl 3
      ((t.sv vd (lanes2 f.width n (fpLane f (fpOpOf op) r) (t.gv va).toNat (t.gv vb).toNat).1).flag
        (lanes2 f.width n (fpLane f (fpOpOf op) r) (t.gv va).toNat (t.gv vb).toNat).2))) ∧
    (∀ vd va, exec (.vsqrt g sl ty rm vd va 0) s = .next (s.afterUnit g sl 3
      ((t.sv vd (lanes2 f.width n (fun a _ => sqrtLane f r a) (t.gv va).toNat 0).1).flag
        (lanes2 f.width n (fun a _ => sqrtLane f r a) (t.gv va).toNat 0).2))) ∧
    (∀ vd va, exec (.vhsum g sl ty rm vd va) s = .next (s.afterUnit g sl 3
      ((t.sv vd (hsum f r (lanes f.width n (t.gv va).toNat)).1).flag (hsum f r (lanes f.width n (t.gv va).toNat)).2))) ∧
    (∀ vd va, exec (.vhmax g sl ty rm vd va) s = .next (s.afterUnit g sl 3
      (t.sv vd (hmax f (lanes f.width n (t.gv va).toNat))))) ∧
    (∀ vd va vb vc, exec (.vfma g sl ty rm vd va vb vc) s = .next (s.afterUnit g sl 3
      ((t.sv vd (lanes3 f.width n (fmaLane f false r) (t.gv va).toNat (t.gv vb).toNat (t.gv vc).toNat).1).flag
        (lanes3 f.width n (fmaLane f false r) (t.gv va).toNat (t.gv vb).toNat (t.gv vc).toNat).2))) ∧
    (∀ vd va vb vc, exec (.vfnma g sl ty rm vd va vb vc) s = .next (s.afterUnit g sl 3
      ((t.sv vd (lanes3 f.width n (fmaLane f true r) (t.gv va).toNat (t.gv vb).toNat (t.gv vc).toNat).1).flag
        (lanes3 f.width n (fmaLane f true r) (t.gv va).toNat (t.gv vb).toNat (t.gv vc).toNat).2)))) ∧
  (∀ (s : State) (g sl : Nat) (t : SortSt) (ty : BitVec 2) (rm : BitVec 3) (f : FFmt) (n : Nat) (r : RM),
    s.Runs g sl t → fpType ty = some (f, n) → arithRm rm = some r →
    (∀ op vd va vb, exec (.vMinMax g sl op ty rm vd va vb) s = .next (s.afterUnit g sl 3
      (t.sv vd (packLanes f.width ((List.range n).map (fun i =>
        let a := f.decode (lane f.width (t.gv va).toNat i)
        let b := f.decode (lane f.width (t.gv vb).toNat i)
        (f.round r (match op with | .vmin => a.min b | .vmax => a.max b)).1)))))) ∧
    (∀ op vd va, exec (.vSign g sl op ty rm vd va 0) s = .next (s.afterUnit g sl 3
      (t.sv vd (packLanes f.width ((List.range n).map (fun i =>
        let a := f.decode (lane f.width (t.gv va).toNat i)
        (f.round .rne (match op with | .vabs => a.abs | .vneg => a.neg)).1)))))) ∧
    (∀ op vd va vb, exec (.vCmp g sl op ty rm vd va vb) s = .next (s.afterUnit g sl 3
      (t.sv vd (packLanes f.width ((List.range n).map (fun i =>
        let a := f.decode (lane f.width (t.gv va).toNat i)
        let b := f.decode (lane f.width (t.gv vb).toNat i)
        let holds : Bool := match op with
          | .vcmpeq => a.eqv b
          | .vcmplt => a.lt b
          | .vcmple => a.lt b || a.eqv b
          | .vcmpne => !a.eqv b
        if holds then 2 ^ f.width - 1 else 0))))))) ∧
  (∀ (s : State) (g sl : Nat) (t : SortSt) (ty : BitVec 2) (w n : Nat), s.Runs g sl t → intType ty = some (w, n) →
    (∀ op vd va vb, exec (.vInt g sl op ty vd va vb) s = .next (s.afterUnit g sl 3 (t.sv vd
      (ilanes w n (fun a b => match op with | .viadd => a + b | .visub => a + 2 ^ w - b | .vimul => a * b)
        (t.gv va).toNat (t.gv vb).toNat)))) ∧
    (∀ op vd va vb, exec (.vLogic g sl op ty vd va vb) s = .next (s.afterUnit g sl 3 (t.sv vd
      (match op with
        | .vand => t.gv va &&& t.gv vb
        | .vor => t.gv va ||| t.gv vb
        | .vxor => t.gv va ^^^ t.gv vb).toNat))) ∧
    (∀ op vd va vb, exec (.vShift g sl op ty vd va vb) s = .next (s.afterUnit g sl 3 (t.sv vd
      (ilanes w n (fun a b => match op with
        | .vshl => a * 2 ^ (b % w)
        | .vshr => a / 2 ^ (b % w)
        | .vsar => ofSigned w (toSigned w a / 2 ^ (b % w))) (t.gv va).toNat (t.gv vb).toNat)))) ∧
    (∀ op vd va vb, exec (.vIMinMax g sl op ty vd va vb) s = .next (s.afterUnit g sl 3 (t.sv vd
      (ilanes w n (fun a b => match op with
        | .vimin => if toSigned w a < toSigned w b then a else b
        | .vimax => if toSigned w a < toSigned w b then b else a) (t.gv va).toNat (t.gv vb).toNat)))) ∧
    (∀ vd va vb, exec (.vsel g sl ty vd va vb) s = .next (s.afterUnit g sl 3 (t.sv vd
      ((t.gv va &&& t.gv vd) ||| (t.gv vb &&& ~~~ t.gv vd)).toNat))) ∧
    (∀ vd va vb, exec (.vperm g sl ty vd va vb) s = .next (s.afterUnit g sl 3 (t.sv vd
      (packLanes w ((List.range n).map (fun i => lane w (t.gv va).toNat (lane w (t.gv vb).toNat i % n))))))) ∧
    (∀ vd sa, exec (.vbcst g sl ty vd sa 0) s = .next (s.afterUnit g sl 3 (t.sv vd
      (packLanes w (List.replicate n ((t.gs sa).toNat % 2 ^ w)))))) ∧
    (∀ (sd va : Reg) (ln : BitVec 5), ln.toNat < n → exec (.vext g sl ty sd va ln) s = .next (s.afterUnit g sl 3
      (t.ss sd (BitVec.ofNat 64 (lane w (t.gv va).toNat ln.toNat))))))

/-- R77: an integer MMA, of INT8 rows of 8 elements or INT4 rows of 16, forms for every element of the tile the exact sum of the old element
and the products, clamps it to −2^31 to 2^31 − 1, and sets SAT exactly when clamping changes a sum. -/
def Obligations.IntegerMatrixMultiply : Prop :=
  ∀ (s : State) (g sl : Nat) (t : SortSt) (fmt : BitVec 4) (ad : BitVec 3) (va vb : Reg) (w k : Nat) (sum : Nat → Nat → Int),
    s.Runs g sl t → (fmt = 9 ∧ w = 8 ∧ k = 8) ∨ (fmt = 10 ∧ w = 4 ∧ k = 16) →
    (∀ i j, sum i j = toSigned 32 (lane 32 (t.ga ad.toNat).toNat (8 * i + j)) + ((List.range k).map (fun n =>
      toSigned w (lane w ((t.gv va).toNat / 2 ^ (64 * i)) n) * toSigned w (lane w ((t.gv vb).toNat / 2 ^ (64 * j)) n))).sum) →
    ∃ t' : SortSt, exec (.mma g sl fmt fmt false ad va vb) s = .next (s.afterUnit g sl 1 t') ∧
      (∀ i j, i < 8 → j < 8 →
        lane 32 (t'.ga ad.toNat).toNat (8 * i + j) = ofSigned 32 (max (-(2 ^ 31)) (min (2 ^ 31 - 1) (sum i j)))) ∧
      (bit t'.ssr.toNat 5 = true ↔ bit t.ssr.toNat 5 = true ∨ ∃ i j, i < 8 ∧ j < 8 ∧ (sum i j < -(2 ^ 31) ∨ 2 ^ 31 - 1 < sum i j)) ∧
      (∀ n, n ≠ ad.toNat → n < 8 → t'.ga n = t.ga n) ∧ t'.v = t.v ∧ t'.s = t.s ∧ t'.dcase = t.dcase

/-- Issue of a stream move (R111): both addresses multiples of 64, both ranges open to the sliver, a free tag.

The end of a stream move (R95, R111): the tag is free, and a case destination holds the bytes that the model reads of the
source; other bytes of the case read as before.  SWAIT goes on once no masked tag is busy, and stalls before. -/
def Obligations.StreamMoves : Prop :=
  (∀ (s : State) (g sl : Nat) (t : SortSt) (rd rs rt : Reg) (len7 : BitVec 7) (tag : Nat), s.Runs g sl t →
    lowestFree t.tags 8 0 = some tag →
    ∀ (c : Instr) (k : StreamKind) (src dst : Nat),
      ((c = .smovCs g sl rd rs rt len7 ∧ k = .cs ∧ src = (t.gs rs).toNat ∧ dst = (t.gs rt).toNat) ∨
       (c = .smovSc g sl rd rs rt len7 ∧ k = .sc ∧ src = (t.gs rt).toNat ∧ dst = (t.gs rs).toNat) ∨
       (c = .smovCg g sl rd rs rt len7 ∧ k = .cg ∧ src = (t.gs rs).toNat ∧ dst = (t.gs rt).toNat) ∨
       (c = .smovGc g sl rd rs rt len7 ∧ k = .gc ∧ src = (t.gs rt).toNat ∧ dst = (t.gs rs).toNat) ∨
       (c = .smovSg g sl rd rs rt len7 ∧ k = .sg ∧ src = (t.gs rs).toNat ∧ dst = (t.gs rt).toNat) ∨
       (c = .smovGs g sl rd rs rt len7 ∧ k = .gs ∧ src = (t.gs rt).toNat ∧ dst = (t.gs rs).toNat)) →
      src % 64 = 0 → dst % 64 = 0 →
      streamRangeOk ((s.galley g).plan sl) k.ends.1 src ((len7.toNat + 1) * 64) false = true →
      streamRangeOk ((s.galley g).plan sl) k.ends.2 dst ((len7.toNat + 1) * 64) true = true →
      (k.ends.1 = .case → t.eccBad src ((len7.toNat + 1) * 64) = false) →
      exec c s = .next (s.after g sl (SortSt.ss { t with
        tags := tput t.tags tag ⟨k, src, dst, (len7.toNat + 1) * 64,
          (s.galley g).streamRead sl t k.ends.1 src ((len7.toNat + 1) * 64), t.seq⟩,
        seq := t.seq + 1 } rd (BitVec.ofNat 64 tag)))) ∧
  ((∀ (s : State) (g sl tag : Nat) (t : SortSt) (m : StreamMove), (s.galley g).sliver sl = some t → tget t.tags tag = some m →
    t.olderInbound m = false → ∃ s' t', exec (.streamMoveDone g sl tag) s = .next s' ∧ (s'.galley g).sliver sl = some t' ∧
      tget t'.tags tag = none ∧ (∀ k, k ≠ tag → tget t'.tags k = tget t.tags k) ∧ t'.pc = t.pc ∧ t'.s = t.s ∧ t'.v = t.v ∧
      (m.kind.inbound = false → t'.dcase = t.dcase) ∧
      (m.kind.inbound = true → t'.dcase = mwrite t.dcase m.dst ((s.galley g).streamData sl t m s.fresh))) ∧
  (∀ (s : State) (g sl : Nat) (t : SortSt) (rs : Reg), s.Runs g sl t →
    ((maskOf (t.gs rs).toNat 8).any (fun i => thas t.tags i) = false → exec (.swait g sl rs 0) s = .next (s.after g sl t)) ∧
    ((maskOf (t.gs rs).toNat 8).any (fun i => thas t.tags i) = true → exec (.swait g sl rs 0) s = .next (s.setSliver g sl t))))

/-- LKUP, LWAIT and LSTAT (R112, R113): a list inside the case with a result area in the sliver's galley window takes the lowest
free ticket and returns its number; LWAIT releases the masked tickets once all are done; LSTAT returns the flags of a done
list and releases it, busy with bit 63 set, or 0 for a free ticket. -/
def Obligations.LookupInstructions : Prop :=
  ∀ (s : State) (g sl : Nat) (t : SortSt), s.Runs g sl t →
    (∀ (rd rs rt : Reg) (a r n m k : Nat), a = (t.gs rs).toNat → r = (t.gs rt).toNat → a % 64 = 0 → r % 64 = 0 →
      a + 64 ≤ 0x6000 → n = listBytes (clampTo 1 1024 (listHdr (mread t.dcase a 64)).entries) (clampTo 1 512 (listHdr (mread t.dcase a 64)).bags) →
      m = max 64 (listHdr (mread t.dcase a 64)).resBytes → a + n ≤ 0x6000 → inGalleyWindow ((s.galley g).plan sl) r m true = true →
      lowestFree t.tickets 4 0 = some k → t.eccBad a n = false →
      exec (.lkup g sl rd rs rt) s = .next (s.after g sl (SortSt.ss { t with
        tickets := tput t.tickets k (newTicket (mread t.dcase a n) r s.now) } rd (BitVec.ofNat 64 k)))) ∧
    (∀ rs, (∀ k x, k ∈ maskOf (t.gs rs).toNat 4 → tget t.tickets k = some x → x.done = true) →
      exec (.lwait g sl rs) s = .next (s.after g sl
        (((maskOf (t.gs rs).toNat 4).filter (fun k => thas t.tickets k)).foldl (fun t k => t.release k) t))) ∧
    (∀ rd rs, tget t.tickets ((t.gs rs).toNat % 4) = none → exec (.lstat g sl rd rs) s = .next (s.after g sl (t.ss rd 0))) ∧
    (∀ rd rs x, tget t.tickets ((t.gs rs).toNat % 4) = some x → x.done = true →
      exec (.lstat g sl rd rs) s = .next (s.after g sl ((t.release ((t.gs rs).toNat % 4)).ss rd (x.flags.setWidth 64)))) ∧
    (∀ rd rs x, tget t.tickets ((t.gs rs).toNat % 4) = some x → x.done = false →
      exec (.lstat g sl rd rs) s = .next (s.after g sl (t.ss rd (BitVec.ofNat 64 (2 ^ 63 + x.flags.toNat)))))

/-- Barriers (R114, R142): a sliver that does not take part, or whose generation has been released, passes; one that takes part
arrives and waits; when every awaited sliver has arrived the barrier's generation goes up and nobody is left arrived.

Messages between slivers (R115, R116): MSEND puts the two registers under way and counts the send; delivery puts the message
in the inbox of a sliver that has not ended, in sending order; MRECV takes the oldest message into an even register pair;
MPOLL counts the inbox. -/
def Obligations.BarriersAndMessages : Prop :=
  ((∀ (s : State) (g sl : Nat) (t : SortSt) (imm : BitVec 12), s.Runs g sl t → imm.toNat < 4 →
    ((s.galley g).takesPart sl false imm.toNat = false → exec (.barS g sl 0 0 imm) s = .next (s.after g sl t)) ∧
    ((s.galley g).takesPart sl true imm.toNat = false → exec (.barG g sl 0 0 imm) s = .next (s.after g sl t)) ∧
    ((s.galley g).takesPart sl false imm.toNat = true →
      ((s.galley g).bar false (barKey false sl imm.toNat)).gen ≤ t.barCount false imm.toNat →
      ∃ s' t', exec (.barS g sl 0 0 imm) s = .next s' ∧ (s'.galley g).sliver sl = some t' ∧
        t' = { t with status := .waitBarS imm.toNat } ∧ sl ∈ ((s'.galley g).bar false (barKey false sl imm.toNat)).arrived) ∧
    ((s.galley g).takesPart sl true imm.toNat = true →
      ((s.galley g).bar true (barKey true sl imm.toNat)).gen ≤ t.barCount true imm.toNat →
      ∃ s' t', exec (.barG g sl 0 0 imm) s = .next s' ∧ (s'.galley g).sliver sl = some t' ∧
        t' = { t with status := .waitBarG imm.toNat } ∧ sl ∈ ((s'.galley g).bar true (barKey true sl imm.toNat)).arrived)) ∧
  (∀ (s : State) (g key sl : Nat) (gal : Bool) (t : SortSt), (s.galley g).bar gal key = ⟨t.barCount gal (key % 4), [sl]⟩ →
    (s.galley g).sliver sl = some t → t.status = (if gal then .waitBarG (key % 4) else .waitBarS (key % 4)) → t.pc ≠ 0x1FFC →
    ((s.galley g).awaited gal key).all (fun k => k == sl) = true →
    ∃ s' t', exec (.barrierRelease g gal key) s = .next s' ∧ (s'.galley g).sliver sl = some t' ∧ t'.status = .running ∧
      t'.pc = t.pc + 4 ∧ t'.barCount gal (key % 4) = t.barCount gal (key % 4) + 1 ∧
      (s'.galley g).bar gal key = ⟨t.barCount gal (key % 4) + 1, []⟩)) ∧
  ((∀ (s : State) (g sl : Nat) (t : SortSt) (rd rs rt : Reg), s.Runs g sl t → (t.gs rd).toNat < (s.sortEnv g sl).slivers →
    (∀ r, (s.galley g).sliver (t.gs rd).toNat = some r → r.inbox.length < 16) →
    exec (.msend g sl rd rs rt) s = .next ((s.after g sl { t with book := { t.book with sends := t.book.sends + 1 } }).modGalley g
      (fun y => { y with msgs := y.msgs ++ [((t.gs rd).toNat, ⟨sl, t.book.slugs, t.book.sends, t.gs rs, t.gs rt⟩)] }))) ∧
  (∀ (s : State) (g sender dest : Nat) (m : Msg) (t : SortSt) (rest : List (Nat × Msg)),
    (s.galley g).msgs = (dest, m) :: rest → m.sender = sender → (s.galley g).sliver dest = some t → t.status ≠ .ended →
    tget t.lastMsg sender = none → t.inbox.length < 16 →
    ∃ s' t', exec (.messageDelivery g sender dest) s = .next s' ∧ (s'.galley g).sliver dest = some t' ∧
      t'.inbox = t.inbox ++ [m] ∧ tget t'.lastMsg sender = some (m.slug, m.send) ∧ (s'.galley g).msgs = rest ∧ t'.pc = t.pc) ∧
  (∀ (s : State) (g sl : Nat) (t : SortSt) (rd : Reg), s.Runs g sl t →
    (∀ m r, t.inbox = m :: r → Reg.odd rd = false →
      exec (.mrecv g sl rd) s = .next (s.after g sl (({ t with inbox := r }.ss rd m.lo).ss (Reg.succ rd) m.hi))) ∧
    (t.inbox = [] → Reg.odd rd = false → exec (.mrecv g sl rd) s = .next (s.setSliver g sl { t with status := .waitRecv })) ∧
    exec (.mpoll g sl rd) s = .next (s.after g sl (t.ss rd (BitVec.ofNat 64 t.inbox.length)))))

/-- Slug and system instructions (R117, R118, R126, R127): a drained sort passes its boundary, taking the snapshot and restarting
the slug's counters; SDONE ends a drained sliver and empties its inbox; NOP, SRD, SWR and an armed injection go on in
sequence; a slug at 64,000 cycles raises SLUG_OVERRUN.

Table 03-16: SSR is cleared by writing ones, XA and XB are read and written, and the other listed registers keep their value
when written; a register that is not listed is illegal. -/
def Obligations.SlugAndControlRegisters : Prop :=
  (∀ (s : State) (g sl : Nat) (t : SortSt), s.Runs g sl t →
    (∀ imm : BitVec 12, imm.toNat < (s.sortEnv g sl).slugCount → t.drained = true → (s.galley g).preempt = false →
      exec (.slug g sl 0 0 imm) s = .next (s.setSliver g sl { t.boundary (t.pc + 4) imm.toNat with pc := t.pc + 4 })) ∧
    (t.drained = true → ∃ s' t', exec (.sdone g sl) s = .next s' ∧ (s'.galley g).sliver sl = some t' ∧ t'.status = .ended ∧
      t'.inbox = [] ∧ t'.s = t.s ∧ t'.v = t.v ∧ t'.dcase = t.dcase) ∧
    exec (.systemNop g sl) s = .next (s.after g sl t) ∧
    (∀ rd csr x, csrRead t (s.sortEnv g sl) csr = some x → exec (.srd g sl rd csr) s = .next (s.after g sl (t.ss rd x))) ∧
    (∀ rs csr u, csrWrite t csr (t.gs rs) = some u → exec (.swr g sl rs csr) s = .next (s.after g sl u)) ∧
    (∀ imm : BitVec 12, imm.toNat < 2 → (s.sortEnv g sl).test = true → t.book.injUsed = false →
      exec (.rctlInj g sl 0 0 imm) s =
        .next (s.after g sl { t with book := { t.book with inj := some (bit imm.toNat 0), injUsed := true } })) ∧
    ((s.sortEnv g sl).test = false → ∀ imm, exec (.rctlInj g sl 0 0 imm) s =
        .next (s.coreException ⟨g, some sl⟩ .illegalInstr t.pc.toNat)) ∧
    (64000 ≤ t.book.slugCyc.toNat → exec (.slugOverrun g sl) s = .next (s.coreException ⟨g, some sl⟩ .slugOverrun t.pc.toNat))) ∧
  (∀ (t : SortSt) (e : SortEnv) (x : W64),
    (∃ u, csrWrite t 0 x = some u ∧ u = { t with ssr := t.ssr &&& ~~~ (x.setWidth 32 &&& 0x3F) } ∧
      csrRead u e 0 = some (u.ssr.setWidth 64)) ∧
    (∃ u, csrWrite t 6 x = some u ∧ csrRead u e 6 = some x ∧ csrRead u e 7 = csrRead t e 7) ∧
    (∃ u, csrWrite t 7 x = some u ∧ csrRead u e 7 = some x ∧ csrRead u e 6 = csrRead t e 6) ∧
    (∀ c : BitVec 12, (c = 1 ∨ c = 2 ∨ c = 3 ∨ c = 4 ∨ c = 5 ∨ c = 8) → csrWrite t c x = some t ∧ (csrRead t e c).isSome) ∧
    (∀ c : BitVec 12, 8 < c.toNat → csrWrite t c x = none ∧ csrRead t e c = none))

/-- R122, R124: with a transient residue error armed a checked instruction replays: the same result, one more replay counted and
the error spent; with a persistent one nothing is written and the sliver waits for its stick's spare sort.

Sparing (R124 to R126, R159): an adopted sliver runs its slug again from the snapshot with one retry counted, and after an
injected mismatch no sort is retired; a stick's replacement ends the same way for every running sliver of the stick; two
compositors whose checksums differ reset their galley. -/
def Obligations.ResidueErrorsAndSparing : Prop :=
  (∀ (s : State) (g sl : Nat) (t : SortSt) (rd rs rt : Reg), (s.galley g).sliver sl = some t → t.status = .running → t.pc ≠ 0x1FFC →
    (t.book.inj = some false → exec (.alu ⟨g, some sl⟩ .add rd rs rt) s =
      .next (State.after { s with corrected := s.corrected + 1 } g sl
        ({ t with book := { t.book with inj := none, replays := satInc t.book.replays } }.ss rd (t.gs rs + t.gs rt)))) ∧
    (t.book.inj = some true → t.book.retried = false → tget (s.galley g).spares.sortSpare (stickOf sl) = none →
      let u : SortSt := SortSt.abandon { t with book := { t.book with inj := none } }
      exec (.alu ⟨g, some sl⟩ .add rd rs rt) s = .next (s.setSliver g sl { u with status := .adopting true })) ∧
    (t.book.inj.isSome → exec (.alu ⟨g, some sl⟩ .xor rd rs rt) s = .next (s.after g sl (t.ss rd (t.gs rs ^^^ t.gs rt))))) ∧
  ((∀ (s : State) (g sl : Nat) (t : SortSt), (s.galley g).sliver sl = some t → t.status = .adopting true →
    (s.galley g).spares.replacing = none →
    let u : SortSt := t.rollback.countRetry
    let v : SortSt := { u with status := .running, book := { u.book with retried := true } }
    exec (.sortAdoptionDone g sl) s = .next ((s.setSliver g sl v).fault
      { s.causeRecord ⟨g, some sl⟩ 0x6001 t.pc.toNat with level := 0 } [])) ∧
  (∀ (s : State) (g j : Nat), g < 64 → (s.galley g).spares.replacing = some j →
    ∃ s', exec (.stickReplacementDone g) s = .next s' ∧ (s'.galley g).spares.replacing = none ∧
      (s'.galley g).spares.stickSpare = some j ∧
      ∀ sl t, (s.galley g).sliver sl = some t → stickOf sl = j → t.status = .running →
        ∃ t', (s'.galley g).sliver sl = some t' ∧ t'.status = .running ∧ t'.s = t.snap.s ∧ t'.pc = t.snap.pc) ∧
  (∀ (s : State) (g : Nat), s.galleyUp g = true → exec (.lockstepCheck g true) s =
    .next (s.takeFault (s.causeRecord ⟨g, none⟩ 0x7015 (s.galley g).comp.pc.toNat) (.galley g))))

/-- Share and move instructions of a compositor pair (R149, R151, R158): DSTART starts a share of the current LAUNCH that lies in
the galley's bitmap; DWAIT stalls while a share runs and then reads its outcome; DSTAT reads 0 with no share running; GMOVE
starts a well-formed move under the lowest free tag; GMWAIT goes on when the masked tags are free; GFLUSH goes on.

The end of a move (R151, R152) and of an image load (R351): a move between two ranges of the galley store copies one row and
frees its tag; an image whose tag matches its seal is placed in the galley; one whose tag does not match loses the
context with SEAL_MISMATCH. -/
def Obligations.CompositorSharesAndMoves : Prop :=
  (∀ (s : State) (g : Nat) (k : CompSt), s.CompRuns g k →
    (∀ rs l im, (s.galley g).share = none → (s.galley g).lastShare ≠ 2 → (s.galley g).cur = some l → (s.galley g).image = some im →
      l.shares.contains ((k.gs rs).toNat % 64) = true → exec (.dstart g 0 rs 0) s =
        .next (State.compAfter (s.setGalley g ((s.galley g).startShare ((k.gs rs).toNat % 64) im.2.slivers)) g k)) ∧
    (∀ rs l im, (s.galley g).share = none → (s.galley g).lastShare ≠ 2 → (s.galley g).cur = some l → (s.galley g).image = some im →
      l.shares.contains ((k.gs rs).toNat % 64) = false → exec (.dstart g 0 rs 0) s =
        .next (s.coreException ⟨g, none⟩ .shareIndex k.pc.toNat)) ∧
    (∀ rd, (s.galley g).share = none → exec (.dwait g rd 0 0) s =
        .next (s.compAfter g (k.ss rd (BitVec.ofNat 64 (s.galley g).lastShare)))) ∧
    (∀ rd sh, (s.galley g).share = some sh → exec (.dwait g rd 0 0) s = .next s) ∧
    (∀ rd, (s.galley g).share = none → exec (.dstat g rd 0 0) s = .next (s.compAfter g (k.ss rd 0))) ∧
    (∀ rd sh, (s.galley g).share = some sh → exec (.dstat g rd 0 0) s = .next (s.compAfter g (k.ss rd
        (BitVec.ofNat 64 (2 ^ 63 + sh.index % 64 * 2 ^ 48 + (s.galley g).endedCount * 2 ^ 39))))) ∧
    (∀ rd rs m tag, (k.gs rs).toNat + 32 ≤ 0x8000 → (k.gs rs).toNat % 8 = 0 → parseMove (mread k.dmem (k.gs rs).toNat 32) = some m →
      lowestFree (s.galley g).moves 16 0 = some tag → ∃ s' m', exec (.gmove g rd rs 0) s = .next s' ∧
        tget (s'.galley g).moves tag = some m' ∧ m'.src = m.src ∧ m'.dst = m.dst ∧ m'.len = m.len ∧ m'.rows = m.rows ∧
        m'.started = true ∧ (s'.galley g).comp = { k.ss rd (BitVec.ofNat 64 tag) with pc := k.pc + 4 } ∧
        (s'.galley g).store = (s.galley g).store ∧ s'.mem = s.mem) ∧
    (∀ rd rs, (k.gs rs).toNat + 32 ≤ 0x8000 → (k.gs rs).toNat % 8 = 0 → parseMove (mread k.dmem (k.gs rs).toNat 32) = none →
      exec (.gmove g rd rs 0) s = .next (s.coreException ⟨g, none⟩ .moveFormat k.pc.toNat)) ∧
    (∀ rs, (s.galley g).moves = [] → exec (.gmwait g 0 rs 0) s = .next (s.compAfter g k)) ∧
    exec (.gflush g 0 0 0) s = .next (s.compAfter g k)) ∧
  ((∀ (s : State) (g tag c : Nat) (m : GMove), g < 64 → tget (s.galley g).moves tag = some m → (s.galley g).ctx = some c →
    m.srcGs = true → m.dstGs = true → m.rows = 1 →
    ∃ s', exec (.moveDone g tag) s = .next s' ∧ tget (s'.galley g).moves tag = none ∧
      (∀ j, j ≠ tag → tget (s'.galley g).moves j = tget (s.galley g).moves j) ∧
      (s'.galley g).store = mwrite (s.galley g).store m.dst (raceChunks (fun i => Config.raceNew s.fresh i) (m.len / 64) 0
        (m.old.take m.len) (mread (s.galley g).store m.src m.len)) ∧
      s'.mem = s.mem ∧ s'.hostMem = s.hostMem ∧ s'.fresh = s.fresh + 1) ∧
  (∀ (s s1 : State) (g k : Nat) (p : StepRec) (l : List Byte), (s.galley g).owner = some k → tget s.steps k = some p →
    (s.galley g).loading = true → s.sec.keyless = false → s.ctxRead p.ctx p.sealed_.imageVA p.sealed_.bytes = (.ok l, s1) →
    (sealTag (s1.tagCmd s g).sealKey p.ctx p.sealNo p.sealGen p.sealed_.imageVA p.sealed_.info l = p.sealed_.tag →
      exec (.imageLoadVerify g) s = .next ((s1.tagCmd s g).modGalley g (fun y =>
        y.loaded (imageKey p.sealNo p.sealGen) p.sealed_.info l))) ∧
    (sealTag (s1.tagCmd s g).sealKey p.ctx p.sealNo p.sealGen p.sealed_.imageVA p.sealed_.info l ≠ p.sealed_.tag →
      exec (.imageLoadVerify g) s = .next (((s1.tagCmd s g).loseContext p.ctx
        { faultOf 0x3001 with unitType := 0x0F, phys := 1, addr := p.sealed_.imageVA, info0 := p.sealNo, info1 := p.sealGen }
        (some (p.queue, p.no))).settle))))

/-- Queue instructions of a compositor pair (R149, R150): QWAIT of a press loop reads the queue of the available LAUNCH and stalls
without one; QTAKE makes it current, swaps the active area and reads the galley's shares; QINFO reads the current LAUNCH's context
and instance; QEXIT ends the program; QDONE with no share or move running ends the galley's part of the LAUNCH. -/
def Obligations.CompositorQueueInstructions : Prop :=
  ∀ (s : State) (g : Nat) (k : CompSt), s.CompRuns g k →
    (∀ rd l, (s.galley g).image.map (fun i => i.2.press) = some true → (s.galley g).next = some l →
      tget s.switching (s.domainOf (formeOf g)) = none →
      exec (.qwait g rd 0 0) s = .next (s.compAfter g (k.ss rd (BitVec.ofNat 64 l.queue)))) ∧
    (∀ rd, (s.galley g).image.map (fun i => i.2.press) ≠ some true →
      exec (.qwait g rd 0 0) s = .next (s.coreException ⟨g, none⟩ .compIllegal k.pc.toNat)) ∧
    (∀ rd l, (s.galley g).next = some l → ∃ s', exec (.qtake g rd 0 0) s = .next s' ∧ (s'.galley g).cur = some l ∧
      (s'.galley g).next = none ∧ (s'.galley g).areaB = !(s.galley g).areaB ∧ (s'.galley g).lastShare = 0 ∧
      (s'.galley g).comp = { k.ss rd (shareMap l.shares) with pc := k.pc + 4 }) ∧
    (∀ rd, (s.galley g).next = none → exec (.qtake g rd 0 0) s = .next s) ∧
    (∀ rd l, (s.galley g).cur = some l → exec (.qinfo g rd 0 0) s = .next (s.compAfter g (k.ss rd
      (BitVec.ofNat 64 (b2n (s.galley g).storesKept * 2 ^ 63 + b2n (s.galley g).areaB * 2 ^ 62 + l.ctx % 4096 * 2 ^ 48 +
        l.inst % 256 * 2 ^ 40))))) ∧
    exec (.qexit g 0 0 0) s = .next (s.modGalley g (fun y => { y with comp := { k with status := .idle } })) ∧
    (∀ rs, (s.galley g).share = none → (s.galley g).moves = [] → (s.galley g).cur = none →
      exec (.qdone g 0 rs 0) s = .next (s.compAfter g k)) ∧
    (∀ rs l, (s.galley g).share = none → (s.galley g).moves = [] → (s.galley g).cur = some l → tget s.steps l.step = none →
      ∃ s', exec (.qdone g 0 rs 0) s = .next s' ∧ (s'.galley g).cur = none ∧ (s'.galley g).owner = none ∧
        (s'.galley g).storesKept = true ∧ (s'.galley g).comp = { k with pc := k.pc + 4 })

/-- The port (R209 to R211): a list that checks is sent and its ticket marked checked, one that does not is completed with
LIST_FORMAT; the head entry of a stream enters the intake of a serving platen with room, and an entry that is not
accepted settles with its code; an end mark adds its count; while the platen is in reset the entry is answered at the port.

Admission and windows (R216, R218, R220, R221): an entry of a table with direct rows enters the collecting window with its bag's
accumulators held; a full collecting window becomes a window in flight; the 100 µs boundary refills every bucket, and the 1 ms
boundary halves the sketch.

Windows, bags and lists (R213, R214, R221 to R223, R228, R229): a sheet that a window waits for is read and fed to its
entries; a window whose entries have all settled leaves; a bag whose end mark has arrived and whose entries have all
settled is written, and leaves; a list with every platen finished gets its header last; a codebook that reads
without poison becomes resident. -/
def Obligations.Lookups : Prop :=
  ((∀ (s : State) (src : LkSrc) (tk : Ticket), s.srcTicket src = some tk → tk.checked = false →
    (listOk tk.list = true → exec (.listCheck src) s = .next (s.sendList src tk.list)) ∧
    (listOk tk.list = false → exec (.listCheck src) s =
      .next ((s.modTicket src (fun k => { k with checked := true })).writeHeader src 1))) ∧
  (∀ (s : State) (g f : Nat) (e : LkEntry), s.headMsg g f = some (.entry e) →
    (s.formeUp f = true → s.acceptCode f e = none → (s.platen f).intake.length < 32768 → exec (.lookupEntry g f) s =
      .next ((s.popStream g f).modPlaten f (fun p => { p with intake := p.intake ++ [e] }))) ∧
    (∀ c, s.formeUp f = true → s.acceptCode f e = some c → exec (.lookupEntry g f) s =
      .next ((s.popStream g f).settleEntry f e c none)) ∧
    (s.formeUp f = false → exec (.unitResetResponse g f) s = .next ((s.popStream g f).unitReset f e))) ∧
  (∀ (s : State) (g f n : Nat) (src : LkSrc), s.headMsg g f = some (.endMark src n) →
    (s.platen f).ends.any (fun x => x.src == src) = false → exec (.endMark g f) s =
      .next ((s.popStream g f).modPlaten f (fun p => { p with ends := p.ends ++ [⟨src, n, 0, true⟩] })))) ∧
  ((∀ (s : State) (g f : Nat) (e : LkEntry) (d : TableDesc) (st : LkStage),
    (s.platen f).intake.find? (fun x => lkStream x.src == g) = some e → tget s.tables e.table = some d → s.formeUp f = true →
    (s.platen f).paced = false → s.hasTokens f e.inst = true → (s.platen f).collect.length < 4096 →
    (∀ b, s.findBag f e.src e.bd.bag = some b → 0 < b.held) → (s.findBag f e.src e.bd.bag).isSome → d.rowFormat < 14 →
    firstStage d e = some st →
    exec (.entryAdmit g f) s = .next (((s.setPlaten f { s.platen f with
        intake := eraseFirst (fun x => x == e) (s.platen f).intake, admitTick := s.now,
        collectTick := if (s.platen f).collect.isEmpty then s.now else (s.platen f).collectTick }).modBag f e (fun b =>
          if b.held = 0 then { b with held := if e.bd.op = 4 then 0 else e.bd.elems,
                                      acc := List.replicate (if e.bd.op = 4 then 0 else e.bd.elems) PoolAcc.zero,
                                      shape := d.elems != e.bd.elems } else b)).modPlaten f (fun p => { p with
        collect := p.collect ++ [{ e with stage := st }],
        codebooks := p.codebooks.map (fun c => if c.table = e.table then { c with used := s.now } else c) }))) ∧
  (∀ (s : State) (f : Nat), 4096 ≤ (s.platen f).collect.length → (s.platen f).windows.length < 4 →
    exec (.windowClose f) s = .next (s.setPlaten f { s.platen f with
      windows := (s.platen f).windows ++ [⟨(s.platen f).nextWindow, (s.platen f).collect⟩], collect := [],
      nextWindow := (s.platen f).nextWindow + 1 })) ∧
  (∀ s : State, s.due .tokens = true → exec .tokenRefill s =
    .next ((s.mapPlatens (fun p => { p with buckets := tmap p.buckets (fun _ b => b.refill s.now) })).ran .tokens)) ∧
  (∀ s : State, s.due .sketch = true → exec .sketchHalving s = .next ((s.mapPlatens (fun p => { p with
    sketch := tkeep (tmap p.sketch (fun _ n => n / 2)) (fun _ n => n != 0) })).ran .sketch))) ∧
  ((∀ (s : State) (f w sheet : Nat) (win : Window) (e0 : LkEntry) (d : TableDesc),
    (s.platen f).windows.find? (fun x => x.id == w) = some win → win.entries.find? (fun e => s.waitsFor sheet e) = some e0 →
    tget s.tables e0.table = some d → s.formeUp f = true →
    ∀ (hit : Bool) (s1 u : State),
      s.windowRead f sheet e0.tagCtx d.owner (win.entries.any (fun e => s.waitsFor sheet e && !e.noAdmit)) = (hit, s1) →
      u = (match e0.src with | .sliver g _ _ _ => s1.tagCmd s g | .gather _ => s1) →
      (hit = true ∨ u.poisoned (256 * sheet) 256 = false) → exec (.sheetReadDone f w sheet) s =
      .next ((u.feed f sheet (some (mread u.mem (256 * sheet) 256)) hit win.entries).2.modPlaten f (fun p => { p with
        windows := p.windows.map (fun x => if x.id = w then
          { x with entries := (u.feed f sheet (some (mread u.mem (256 * sheet) 256)) hit win.entries).1 } else x) }))) ∧
  (∀ (s : State) (f w : Nat) (win : Window), (s.platen f).windows.find? (fun x => x.id == w) = some win →
    win.entries.all (fun e => e.stage == .settled) = true → f < 8 → ∃ s', exec (.windowComplete f w) s = .next s' ∧
      (s'.platen f).windows = (s.platen f).windows.filter (fun x => x.id != w) ∧ s'.mem = s.mem ∧ s'.galleys = s.galleys) ∧
  (∀ (s : State) (f bag : Nat) (src : LkSrc) (b : BagSt), s.findBag f src bag = some b →
    (s.platen f).ends.any (fun x => x.src == src && x.marked) = true → b.n + b.lost = b.bd.expected →
    ∃ s', exec (.bagSettle f src bag) s = .next s' ∧
      (s' = (s.writeBag b).modPlaten f (fun p => { p with
          bags := p.bags.filter (fun x => !bagAt src bag x), accUsed := p.accUsed - b.held }) ∨
       ∃ u, u = (s.writeBag b).modPlaten f (fun p => { p with
          bags := p.bags.filter (fun x => !bagAt src bag x), accUsed := p.accUsed - b.held }) ∧
        s' = (u.setPlaten f { u.platen f with ends := (u.platen f).ends.filter (fun x => x.src != src) }).modTicket src
          (fun k => { k with waiting := k.waiting.filter (fun x => x != f) }))) ∧
  (∀ (s : State) (src : LkSrc) (tk : Ticket), s.srcTicket src = some tk → tk.checked = true → tk.done = false → tk.waiting = [] →
    exec (.listComplete src) s = .next (((emptyBags src tk.list).foldl (fun s b => s.writeBag b) s).writeHeader src 0)) ∧
  (∀ (s : State) (f t : Nat) (d : TableDesc) (c : Codebook), tget s.tables t = some d → f < 8 →
    (s.platen f).codebooks.find? (fun c => c.table == t && !c.resident) = some c → s.formeUp f = true →
    d.flags.mirrored = false → (s.charge f d.owner (2 * d.elems)).poisoned (d.copyAddr false d.codebookBase) d.codebookLen = false →
    ∃ s' c', exec (.codebookLoadDone f t) s = .next s' ∧ c' ∈ (s'.platen f).codebooks ∧ c'.table = t ∧ c'.resident = true ∧
      c'.data = mread s.mem (d.copyAddr false d.codebookBase) d.codebookLen))

/-- R216: a bucket's RATE lies in 0 to 800,000 sheets per 100 µs and its DEPTH in RATE to 8 × RATE (or it is unlimited); at every boundary of 10,000 ticks
every bucket of every platen gains RATE tokens, clipped at DEPTH; its count is an integer that may be negative. -/
def Obligations.BucketRefill : Prop :=
  (∀ mask rate depth, mask ≠ 0 → rate ≠ 0xFFFFFFFF →
    (quotaFail 0 mask rate depth = none ↔ rate ≤ 800000 ∧ rate ≤ depth ∧ depth ≤ 8 * rate)) ∧
  (∀ s : State, 0 < s.now → s.now % 10000 = 0 → tget s.lastRun Periodic.tokens.key ≠ some s.now →
    exec .tokenRefill s = .next ((s.mapPlatens (fun p => { p with buckets := tmap p.buckets (fun _ b => b.refill s.now) })).ran .tokens)) ∧
  (∀ (b : Bucket) (now : Nat), b.newRate = none → b.limited = true →
    b.refill now = { b with count := min (b.count + (b.rate : Int)) (b.depth : Int) }) ∧
  (∃ b : Bucket, b.limited = true ∧ b.count < 0 ∧ (b.refill 0).count < 0)

/-- The insert path and ageing (R190 to R196): the head insert of a platen is placed, or completes with NO_TABLE (5) when its table
is gone; a quarantined slot 10 µs old that no window holds goes back to the free slots; a queued increment raises the
frequency of its entry; each 100 µs boundary of device time ages each table's share and moves its hand.

Mirror resynchronisation (R199, R202): with one granule left it ends, the other copy being in step; the last granule's end
makes the mirror IN_SYNC, and any other leaves it RESYNC with that granule clean.

Table life (R168, R173 to R178): TABLE_DEFINE of a well-formed image whose ranges are mapped and free starts with the table DEFINING;
its end makes the table LIVE with a generation one higher; TABLE_RETIRE of a live table makes it RETIRING, and its end
makes the ID FREE; TABLE_ADOPT gives an orphaned table its new owner and a new generation. -/
def Obligations.TableLife : Prop :=
  ((∀ (s : State) (f : Nat) (i : InsertReq) (rest : List InsertReq) (d : TableDesc), (s.platen f).inserts = i :: rest →
    s.Serves f i.table d → s.hasTokens f d.owner = true → i.record = none →
    ∀ s1 : State, s1 = ((s.modPlaten f (fun p => { p with inserts := rest })).placeHead i.table d i none).1 →
    (s1.quarantineOver d = false → exec (.insertPlace f) s = .next s1) ∧
    (s1.quarantineOver d = true → exec (.insertPlace f) s = .next s)) ∧
  (∀ (s : State) (f : Nat) (i : InsertReq) (rest : List InsertReq), (s.platen f).inserts = i :: rest → s.formeUp f = true →
    tget s.tables i.table = none → i.record = none →
    exec (.insertPlace f) s = .next (s.modPlaten f (fun p => { p with inserts := rest }))) ∧
  (∀ (s : State) (f : Nat) (y : QSlot) (d : TableDesc),
    (s.platen f).quarantine.find? (fun q => decide (q.tick + 1000 ≤ s.now) && q.windows.isEmpty) = some y →
    s.Serves f y.table d → d.state = .live → exec (.quarantineRelease f) s =
      .next ((s.setPlaten f { s.platen f with quarantine := eraseFirst (fun x => x == y) (s.platen f).quarantine }).pushFree
        y.table d y.slot)) ∧
  (∀ (s s1 : State) (f t v b k : Nat) (rest : List (Nat × Nat)) (d : TableDesc) (sh : BucketSheet),
    (s.platen f).freqQ = (t, v) :: rest → s.Serves f t d → d.state = .live →
    (s.setPlaten f { s.platen f with freqQ := rest }).findId d v = (some (b, k, sh), s1) →
    exec (.freqIncrement f) s = .next (s1.tableWrite t d (d.bucketAddr b)
      (encodeBucket (sh.set k { sh.get k with freq := min 0xFFFF ((sh.get k).freq + 2 ^ d.freqShift) })))) ∧
  (∀ s : State, s.due .clock = true → ∃ s', exec .clockAgeing s = .next s' ∧ tget s'.lastRun 2 = some s'.now) ∧
  (∀ (s : State), s.due .recent = true → exec .recentWriteRotate s = .next
    (State.ran { s with hbm := s.hbm.map (fun (x : StackSt) => { x with recent := [] :: x.recent.take 2 }) } .recent))) ∧
  (∀ (s : State) (t : Nat) (d : TableDesc), tget s.tables t = some d → d.dyn.mirrorState = .resync →
    (d.dyn.dirty = [] → exec (.mirrorResyncGranule t) s = .next (s.modDyn t (fun y => { y with mirrorState := .inSync }))) ∧
    (∀ g rest, d.dyn.dirty = g :: rest → s.formeUp d.dyn.staleStack = true →
      s.formeUp (if d.dyn.staleStack = d.home then d.mirrorStack else d.home) = true →
      ∃ s' d', exec (.mirrorResyncGranule t) s = .next s' ∧ tget s'.tables t = some d' ∧ d'.dyn.dirty = rest ∧
        d'.dyn.mirrorState = (if rest.isEmpty then .inSync else .resync) ∧ s'.galleys = s.galleys ∧ s'.queues = s.queues)) ∧
  ((∀ (s : State) (q : Nat) (x : QueueSt) (c : Cmd) (cx : CtxSt) (l : List Byte) (d : TableDesc),
    s.Starts q 0x50 x c → s.tableCmd = none → s.namedCtx x (field c.body 0x12 2) 0x12 = .ok cx → cx.state ≠ .lost →
    tget s.tables (field c.body 0x10 2) = none → s.kernelRead x.inst (field c.body 0x18 8) 128 = some l →
    tableImageOk l (field c.body 0x10 2) = true → (x.inst = 0 ∨ (tableOfImage l).owner = x.inst) →
    ((tableOfImage l).flags.mirrored = true → (tableOfImage l).mirrorStack ≠
      (match cx.leafAt (tableOfImage l).rowBase with | some (_, a) => stackOf a | none => 8)) →
    cx.tablePhys (tableOfImage l) = some d →
    (d.flags.mirrored = true → (d.areas.filter (·.2.2)).all (fun a => cx.tableMapped (d.copyAddr true a.1) a.2.1) = true) →
    ((s.kernelCharge x.inst (field c.body 0x18 8) 128).tagInst s x.inst q c.no).areasPlaced (field c.body 0x10 2) d = true →
    ∀ s1 : State, s1 = (s.kernelCharge x.inst (field c.body 0x18 8) 128).tagInst s x.inst q c.no →
    exec (.tableDefine q) s =
      .next (State.settle (State.begin_ { s1 with tables := tput s1.tables (field c.body 0x10 2) d } q c.no))) ∧
  (∀ (s : State) (t q : Nat) (d : TableDesc) (c : Cmd), s.Serves d.home t d → s.tableCmd = some (q, c) → d.state = .defining →
    c.op = 0x50 → field c.body 0x10 2 = t → d.flags.mirrored = false →
    ∃ u : State, exec (.tableDefineDone t) s = .next ((u.finish q c.no 0 0).settle) ∧
      (∃ d', tget u.tables t = some d' ∧ d'.state = .live ∧
        d'.dyn.generation = ((tget s.generations t).getD 0 + 1) % 2 ^ 32 ∧
        (d.flags.preloaded = false → d'.dyn.freeCount = 0 ∧ d'.dyn.liveCount = 0)) ∧
      (∀ k, k ≠ t → tget u.tables k = tget s.tables k) ∧ u.queues = s.queues ∧ u.ctxs = s.ctxs) ∧
  (∀ (s : State) (q : Nat) (x : QueueSt) (c : Cmd) (d : TableDesc), s.Starts q 0x51 x c → s.tableCmd = none →
    tget s.tables (field c.body 0x10 2) = some d → d.state = .live → x.inst = 0 →
    ∃ u : State, exec (.tableRetire q) s = .next ((u.begin_ q c.no).settle) ∧
      (∃ d', tget u.tables (field c.body 0x10 2) = some d' ∧ d' = { d with state := .retiring }) ∧ u.queues = s.queues) ∧
  (∀ (s : State) (t q : Nat) (d : TableDesc) (c : Cmd), tget s.tables t = some d → s.tableCmd = some (q, c) → d.state = .retiring →
    c.op = 0x51 → field c.body 0x10 2 = t → s.tableBusy t = false → (s.forme d.home).status = .inService →
    d.flags.mirrored = false →
    exec (.tableRetireDone t) s = .next (((s.freeTable t).finish q c.no 0 0).settle) ∧ tget (s.freeTable t).tables t = none) ∧
  (∀ (s : State) (q : Nat) (x : QueueSt) (c : Cmd) (d : TableDesc) (cx : CtxSt), s.Starts q 0x52 x c → s.tableCmd = none →
    tget s.ctxs (field c.body 0x14 2) = some cx → cx.state ≠ .lost → cx.inst = field c.body 0x12 1 →
    tget s.tables (field c.body 0x10 2) = some d → d.state = .orphaned →
    d.allAreas.all (fun a => cx.tableMapped a.1 a.2 && (rangePieces a.1 a.2).all (fun p => s.granted cx.inst p.1)) = true →
    s.tables.any (fun p => p.1 != field c.body 0x10 2 && areasMeet d.allAreas p.2.allAreas) = false →
    ∃ u : State, exec (.tableAdopt q) s = .next ((u.succeed q c.no 0).settle) ∧
      (∃ d', tget u.tables (field c.body 0x10 2) = some d' ∧ d'.owner = cx.inst ∧ d'.state = .live ∧
        d'.dyn.generation = ((tget s.generations (field c.body 0x10 2)).getD 0 + 1) % 2 ^ 32)))

/-- Applying update records (R249 to R254, R262): a record that is ready at its platen completes with the status that its
operation gives and the entry's version before it; one whose table is gone completes with NO_TABLE (5).

A record whose table has gone completes with NO_TABLE (5), whatever its operation. -/
def Obligations.UpdateRecords : Prop :=
  (∀ (s s1 : State) (n f st prior : Nat) (r : UpdRec) (d : TableDesc),
    tget s.tables r.table = some d → s1.quarantineOver d = false →
    ∀ t, t = (s1.modRec n (fun (r : UpdRec) => { r with result := some (prior * 256 + st) })).updSettle →
    (s.recReady n 0 = some (r, f) → s.applyWrite n r d (f != d.home) false = .done s1 st prior → exec (.write n) s = .next t) ∧
    (s.recReady n 1 = some (r, f) → s.applyWrite n r d (f != d.home) true = .done s1 st prior → exec (.writeInsert n) s = .next t) ∧
    (s.recReady n 2 = some (r, f) → s.applyDelete r d (f != d.home) = .done s1 st prior → exec (.delete n) s = .next t) ∧
    (s.recReady n 3 = some (r, f) → s.applyPin r d (f != d.home) true = .done s1 st prior → exec (.pin n) s = .next t) ∧
    (s.recReady n 4 = some (r, f) → s.applyPin r d (f != d.home) false = .done s1 st prior → exec (.unpin n) s = .next t) ∧
    (s.recReady n 5 = some (r, f) → s.applyRaw f r d (f != d.home) = .done s1 st prior → exec (.rawSheets n) s = .next t)) ∧
  (∀ (s : State) (n f op : Nat) (r : UpdRec) (c : Instr), s.recReady n op = some (r, f) → tget s.tables r.table = none →
    ((op = 0 ∧ c = .write n) ∨ (op = 1 ∧ c = .writeInsert n) ∨ (op = 2 ∧ c = .delete n) ∨ (op = 3 ∧ c = .pin n) ∨
     (op = 4 ∧ c = .unpin n) ∨ (op = 5 ∧ c = .rawSheets n)) →
    exec c s = .next ((s.modRec n (fun (r : UpdRec) => { r with result := some 5 })).updSettle))

/-- Results of records (R251 to R254, R267, R268): a missing row gives 2; a stale check gives 1 and writes nothing; a deletion or raw
write at a mirror gives 9; a raw write outside the table's areas gives 4; a write into a table with direct rows puts the
payload in its row and gives 0, or 8 where the row's sheet is poisoned.

The update front end (R244 to R248): UPDATE_ROWS queues its buffer and starts; a record is read from the ready buffer
or ring of its source, a PAD from its ring; registering a ring adds it empty, removing one marks it and starts; a poll
reads the producer count; an epoch fence waits for the records it names and then completes. -/
def Obligations.UpdateResults : Prop :=
  (∀ (s s1 : State) (n f : Nat) (r : UpdRec) (d : TableDesc) (m : Bool),
    (d.flags.dynamic = true → s.findEntry d m r.key = (.ok none, s1) → s.applyWrite n r d m false = .done s1 2 0 ∧
      s.applyPin r d m true = .done s1 2 0 ∧ s.applyPin r d m false = .done s1 2 0) ∧
    (∀ b k sh, d.flags.dynamic = true → s.findEntry d m r.key = (.ok (some (b, k, sh)), s1) → r.stale (sh.get k).ver = true →
      s.applyWrite n r d m false = .done s1 1 (sh.get k).ver ∧ s.applyWrite n r d m true = .done s1 1 (sh.get k).ver) ∧
    (∀ b k sh, d.flags.dynamic = true → s.findEntry d m r.key = (.ok (some (b, k, sh)), s1) → r.stale (sh.get k).ver = false →
      (sh.get k).slot < d.slots → s.applyPin r d m true =
        .done (s1.putEntry r.table d b k sh { sh.get k with pin := true }) 0 (sh.get k).ver) ∧
    s.applyDelete r d true = .done s 9 0 ∧ s.applyRaw f r d true = .done s 9 0 ∧
    (d.rawArea r.area = none → s.applyRaw f r d false = .done s 4 0) ∧
    (d.flags.dynamic = false → d.flags.mapped = false →
      (s.writeSlot r.table d m r.key r.payload = (true, s1) → s.applyWrite n r d m false = .done s1 0 0) ∧
      (s.writeSlot r.table d m r.key r.payload = (false, s1) → s.applyWrite n r d m false = .done s1 8 0))) ∧
  ((∀ (s : State) (q : Nat) (x : QueueSt) (c : Cmd) (b : UpdBuf), s.Starts q 0x53 x c →
    b = ⟨.cmd q c.no, x.inst, if x.kind = 0 then 4096 else x.ctx, field c.body 0x18 8, field c.body 0x10 4, 0,
      bit (field c.body 0x14 1) 0, [], 0, 0, none⟩ →
    exec (.updateRows q) s =
      .next (State.settle (State.begin_ { s with upd := { s.upd with bufs := s.upd.bufs ++ [b] } } q c.no))) ∧
  (∀ (s : State) (c k : Nat) (y : UpdRing), s.upd.recs.length < 65536 → s.readyRing c k = some y →
    exec (.updateRecord (.ring c k)) s = .next ((s.ringRecord c k y false).updSettle) ∧
    exec (.pad c k) s = .next ((s.ringRecord c k y true).updSettle)) ∧
  (∀ (s : State) (q no : Nat) (b : UpdBuf), s.upd.recs.length < 65536 → s.readyBuf (.cmd q no) = some b →
    exec (.updateRecord (.cmd q no)) s = .next ((s.bufRecord b).updSettle)) ∧
  (∀ (s : State) (q : Nat) (x : QueueSt) (c : Cmd) (cx : CtxSt) (key : Nat) (y : UpdRing), s.Starts q 0x55 x c →
    bit (field c.body 0x10 1) 7 = false → s.namedCtx x (field c.body 0x12 2) 0x12 = .ok cx → cx.state ≠ .lost →
    key = 4 * field c.body 0x12 2 + field c.body 0x10 1 % 4 → tget s.upd.rings key = none → s.upd.rings.length < 256 →
    y = { inst := cx.inst, log2 := field c.body 0x11 1, va := field c.body 0x18 8, ctrl := field c.body 0x20 8, prod := 0,
          next := 0, cons := 0, polled := s.now, stopped := false, removing := none } →
    exec (.updateRingRegister q) s =
      .next (State.settle (State.succeed { s with upd := { s.upd with rings := tput s.upd.rings key y } } q c.no 0))) ∧
  (∀ (s : State) (q : Nat) (x : QueueSt) (c : Cmd) (key : Nat) (y : UpdRing), s.Starts q 0x55 x c →
    bit (field c.body 0x10 1) 7 = true → key = 4 * field c.body 0x12 2 + field c.body 0x10 1 % 4 → tget s.upd.rings key = some y →
    x.mayTouch y.inst = true → y.removing = none →
    exec (.updateRingRemove q) s = .next (State.updSettle (State.settle (State.begin_ { s with upd := { s.upd with
      rings := tput s.upd.rings key { y with removing := some (q, c.no) } } } q c.no)))) ∧
  (∀ (s s1 : State) (c k : Nat) (y : UpdRing) (l : List Byte), tget s.upd.rings (4 * c + k) = some y → y.stopped = false →
    y.removing = none → s.ctxLive c = true → (s.inst y.inst).state ≠ .frozen → s.ctxRead c y.ctrl 8 = (.ok l, s1) →
    y.cons ≤ leNat l → leNat l - y.cons ≤ 2 ^ y.log2 →
    exec (.updateRingPoll c k) s = .next { s1 with upd := { s1.upd with
      rings := tput s1.upd.rings (4 * c + k) { y with prod := leNat l, polled := s1.now } } }) ∧
  (∀ (s : State) (q : Nat) (x : QueueSt) (c : Cmd), s.Starts q 0x54 x c → s.upd.bufs = [] → bit (field c.body 0x10 1) 0 = false →
    exec (.epochFence q) s = .next (State.settle (State.begin_ { s with upd := { s.upd with fences := s.upd.fences ++
      [⟨q, c.no, (s.upd.recs.filter (fun p => p.2.inst == x.inst && p.2.result.isNone)).map (·.1), []⟩] } } q c.no))) ∧
  (∀ (s : State) (q no : Nat) (f : EpFence), s.upd.fences.find? (fun f => f.queue == q && f.no == no) = some f →
    f.inserts = [] → (∀ n r, n ∈ f.recs → tget s.upd.recs n = some r → r.result.isSome) →
    exec (.epochFenceDone q no) s = .next (State.settle (State.finish { s with upd := { s.upd with
      fences := s.upd.fences.filter (fun g => !(g.queue == q && g.no == no)) } } q no 0 0))))

/-- Scrubbing, retirement and housekeeping of the stacks (R286 to R292): the patrol reads one sheet, four groups, and moves on; a
retired frame is remapped to its spare and leaves the list to retire; a row of the remap list goes to flash; the tracker
is emptied each day; a write queue that is long or old drains its oldest 64 sheets; a refresh resets the activity count.

Temperature, training and self-refresh (R292 to R299): a stack's temperature is stored with its band, and a band entered above 0
records the event of that band; training values are recorded each 100 ms; a stack whose training passes comes into
service; one that fails is failed; a warm start with good records restores it without training; contents are zeroed at a
start; a stack 100 µs in entry to self-refresh loses its content. -/
def Obligations.StackCommands : Prop :=
  ((∀ (s : State) (f : Nat), f < 8 → (s.stack f).state = .inService → ∀ sh, sh = (if (s.stack f).lastSheet ≤ (s.stack f).scrubAt then 0
      else (s.stack f).scrubAt) → exec (.scrubStep f) s = .next (((List.range 4).foldl (fun s i =>
        s.patrolGroup f (f * 2 ^ 30 + 4 * sh + i)) (s.modStack f (fun x => { x with scrubAt := sh + 1, scrubTick := s.now }))).settle)) ∧
  (∀ (s : State) (f : Nat) (r : Retire), f < 8 → (s.stack f).retiring = some r → (s.stack f).state = .inService →
    (s.stack f).errors = [] → ∃ u : State, exec (.frameRetireDone f) s = .next ((u.nextRetire f).settle) ∧
      tget (u.stack f).remap r.frame = some r.overs ∧ (u.stack f).retiring = none ∧ u.mem = s.mem) ∧
  (∀ (s : State) (f fr ov t0 : Nat) (rest : List (Nat × Nat × Nat)), f < 8 → (s.stack f).toFlash = (fr, ov, t0) :: rest →
    s.bnd.store.fault = false → s.up = true → ∃ s', exec (.flashListAppend f) s = .next s' ∧ (s'.stack f).toFlash = rest ∧
      tget (s'.stack f).flashList fr = some ov) ∧
  (∀ s : State, s.due .trackerClear = true → exec .ceTrackerClear s =
    .next { s.ran .trackerClear with hbm := s.hbm.map (fun (x : StackSt) => { x with tracker := [] }) }) ∧
  (∀ (s : State) (f pc : Nat) (l : List QWrite), tget (s.stack f).wq pc = some l → 32 ≤ l.length → exec (.writeQueueTurn f pc) s =
    .next (s.modStack f (fun x => { x with wq := if l.length ≤ 64 then tdel x.wq pc else tput x.wq pc (l.drop 64) }))) ∧
  (∀ (s : State) (f : Nat), (s.stack f).state = .inService → exec (.refresh f) s =
    .next (s.modStack f (fun x => { x with refreshTick := s.now, activity := 0 })))) ∧
  ((∀ (s : State) (f temp : Nat), f < 8 → (s.stack f).tempTick = 0 → ∀ b, b = tempBand (s.stack f).band temp →
    ((b = (s.stack f).band ∨ b = 0) → exec (.stackTempRead f temp) s =
      .next (s.modStack f (fun x => { x with temp := temp, band := b, tempTick := s.now }))) ∧
    (b ≠ (s.stack f).band → b ≠ 0 → exec (.stackTempRead f temp) s =
      .next ((s.modStack f (fun x => { x with temp := temp, band := b, tempTick := s.now })).fault
        { stackRecord f (0xD000 + b) 0 none with info0 := f, info1 := temp } []))) ∧
  (∀ (s : State) (f v : Nat), (s.stack f).state = .inService → (s.stack f).trainTick + 10000000 ≤ s.now →
    exec (.trainingRecordWrite f v) s = .next (s.modStack f (fun x => x.writeTraining v s.now))) ∧
  (∀ (s : State) (f v : Nat), f < 8 → (s.stack f).state = .training →
    (s.starting = true → exec (.fullTrainingDone f v none) s =
      .next (((s.modStack f (fun x => x.writeTraining v s.now)).stackReady f).settle)) ∧
    (∀ p, exec (.fullTrainingDone f v (some p)) s = .next ((s.stackFailed f p).settle))) ∧
  (∀ (s : State) (f : Nat), f < 8 → (s.stack f).state = .selfRefresh → s.starting = true →
    exec (.warmRestoreDone f true true true) s =
      .next (((s.modStack f (fun x => { x with entering := none })).stackReady f).settle) ∧
    ∃ s', exec (.warmRestoreDone f true true false) s = .next s' ∧ (s'.stack f).state = .training) ∧
  (∀ (s : State) (f : Nat), f < 8 → s.starting = true → ∃ s', exec (.zeroFillDone f) s = .next s' ∧
    (∀ a, f * 2 ^ 36 ≤ a → a < (f + 1) * 2 ^ 36 → mget s'.mem a = 0) ∧
    (∀ a, (a < f * 2 ^ 36 ∨ (f + 1) * 2 ^ 36 ≤ a) → mget s'.mem a = mget s.mem a) ∧ tget s'.lostMem f = none ∧
    (s'.stack f).errors = []) ∧
  (∀ (s : State) (f t : Nat), (s.stack f).entering = some t → (s.stack f).state = .selfRefresh → t + 10000 ≤ s.now →
    exec (.selfRefreshTimeout f) s = .next (s.modStack f (fun x => { x with lost := true, entering := none }))))

/-- Error correction (R283, R284): a clean group leaves memory as the reader saw it; decoding clears the group's raw error;
an uncorrectable one poisons the group; a write that covers a group whole clears its poison. -/
def Obligations.ErrorDecoding : Prop :=
  (∀ (s : State) (g : Nat), tget (s.stack (g / 2 ^ 30)).errors g = none → s.decodeGroup g = s) ∧
  (∀ (s : State) (g : Nat) (e : List (Nat × Nat)), g / 2 ^ 30 < 8 → tget (s.stack (g / 2 ^ 30)).errors g = some e →
    eccDecode e = .uncorrectable → g ∈ (s.decodeGroup g).poison ∧ tget ((s.decodeGroup g).stack (g / 2 ^ 30)).errors g = none) ∧
  (∀ (s : State) (g : Nat), g ∉ (s.heal (64 * g) 64).poison)

/-- Device memory (08_memory.md; 06_platens.md R234): a write with no error or poison in its end groups puts exactly its bytes, and
every other byte reads as before. -/
def Obligations.DeviceWriteFrame : Prop :=
  ∀ (s : State) (a : Nat) (l : List Byte) (keep : Bool), memWf s.mem = true → (∀ f, (s.stack f).errors = []) →
    (∀ g, s.groupBad g = false) →
    (∀ b, b < a ∨ a + l.length ≤ b → mget (s.devWrite a l keep).mem b = mget s.mem b) ∧
    (∀ i, i < l.length → mget (s.devWrite a l keep).mem (a + i) = (l[i]?).getD 0) ∧
    memWf (s.devWrite a l keep).mem = true

/-- Commands of the serving unit (R305 to R312): STEP_CONFIG in its ranges keeps its enable set and periods; removing a model that
no sequence uses frees its slot; SEQ_OPEN of a state-free sequence takes the first free place of its domain; SEQ_SIGNAL
answers each record in turn; closing a sequence that is not running frees it, and one in a running batch closes when
its batch retires; SEQ_QUERY writes one block for each place. -/
def Obligations.ServingCommands : Prop :=
  (∀ (s : State) (q : Nat) (x : QueueSt) (c : Cmd), s.Starts q 0x5D x c → field c.body 0x10 1 < 2 ^ s.domains →
    50000 ≤ field c.body 0x14 4 → field c.body 0x14 4 ≤ 5000000 → 100000 ≤ field c.body 0x18 4 → field c.body 0x18 4 ≤ 10000000 →
    ∃ g : StepCfg, exec (.stepConfig q) s = .next (State.settle (State.succeed (s.modServe (fun v => { v with cfg := g })) q c.no 0)) ∧
      g.enable = field c.body 0x10 1 ∧ g.proofPeriod = field c.body 0x18 4 ∧
      (g.period = field c.body 0x14 4 ∨ ∃ k t, g.newPeriod = some (field c.body 0x14 4, k, t))) ∧
  (∀ (s : State) (q : Nat) (x : QueueSt) (c : Cmd), s.Starts q 0x5D x c →
    (field c.body 0x14 4 < 50000 ∨ 5000000 < field c.body 0x14 4) →
    exec (.stepConfig q) s = .next (State.settle (s.refuse q c.no 0x48 0))) ∧
  (∀ (s : State) (q : Nat) (x : QueueSt) (c : Cmd) (m : StepModel), s.Starts q 0x58 x c → bit (field c.body 0x11 1) 0 = true →
    tget s.serve.models (field c.body 0x10 1) = some m → (∀ cx, tget s.ctxs m.ctx = some cx → x.mayTouch cx.inst = true) →
    s.serve.seqs.any (fun p => p.2.model == field c.body 0x10 1) = false →
    exec (.stepModel q) s = .next (State.settle (State.succeed (s.modServe (fun v =>
      { v with models := tdel v.models (field c.body 0x10 1) })) q c.no 0))) ∧
  (∀ (s : State) (q i : Nat) (x : QueueSt) (c : Cmd) (m : StepModel) (cx : CtxSt), s.Starts q 0x59 x c →
    tget s.serve.models (field c.body 0x10 1) = some m → tget s.ctxs x.ctx = some cx → m.ctx = x.ctx →
    100 ≤ field c.body 0x18 4 → field c.body 0x18 4 ≤ 100000000 → field c.body 0x1C 4 = 0 → field c.body 0x20 8 = 0 →
    bit (field c.body 0x11 1) 1 = false → s.overQuota x.inst 6 1 = false →
    (s.domainSlices cx.domain).findSome? s.freePos = some i →
    ∃ s' e, exec (.seqOpen q) s = .next (State.settle (State.succeed s' q c.no i)) ∧ tget s'.serve.seqs i = some e ∧
      e.st = .idle ∧ e.ctx = x.ctx ∧ e.model = field c.body 0x10 1 ∧ e.deadlineRel = field c.body 0x18 4 ∧ e.steps = 0 ∧
      e.stateBytes = 0 ∧ s'.queues = s.queues ∧ s'.ctxs = s.ctxs) ∧
  (∀ (s : State) (q : Nat) (x : QueueSt) (c : Cmd), s.Starts q 0x5A x c →
    ((field c.body 0x10 4 = 0 ∨ 65536 < field c.body 0x10 4) →
      exec (.seqSignal q) s = .next (State.settle (s.refuse q c.no 0x48 0))) ∧
    (∀ (l : List Byte) (s1 s2 : State) (r : List Byte × Nat × State), 1 ≤ field c.body 0x10 4 → field c.body 0x10 4 ≤ 65536 →
      s.ctxRead x.ctx (field c.body 0x18 8) (16 * field c.body 0x10 4) = (.ok l, s1) →
      r = (List.range (field c.body 0x10 4)).foldl (fun (r : List Byte × Nat × State) k =>
        let o := r.2.2.signalOne x.ctx ((l.drop (16 * k)).take 16)
        (r.1 ++ ((l.drop (16 * k)).take 16).take 3 ++ toLE 1 o.1 ++ ((l.drop (16 * k)).take 16).drop 4,
         r.2.1 + (if o.1 = 0 then 0 else 1), o.2)) ([], 0, s1) →
      r.2.2.ctxWrite x.ctx (field c.body 0x18 8) r.1 = (none, s2) →
      exec (.seqSignal q) s = .next (State.settle ((s2.tagInst s x.inst q c.no).succeed q c.no r.2.1)))) ∧
  (∀ (s : State) (q : Nat) (x : QueueSt) (c : Cmd) (e : SeqEntry), s.Starts q 0x5B x c →
    tget s.serve.seqs (field c.body 0x10 4) = some e → e.ctx = x.ctx →
    (e.st = .running → exec (.seqClose q) s = .next (State.settle (State.succeed
      (s.modSeq (field c.body 0x10 4) (fun e => { e with st := .closing })) q c.no 0))) ∧
    (e.st ≠ .running → e.st ≠ .closing → exec (.seqClose q) s = .next (State.settle (State.succeed
      (s.freeSeq (field c.body 0x10 4)) q c.no 0)))) ∧
  (∀ (s s1 : State) (q : Nat) (x : QueueSt) (c : Cmd), s.Starts q 0x5C x c → 1 ≤ field c.body 0x14 2 → field c.body 0x14 2 ≤ 256 →
    field c.body 0x10 4 + field c.body 0x14 2 ≤ 2 ^ 18 →
    s.ctxWrite x.ctx (field c.body 0x18 8) ((List.range (field c.body 0x14 2)).flatMap (fun j =>
      match tget s.serve.seqs (field c.body 0x10 4 + j) with
      | some e => if e.ctx = x.ctx then e.bytes true else toLE 128 0
      | none => toLE 128 0)) = (none, s1) →
    exec (.seqQuery q) s = .next (State.settle ((s1.tagInst s x.inst q c.no).succeed q c.no (field c.body 0x14 2))))

/-- Building and retiring batches (R313 to R329): a step is built once for a step index; a report of a batch that is done only
leaves the queue of reports; one of a model without draft mode is answered; a batch that is done is retired and its members
leave it; a closing member's place is free.

Sequence proofs (R331 to R333, R498 to R500): a proof round of a slice whose proof stack is down records a missed proof and proves
nothing; a lost slice whose proof stack serves is restored and served from its proof while its own stack is down; its
write-back ends once its stack serves. -/
def Obligations.BatchesAndProofs : Prop :=
  ((∀ (s : State) (d k : Nat), (s.serve.cfg.norm s.now).stepAt d s.now = some k → s.up = true → d < s.domains →
    bit (s.serve.cfg.norm s.now).enable d = true → tget (s.serve.cfg.norm s.now).built d ≠ some k →
    (s.domainSlices d).any s.formeUp = true → s.serve.models = [] →
    ∃ u : State, exec (.stepBuild d) s = .next u.settle ∧ tget u.serve.cfg.built d = some k ∧
      (∀ i e, tget s.serve.seqs i = some e → e.periodic = false → tget u.serve.seqs i = some e) ∧ u.mem = s.mem ∧ u.steps = s.steps) ∧
  (∀ (s : State) (d k : Nat), (s.serve.cfg.norm s.now).stepAt d s.now = some k → tget (s.serve.cfg.norm s.now).built d = some k →
    exec (.stepBuild d) s = .next s) ∧
  (∀ (s : State) (g k : Nat) (b : Batch), s.serve.batches.find? (fun p => p.2.fwd.contains g) = some (k, b) →
    (b.done.isSome → exec (.dlmReport g) s = .next (s.modServe (fun v => { v with batches := tput v.batches k { b with fwd := b.fwd.erase g } }))) ∧
    (b.done = none → b.conf.dlmMode = 0 → tget b.reports g = none → ∀ b' : Batch,
      b' = { b with fwd := b.fwd.erase g, reports := tput b.reports g (mload (s.galley g).store b.conf.mbox 2) } →
      exec (.dlmReport g) s = .next ((s.modServe (fun v => { v with batches := tput v.batches k b' })).writeVerdict g b'))) ∧
  (∀ (s : State) (k t status : Nat) (b : Batch), tget s.serve.batches k = some b → b.done = some (status, t) → status ≠ 0 →
    ∃ s', exec (.batchRetire k) s = .next s' ∧ tget s'.serve.batches k = none ∧ s'.mem = s.mem ∧ s'.queues = s.queues) ∧
  (∀ (s : State) (k t status i : Nat) (b : Batch) (e : SeqEntry), tget s.serve.batches k = some b → b.done = some (status, t) →
    status ≠ 0 → b.members = [i] → tget s.serve.seqs i = some e → e.st = .closing →
    ∃ s', exec (.batchRetire k) s = .next s' ∧ tget s'.serve.seqs i = none)) ∧
  ((∀ (s : State) (v : Nat), s.up = true → v < 8 → s.now / s.serve.cfg.proofPeriod * s.serve.cfg.proofPeriod ≠ 0 →
    tget s.serve.lastRound v ≠ some (s.now / s.serve.cfg.proofPeriod * s.serve.cfg.proofPeriod) →
    s.serve.fromProof.contains v = false → s.serve.lost.contains v = false → s.formeUp (s.proofStack v) = false →
    ∃ u : State, exec (.proofRound v) s = .next (State.settle (u.fault
        { faultOf 0x500B with unitType := 0x05, logical := v, phys := v, info0 := v, info1 := s.serve.rounds + 1 } [])) ∧ u.serve.proofs = s.serve.proofs ∧
      u.serve.rounds = s.serve.rounds + 1) ∧
  (∀ (s : State) (v : Nat), s.up = true → v < 8 → s.now / s.serve.cfg.proofPeriod * s.serve.cfg.proofPeriod ≠ 0 →
    tget s.serve.lastRound v ≠ some (s.now / s.serve.cfg.proofPeriod * s.serve.cfg.proofPeriod) →
    (s.serve.lost.contains v = true ∨ s.serve.fromProof.contains v = true) →
    ∃ s', exec (.proofRound v) s = .next s' ∧ s'.serve.rounds = s.serve.rounds + 1 ∧ s'.serve.proofs = s.serve.proofs ∧
      s'.mem = s.mem) ∧
  (∀ (s : State) (v : Nat) (bad : List Nat), s.serve.lost.contains v = true → s.formeUp (s.proofStack v) = true →
    ∃ u : State, exec (.sliceRestore v bad) s = .next u.settle) ∧
  (∀ (s : State) (v : Nat), s.serve.lost.contains v = true → s.formeUp (s.proofStack v) = true → s.serve.proofs = [] →
    ∃ u : State, exec (.sliceRestore v []) s = .next u.settle ∧ u.serve.lost = s.serve.lost.erase v ∧
      (∀ i, sliceOf i = v → tget u.serve.seqs i = none) ∧ (s.formeUp v = false → v ∈ u.serve.fromProof)) ∧
  (∀ (s : State) (v : Nat), s.serve.writeBack.contains v = true → s.formeUp v = true → exec (.sliceWriteBack v) s =
    .next (s.modServe (fun x => { x with writeBack := x.writeBack.erase v }))))

/-- R344 to R347: a command that names a fence it may not name is refused with the fence's status, whatever its opcode; a command
that cannot start changes nothing.

R350 to R359, Table 10-4: NOP succeeds; LAUNCH is taken up; WAIT_VALUE reads and a wait is read again when its time has come;
WRITE_VALUE writes 8 bytes and wakes its waiters; FENCE_RESET clears the fence; QUERY writes its block; SEAL_PROGRAM is taken up;
UNSEAL removes the handle. -/
def Obligations.QueueCommands : Prop :=
  ((∀ (s : State) (q : Nat) (x : QueueSt) (c : Cmd) (st d : Nat), s.startable q 0x00 = some (x, c) → s.fenceRefusal x c = some (st, d) →
    exec (.nop q) s = .next (State.settle (s.refuse q c.no st d))) ∧
  (∀ (s : State) (q : Nat), s.startable q 0x00 = none → exec (.nop q) s = .next s) ∧
  (∀ (s : State) (q op : Nat) (x : QueueSt) (c : Cmd), s.startable q op = some (x, c) → s.up = true ∧ s.instRuns x.inst = true ∧
    x.flush = none ∧ x.wait = none ∧ c.op = op ∧ tget s.queues q = some x)) ∧
  (∀ (s : State) (q : Nat) (x : QueueSt) (c : Cmd),
    (s.Starts q 0x00 x c → exec (.nop q) s = .next (State.settle (s.succeed q c.no 0))) ∧
    (s.Starts q 0x01 x c → exec (.launch q) s = .next (State.settle (s.launch q x c))) ∧
    (s.Starts q 0x02 x c → exec (.waitValue q) s = .next (State.settle (s.readWait q x c s.now 100))) ∧
    (∀ w, tget s.queues q = some x → x.wait = some w → x.cmd w.no = some c → w.next ≤ s.now → s.up = true →
      exec (.waitValueReread q) s = .next ((s.readWait q x c w.tick (min 5000 (2 * w.gap))).settle)) ∧
    (∀ s1, s.Starts q 0x03 x c → s.queueWrite x (field c.body 0x10 8) (toLE 8 (field c.body 0x18 8)) = (none, s1) →
      exec (.writeValue q) s = .next (State.settle (State.succeed ((s1.tagInst s x.inst q c.no).wake
        (s1.transQueue x (field c.body 0x10 8))) q c.no 0))) ∧
    (∀ f, s.Starts q 0x04 x c → tget s.fences (field c.body 0x10 2 % 8192) = some f →
      (x.kind = 0 → x.mayTouch f.inst = true) → (x.kind ≠ 0 → f.ctx = x.ctx) →
      exec (.fenceReset q) s = .next (State.settle (State.succeed { s with
        fences := tput s.fences (field c.body 0x10 2 % 8192) { f with signalled := false } } q c.no 0))) ∧
    (∀ l s1, s.Starts q 0x05 x c → s.queryBlock x c = .ok l →
      State.queueWrite { s with fresh := s.fresh + 8 } x (field c.body 0x18 8) l = (none, s1) →
      exec (.query q) s = .next (State.settle ((s1.tagInst s x.inst q c.no).succeed q c.no l.length))) ∧
    (s.Starts q 0x10 x c → exec (.sealProgram q) s = .next (State.settle (s.sealProgram q x c))) ∧
    (∀ e cx, s.Starts q 0x11 x c → tget s.seals (field c.body 0x10 2 % 4096) = some e → s.namedCtx x e.ctx 0x10 = .ok cx →
      exec (.unseal q) s = .next (State.settle (State.succeed { s with seals := tdel s.seals (field c.body 0x10 2 % 4096) } q c.no 0))))

/-- Address mapping (R348, R349): MAP enters its pages and raises the context's generation; UNMAP and MAP_ATTR do the same
for the pages that leave or change; a mapping that fails its checks is refused and maps nothing. -/
def Obligations.AddressMapping : Prop :=
  ∀ (s : State) (q cid ps attr n va pa : Nat) (x : QueueSt) (c : Cmd) (cx : CtxSt), cid = field c.body 0x10 2 → ps = field c.body 0x12 1 →
    attr = field c.body 0x13 1 → n = field c.body 0x14 4 → va = field c.body 0x18 8 → pa = field c.body 0x20 8 →
    s.namedCtx x cid 0x10 = .ok cx →
    (s.Starts q 0x18 x c →
      (∀ st d, s.mapFail x cid cx ps attr n va pa = some (st, d) → exec (.map q) s = .next (State.settle (s.refuse q c.no st d))) ∧
      (∀ u : State, s.mapFail x cid cx ps attr n va pa = none →
        u = (if bit attr 3 then s else s.countPages pa (n * psizeBytes ps) true (bit attr 2)) →
        exec (.map q) s = .next (State.settle (State.succeed ((u.modCtx cid (fun y =>
          { (y.withLeaves ps attr n va pa s.inHdm) with gen := (y.gen + 1) % 2 ^ 32 })).friskChanged cx.inst) q c.no 0)))) ∧
    (s.Starts q 0x19 x c →
      (∀ i, cx.leavesAt ps n va = .error i → exec (.unmap q) s = .next (State.settle (s.refuse q c.no 0x34 i))) ∧
      (∀ ls, cx.leavesAt ps n va = .ok ls → cx.frameHeld va (n * psizeBytes ps) = false →
        ls.any (fun l => !l.host && s.tableIn l.target (psizeBytes ps)) = false →
        exec (.unmap q) s = .next (State.settle (State.succeed ((s.dropLeaves cid (cx.leaves.filter (fun p =>
          decide (va / 65536 ≤ p.1) && decide (p.1 < (va + n * psizeBytes ps) / 65536)))).friskChanged cx.inst) q c.no 0)))) ∧
    (s.Starts q 0x1A x c →
      (attr % 4 = 0 → exec (.mapAttr q) s = .next (State.settle (s.refuse q c.no 0x33 0))) ∧
      (∀ l, attr % 4 ≠ 0 → n = 1 → cx.leavesAt ps n va = .ok [l] → l.host = true → bit attr 3 = true → bit attr 2 = false →
        l.table = false → cx.frameHeld va (n * psizeBytes ps) = false →
        exec (.mapAttr q) s = .next (State.settle (State.succeed ((s.modCtx cid (fun y => { y with
          gen := (y.gen + 1) % 2 ^ 32,
          leaves := tmap y.leaves (fun k l =>
            if va / 65536 ≤ k ∧ k < (va + n * psizeBytes ps) / 65536 then { l with table := false, w := bit attr 1, r := bit attr 0 } else l)
          })).friskChanged cx.inst) q c.no 0))))

/-- Contexts, queues, fences and quotas (R335, R358, R362, R366, R368, R372, R390): CTX_CREATE takes the ID that it names or the lowest free one and writes the
context's record; CTX_DESTROY of a context with no queue or fence frees it; QUEUE_CREATE of a kernel queue adds it
empty; QUEUE_DESTROY and QUEUE_FLUSH start a flush of the named queue; FENCE_CREATE adds a fence that is not signalled,
FENCE_DESTROY removes one; QUOTA_SET sets an ENABLED instance's limit. -/
def Obligations.ObjectCommands : Prop :=
  ∀ (s : State) (q : Nat) (x : QueueSt) (c : Cmd),
    (∀ cid dom pa, s.Starts q 0x20 x c → dom = field c.body 0x12 1 → pa = field c.body 0x18 8 →
      pickId s.ctxs 4096 (field c.body 0x10 2 % 4096) 0x10 (bit (field c.body 0x10 2) 15) = .ok cid → s.overQuota x.inst 2 1 = false →
      contextByte pa = true → pa < 2 ^ 39 → (s.grantOf pa).map (·.1) = some x.inst → s.domainOf (stackOf pa) = dom →
      (List.range (8 / s.domains)).any (fun k => s.formeAllowed x.inst (dom * (8 / s.domains) + k)) = true →
      s.recordIn pa 65536 = false → s.ctxs = [] → s.formeUp (stackOf pa) = true →
      ∃ (u : State) (y : CtxSt), exec (.ctxCreate q) s = .next (State.settle (State.succeed (State.writeRecord u cid) q c.no cid)) ∧
        tget u.ctxs cid = some y ∧ y.inst = x.inst ∧ y.state = .idle ∧ y.domain = dom ∧ y.recordPA = pa ∧ y.leaves = [] ∧
        y.gen = 0 ∧ u.queues = s.queues) ∧
    (∀ cid cx, s.Starts q 0x21 x c → cid = field c.body 0x10 2 → s.namedCtx x cid 0x10 = .ok cx →
      (s.queues.any (fun p => p.2.kind != 0 && p.2.ctx == cid) = true →
        exec (.ctxDestroy q) s = .next (State.settle (s.refuse q c.no 0x17 0x10))) ∧
      (s.queues.any (fun p => p.2.kind != 0 && p.2.ctx == cid) = false → s.fences.any (fun p => p.2.ctx == cid) = false →
        cx.state ≠ .resident → exec (.ctxDestroy q) s = .next (State.settle ((s.freeCtx cid).succeed q c.no 0)))) ∧
    (∀ id, s.Starts q 0x24 x c → field c.body 0x12 1 = 0 → s.pickQueue x.inst 0 (field c.body 0x10 2) (bit (field c.body 0x36 2) 0) = .ok id →
      ∃ y, exec (.queueCreate q) s = .next (State.settle (State.succeed { s with queues := tput s.queues id y } q c.no id)) ∧
        y.kind = 0 ∧ y.inst = x.inst ∧ y.cmds = [] ∧ y.sqLog2 = field c.body 0x13 1 ∧ y.sqVA = field c.body 0x18 8 ∧
        y.cqVA = field c.body 0x20 8) ∧
    (∀ id y, s.Starts q 0x25 x c → id = field c.body 0x10 2 → s.namedQueue x id 0x10 = .ok y →
      exec (.queueDestroy q) s = .next (State.settle ((s.begin_ q c.no).applyFlush id [(q, c.no)] true))) ∧
    (∀ id y, s.Starts q 0x27 x c → id = field c.body 0x10 2 → s.namedQueue x id 0x10 = .ok y →
      exec (.queueFlush q) s = .next (State.settle ((s.begin_ q c.no).applyFlush id [(q, c.no)] false))) ∧
    (∀ id y cx, s.Starts q 0x26 x c → id = field c.body 0x10 2 → s.namedQueue x id 0x10 = .ok y → y.kind ≠ 0 →
      tget s.ctxs y.ctx = some cx → s.galleysOk y.inst cx.domain (maskGalleys (field c.body 0x18 8)) = true →
      tget s.queues id = some y →
      ∃ (u : State) (y' : QueueSt), exec (.queueBind q) s = .next (State.settle (u.succeed q c.no 0)) ∧ tget u.queues id = some y' ∧
        y'.ranks = maskGalleys (field c.body 0x18 8) ∧ y'.cmds.length = y.cmds.length ∧ u.ctxs = s.ctxs) ∧
    (∀ id cx f, s.Starts q 0x28 x c → s.namedCtx x (field c.body 0x12 2) 0x12 = .ok cx → badVector cx.inst (field c.body 0x14 2) = false →
      pickId s.fences 8192 (field c.body 0x10 2 % 8192) 0x10 (bit (field c.body 0x10 2) 15) = .ok id → s.overQuota cx.inst 5 1 = false →
      f = ⟨field c.body 0x12 2, cx.inst, field c.body 0x18 8, field c.body 0x14 2, false, 0⟩ →
      exec (.fenceCreate q) s = .next (State.settle (State.succeed { s with fences := tput s.fences id f } q c.no id))) ∧
    (∀ f cx, s.Starts q 0x29 x c → tget s.fences (field c.body 0x10 2) = some f → s.namedCtx x f.ctx 0x10 = .ok cx →
      exec (.fenceDestroy q) s = .next (State.settle (State.succeed { s with fences := tdel s.fences (field c.body 0x10 2) } q c.no 0))) ∧
    (s.Starts q 0x30 x c → quotaFail (field c.body 0x10 1) (field c.body 0x12 1) (field c.body 0x18 8) (field c.body 0x20 8) = none →
      (s.inst (field c.body 0x11 1)).state = .enabled → exec (.quotaSet q) s = .next (State.settle ((s.setQuota (field c.body 0x10 1)
        (field c.body 0x11 1) (field c.body 0x12 1) (field c.body 0x18 8) (field c.body 0x20 8)).succeed q c.no 0)))

/-- RESET (R487, Table 14-8): each scope starts its reset on the target; a galley that is retired, or an instance that is OFF, is
refused with OBJ_STATE. -/
def Obligations.ResetCommand : Prop :=
  ∀ (s : State) (q : Nat) (x : QueueSt) (c : Cmd), s.Starts q 0x38 x c →
    (∀ cx, subIs 0 c = true → s.namedCtx x (cmdTarget c) 0x12 = .ok cx → exec (.resetContext q) s = .next (State.settle ((s.loseContext
      (cmdTarget c) { faultOf 0x4002 with unitType := 0x07, queue := some q, info0 := q } none).succeed q c.no 0))) ∧
    (∀ y, subIs 1 c = true → s.namedQueue x (cmdTarget c) 0x12 = .ok y → exec (.resetQueue q) s = .next (State.settle
      (((s.begin_ q c.no).applyFlush (cmdTarget c) [(q, c.no)] false).modQueue (cmdTarget c) (fun y => { y with wdog := 0 })))) ∧
    (subIs 2 c = true → (s.inst (cmdTarget c)).state ≠ .off → exec (.resetInstance q) s =
      .next (State.settle ((s.begin_ q c.no).resetInstance (cmdTarget c) [(q, c.no)] true false))) ∧
    (subIs 2 c = true → (s.inst (cmdTarget c)).state = .off → exec (.resetInstance q) s =
      .next (State.settle (s.refuse q c.no 0x17 0x12))) ∧
    (subIs 3 c = true → s.fm.retired.contains (cmdTarget c) = false → (s.forme (formeOf (cmdTarget c))).status = .inService →
      exec (.resetGalley q) s = .next (State.settle ((s.begin_ q c.no).levelTwo (cmdTarget c) (faultOf 0) [(q, c.no)] true))) ∧
    (subIs 3 c = true → s.fm.retired.contains (cmdTarget c) = true → exec (.resetGalley q) s =
      .next (State.settle (s.refuse q c.no 0x17 0x12))) ∧
    (subIs 4 c = true → (s.forme (cmdTarget c)).status = .inService → exec (.resetForme q) s =
      .next (State.settle ((s.begin_ q c.no).levelThree (cmdTarget c) (faultOf 0) [(q, c.no)]))) ∧
    (subIs 5 c = true → exec (.resetBlock q) s = .next (State.settle (s.levelFour (faultOf 0) false)))

/-- Doorbells and fetching (R337 to R343, R361, R365 to R367): a tail doorbell moves the tail of a queue of the function; a completion
head beyond what was written is dropped, and any other is kept; FLUSH starts a flush; a fetchable queue fetches its next
command, a stalled one when its time has come, a spread queue for a galley that takes its barrier; a doorbell for a
queue of another function changes nothing. -/
def Obligations.DoorbellsAndFetch : Prop :=
  (∀ (s : State) (fn q v : Nat) (x : QueueSt), s.doorQueue fn q = some x →
    exec (.dbTail fn q v) s = .next (s.modQueue q (fun x => x.ring v)) ∧
    exec (.flush fn q) s = .next ((s.applyFlush q [] false).settle) ∧
    (x.unconsumed < (v % 2 ^ 32 + 2 ^ 32 - x.cqHead) % 2 ^ 32 → exec (.dbCqHead fn q v) s = .next (s.modQueue q QueueSt.drop)) ∧
    ((v % 2 ^ 32 + 2 ^ 32 - x.cqHead) % 2 ^ 32 ≤ x.unconsumed →
      exec (.dbCqHead fn q v) s = .next ((s.modQueue q (fun x => { x with cqHead := v % 2 ^ 32 })).settle))) ∧
  (∀ (s : State) (fn q v : Nat), s.doorQueue fn q = none →
    exec (.dbTail fn q v) s = .next s ∧ exec (.flush fn q) s = .next s ∧ exec (.dbCqHead fn q v) s = .next s) ∧
  (∀ (s : State) (q : Nat) (x : QueueSt), tget s.queues q = some x → s.fetchable x = true →
    (x.stalled = none → x.kind ≠ 2 → exec (.commandFetch q) s = .next ((s.fetchCommand q x none).settle)) ∧
    (∀ due gap, x.stalled = some (due, gap) → due ≤ s.now → x.kind ≠ 2 →
      exec (.stalledRefetch q) s = .next ((s.fetchCommand q x none).settle)) ∧
    (∀ g b s1, x.stalled = none → x.kind = 2 → x.ranks.contains g = true → s.galleyUp g = true → s.preloadFree g = true → x.wait = none →
      s.readSlot x x.fetch = (.ok b, s1) → bit (field b 0 8) 9 = false → field b 0 8 % 256 ≠ 3 →
      exec (.spreadClaim q g) s = .next ((s.fetchCommand q x (some g)).settle)))

/-- Registers (R370, R416, R516, R613): a write of KQ control with ENABLE set or clear is taken; a misaligned BAR0 access, or one
of a width other than 4 or 8 bytes, records an aperture fault and writes nothing; PROT and flash registers are written
while the block has power, and nothing is written without. -/
def Obligations.RegisterWrites : Prop :=
  (∀ (s : State) (fn v : Nat), bit v 31 = true → exec (.kqEnable fn v) s = .next (s.writeKqCtrl fn v) ∧ exec (.kqDisable fn v) s = .next s) ∧
  (∀ (s : State) (fn v : Nat), bit v 31 = false → exec (.kqDisable fn v) s = .next (s.writeKqCtrl fn v) ∧ exec (.kqEnable fn v) s = .next s) ∧
  (∀ (s : State) (fn off width v en : Nat), s.regServes fn = true →
    ((width = 4 ∨ width = 8) → off % width = 0 → exec (.registerWrite (.bar0 fn) off width v en) s =
      .next (s.bar0Write fn off width v en)) ∧
    ((width ≠ 4 ∧ width ≠ 8 ∨ off % width ≠ 0) → exec (.registerWrite (.bar0 fn) off width v en) s =
      .next (s.fault { faultOf 0x3007 with inst := some fn, unitType := 0x08, addr := off, info0 := off } []))) ∧
  (∀ (s : State) (fn off width v en : Nat), s.regServes fn = false → exec (.registerWrite (.bar0 fn) off width v en) s = .next s) ∧
  (∀ (s : State) (r : CfgReg) (fn off width v en : Nat), s.up = true → s.fnExists fn = true →
    exec (.registerWrite (.config fn r) off width v en) s = .next (s.configWrite fn r v)) ∧
  (∀ (s : State) (off width v en : Nat), s.powered = false → exec (.registerWrite .prot off width v en) s = .next s ∧
    exec (.registerWrite .flash off width v en) s = .next s) ∧
  (∀ (s : State) (off v : Nat), s.powered = true → 0x1000 ≤ off → off ≤ 0x1FFF → v < 256 →
    ∃ s', exec (.registerWrite .flash off 1 v 1) s = .next s' ∧ mget s'.bnd.fp.buf (off - 0x1000) = BitVec.ofNat 8 v)

/-- Pre-emption, budgets and the ledger (R378, R384, R399, R400): a stopped step whose save succeeds keeps its state in a frame of its
context and counts one pre-emption; one whose save fails in its context loses the context; each budget is refilled at its 1 ms boundary; the ledger is
flushed each 10 ms, closes its period at its end, and a closed period goes to the journal. -/
def Obligations.SchedulingAndLedger : Prop :=
  (∀ (s s1 : State) (k fr : Nat) (p : StepRec) (cx : CtxSt), tget s.steps k = some p → p.st = .stopping → s.stepStopped p = true →
    tget s.ctxs p.ctx = some cx → s.freeFrame cx = some fr →
    (s.saveStep p fr = (none, s1) → ∃ u : State, exec (.preemptSaveDone k) s =
      .next ((u.account (some p.ctx) p.inst { Account.zero with preempts := 1 }).settle) ∧
      (∀ cy, tget u.ctxs p.ctx = some cy → tget cy.frames fr = some k)) ∧
    (∀ code va info, s.saveStep p fr = (some (.fault code va info), s1) → exec (.preemptSaveDone k) s =
      .next ((((State.keepTokens s s1).tagInst s p.inst p.queue p.no).accFault p.ctx (.fault code va info) none).settle))) ∧
  (∀ (s : State) (k : Nat) (p : StepRec), tget s.steps k = some p → p.st = .running → exec (.preemptSaveDone k) s = .next s) ∧
  (∀ s : State, s.due .budget = true → exec .deadlineBudgetRefill s = .next ((State.ran { s with host := { s.host with
    insts := tmap s.host.insts (fun _ (x : InstSt) => { x with budget := x.budget.refill }) } } .budget).settle)) ∧
  (∀ s : State, s.ledgerKept = true → s.mgmt.ledger.lastFlush + 1000000 ≤ s.now → exec .ledgerFlush s = .next (s.modLedger (fun l =>
    { l with openRec := s.periodTotals, sums := s.sumTotals, lastFlush := s.now, seq := (l.seq + 1) % 2 ^ 32 }))) ∧
  (∀ s : State, s.ledgerKept = true → s.mgmt.ledger.open_.start + s.mgmt.ledger.len ≤ s.now → exec .periodClose s =
    .next (s.closePeriod (s.mgmt.ledger.open_.start + s.mgmt.ledger.len) (s.mgmt.ledger.open_.start + s.mgmt.ledger.len) 0 s.lenSet
      s.periodTotals)) ∧
  (∀ (s : State), s.mgmt.ledger.toJournal.isSome → ∃ s' : State, exec .journalAppend s = .next s' ∧ s'.mgmt.ledger.toJournal = none ∧
    s'.mem = s.mem ∧ s'.queues = s.queues)

/-- R379: the steps that wait are the pending and stopped ones, in ascending order of the key (class, deadline, queue, arrival number), DEADLINE before
BACKGROUND: no step stands behind one with a greater key. -/
def Obligations.WaitingStepsInKeyOrder : Prop :=
  (∀ a b : StepRec, a.before b = true ↔
    (a.urgent = true ∧ b.urgent = false) ∨ (a.urgent = b.urgent ∧ (a.deadline < b.deadline ∨ (a.deadline = b.deadline ∧
      (a.queue < b.queue ∨ (a.queue = b.queue ∧ a.arrival < b.arrival)))))) ∧
  (∀ s : State, s.waitingSteps.Pairwise (fun p q => q.2.before p.2 = false)) ∧
  (∀ (s : State) (k : Nat) (p : StepRec), (k, p) ∈ s.waitingSteps ↔ (k, p) ∈ s.steps ∧ (p.st = .pending ∨ p.st = .stopped))

/-- Granules (R408 to R411): with a granule list of 8 to 32,768 bytes that reads, GRANT gives every granule of context memory that is
free or the instance's own to the instance, REVOKE takes back granules that nothing uses, POOL adds or removes them; the first
granule that may not be taken is named by GRANULE (0x61).

Apertures, HDM regions and staging areas (R409, R416, R417): APERTURE names or clears the instance's context where the policy lets it,
and is refused with PRIVILEGE (0x12) where it does not; HDM sets the region of granules of instance 0, once no decoder is
committed; STAGING sets an area of granted granules in the Exclusive profile; the weight of a bounce instance is set.

Bounce streams (R434, R436, R437): STREAM_OPEN of a free pair with usable keys opens it and answers the input key's count; STREAM_CLOSE of an open
pair starts its closing; of a pair that is not open it is refused. -/
def Obligations.InstanceCommands : Prop :=
  (∀ (s s1 : State) (q : Nat) (x : QueueSt) (c : Cmd) (l : List Byte), cmdLen c % 8 = 0 → 8 ≤ cmdLen c → cmdLen c ≤ 32768 →
    s.BufferIs q x c (cmdLen c) l s1 →
    (s.StartsInst q 0 x c → cmdArg c = 0 →
      (∀ k, firstBadOf (granulesOf c l) (fun a => !granuleOk a ||
          (match s1.grantOf a with | some (j, _) => j != cmdObj c | none => false)) = some k →
        exec (.grant q) s = .next (State.settle (s1.refuse q c.no 0x61 k))) ∧
      (∀ gs, gs = (granulesOf c l).foldl (fun t a =>
          if thas t (a / 2 ^ 21) then t else tput t (a / 2 ^ 21) (cmdObj c, false)) s1.host.grants →
        firstBadOf (granulesOf c l) (fun a => !granuleOk a ||
          (match s1.grantOf a with | some (j, _) => j != cmdObj c | none => false)) = none →
        exec (.grant q) s = .next (State.settle (State.succeed { s1 with host := { s1.host with grants := gs } } q c.no
          (granulesOf c l).length)))) ∧
    (s.StartsInst q 1 x c → cmdArg c = 0 →
      firstBadOf (granulesOf c l) (fun a => !granuleOk a || (match s1.grantOf a with | some (j, pool) => j != cmdObj c || pool | none => false)
        || s1.granuleTied (cmdObj c) a || s1.granuleHolds a) = none →
      ∃ h : HostSt, exec (.revoke q) s = .next (State.settle (State.succeed { s1 with host := h } q c.no (granulesOf c l).length)) ∧
        (∀ a, a ∈ granulesOf c l → tget h.grants (a / 2 ^ 21) = none)) ∧
    (s.StartsInst q 2 x c → cmdArg c = 0 →
      firstBadOf (granulesOf c l) (fun a => !granuleOk a || (match s1.grantOf a with | some (j, _) => j != cmdObj c | none => true)
        || s1.granuleTied (cmdObj c) a || s1.granuleHolds a) = none →
      exec (.poolAdd q) s = .next (State.settle (((s1.setPool (cmdObj c) (granulesOf c l) true).friskChanged (cmdObj c)).succeed q c.no
        (granulesOf c l).length))) ∧
    (s.StartsInst q 2 x c → cmdArg c = 1 →
      firstBadOf (granulesOf c l) (fun a => !granuleOk a || (match s1.grantOf a with | some (j, _) => j != cmdObj c | none => true)
        || ((s1.poolGranules (cmdObj c)).contains a &&
          decide ((s1.poolGranules (cmdObj c)).idxOf a * 2 ^ 21 < s1.poolUsed (cmdObj c)))) = none →
      exec (.poolRemove q) s = .next (State.settle ((s1.setPool (cmdObj c) (granulesOf c l) false).succeed q c.no (granulesOf c l).length)))) ∧
  (∀ (s : State) (q : Nat) (x : QueueSt) (c : Cmd),
    (s.StartsInst q 3 x c → bit s.sec.prot.frPolicy 2 = true → s.exclusive = false →
      (bits (cmdArg c) 30 12 = 0 → bit (cmdArg c) 31 = true → exec (.aperture q) s =
        .next (State.settle ((s.modInst (cmdObj c) (fun y => { y with aperture := none })).succeed q c.no 0))) ∧
      (bits (cmdArg c) 30 12 = 0 → bit (cmdArg c) 31 = false →
        (tget s.ctxs (cmdArg c % 4096)).map (fun cx => cx.inst) = some (cmdObj c) → exec (.aperture q) s =
        .next (State.settle ((s.modInst (cmdObj c) (fun y => { y with aperture := some (cmdArg c % 4096) })).succeed q c.no 0)))) ∧
    (s.StartsInst q 3 x c → bit s.sec.prot.frPolicy 2 = false →
      exec (.aperture q) s = .next (State.settle (s.refuse q c.no 0x12 0))) ∧
    (∀ l s1, s.StartsInst q 4 x c → bit s.sec.prot.frPolicy 3 = true → cmdObj c = 0 → cmdArg c = 0 → 16 ≤ cmdLen c →
      s.exclusive = false → s.host.cxl = true → s.BufferIs q x c 16 l s1 → field l 8 8 = 0 → field l 0 8 = 0 → s1.host.decoder = none →
      exec (.hdm q) s = .next (State.settle (State.succeed { s1 with host := { s1.host with hdm := none } } q c.no 0))) ∧
    (s.StartsInst q 4 x c → bit s.sec.prot.frPolicy 3 = false → exec (.hdm q) s = .next (State.settle (s.refuse q c.no 0x12 0))) ∧
    (∀ l s1, s.StartsInst q 5 x c → cmdArg c = 0 → s.exclusive = true → 16 ≤ cmdLen c → s.BufferIs q x c 16 l s1 →
      field l 0 8 % 2 ^ 21 = 0 → field l 8 8 % 2 ^ 21 = 0 → 2 ^ 21 ≤ field l 8 8 → field l 8 8 ≤ 2 ^ 32 →
      firstBadOf (rangeGranules (field l 0 8) (field l 8 8)) (fun a => !s1.granted (cmdObj c) a) = none →
      exec (.staging q) s = .next (State.settle ((s1.modInst (cmdObj c) (fun y =>
        { y with staging := some (field l 0 8, field l 8 8) })).succeed q c.no 0))) ∧
    (s.StartsInst q 5 x c → cmdArg c = 0 → s.exclusive = false → exec (.staging q) s =
      .next (State.settle (s.refuse q c.no 0x65 s.profile))) ∧
    (s.StartsInst q 0x10 x c → within 1 16 (cmdArg c) = true → exec (.bceWeight q) s =
      .next (State.settle ((s.modInst (cmdObj c) (fun y => { y with weight := cmdArg c })).succeed q c.no 0)))) ∧
  (∀ (s : State) (q : Nat) (x : QueueSt) (c : Cmd),
    (∀ l s1, s.StartsInst q 0x11 x c → cmdArg c = 0 → s.exclusive = true → 32 ≤ cmdLen c → s.BufferIs q x c 32 l s1 →
      1 ≤ field l 0 1 → field l 0 1 ≤ 7 → 16 ≤ field l 1 1 → field l 1 1 ≤ 26 → field l 4 4 = 0 → field l 8 8 % 4096 = 0 →
      field l 16 8 % 4096 = 0 → field l 24 8 = 0 → s1.pair (cmdObj c * 8 + field l 0 1) = none →
      s1.bceKeyOk (cmdObj c) (field l 2 1) = true → s1.bceKeyOk (cmdObj c) (field l 3 1) = true →
      ∀ u : State, u = s1.openPair (cmdObj c) (field l 0 1) (field l 1 1) (field l 2 1) (field l 3 1) (field l 8 8) (field l 16 8) →
      exec (.streamOpen q) s = .next (State.settle (u.succeed q c.no (u.kslot (field l 2 1)).opens))) ∧
    (∀ y, s.StartsInst q 0x12 x c → within 1 7 (cmdArg c) = true → s.exclusive = true → s.pair (cmdObj c * 8 + cmdArg c) = some y →
      y.closing = false → exec (.streamClose q) s = .next (State.settle (((s.begin_ q c.no).modPair (cmdObj c * 8 + cmdArg c) (fun z =>
        { z with closing := true, closeCmd := some (q, c.no) })).closePairs))) ∧
    (s.StartsInst q 0x12 x c → within 1 7 (cmdArg c) = true → s.exclusive = true → s.pair (cmdObj c * 8 + cmdArg c) = none →
      exec (.streamClose q) s = .next (State.settle (s.refuse q c.no 0x17 0x14))))

/-- Migration (R425 to R430): TRACK forgets the dirty pages of an instance and starts recording, or stops; DIRTY reports pages and forgets them;
READ_PAGES and WRITE_PAGES copy pages of the instance; FREEZE of an ENABLED instance makes it FROZEN, ends once nothing that
started is left, or times out with what is left; SAVE writes the state of a FROZEN instance, RESTORE and THAW end in FROZEN and ENABLED;
in a state that does not allow it each is refused with INST_STATE (0x60) and the state's code, and in the Exclusive profile with
NOT_OFFERED (0x65).

READ_PAGES and WRITE_PAGES of one page of the instance's granules (R429): the page's bytes go to the host address with the mask of its
poisoned sheets, or the host's 65,536 bytes go to the page. -/
def Obligations.Migration : Prop :=
  (∀ (s : State) (q i : Nat) (x : QueueSt) (c : Cmd), i = cmdObj c →
    (s.StartsInst q 8 x c → cmdArg c = 1 → s.exclusive = false → ∀ u : State,
      u = { s with host := { s.host with dirty := s.host.dirty.filter (fun p => !s.pageOf i p) } } → exec (.trackStart q) s =
      .next (State.settle ((u.modInst i (fun y => { y with track := true })).succeed q c.no 0))) ∧
    (s.StartsInst q 8 x c → cmdArg c = 0 → s.exclusive = false → exec (.trackStop q) s =
      .next (State.settle ((s.modInst i (fun y => { y with track := false })).succeed q c.no 0))) ∧
    (s.StartsInst q 9 x c → cmdArg c = 0 → s.exclusive = false → s.host.dirty = [] → exec (.dirty q) s =
      .next (State.settle (s.succeed q c.no 0))) ∧
    (s.StartsInst q 0xF x c → cmdArg c = 0 → s.exclusive = false → (s.inst i).state = .frozen → exec (.thaw q) s =
      .next (State.settle ((s.modInst i (fun y => { y with state := .enabled })).succeed q c.no 0))) ∧
    (s.StartsInst q 0xF x c → cmdArg c = 0 → s.exclusive = false → (s.inst i).state = .enabled → exec (.thaw q) s =
      .next (State.settle (s.refuse q c.no 0x60 (s.inst i).state.code))) ∧
    (s.StartsInst q 0xF x c → cmdArg c = 0 → s.exclusive = true → exec (.thaw q) s =
      .next (State.settle (s.refuse q c.no 0x65 s.profile))) ∧
    (s.StartsInst q 0xC x c → within 1 10000 (cmdArg c) = true → s.exclusive = false → (s.inst i).state = .frozen →
      exec (.freeze q) s = .next (State.settle (s.succeed q c.no 0))) ∧
    (s.StartsInst q 0xC x c → within 1 10000 (cmdArg c) = true → s.exclusive = false → (s.inst i).state = .enabled →
      s.steps = [] → ∃ v : State, exec (.freeze q) s = .next (State.settle v) ∧ (v.inst i).state = .frozen) ∧
    (∀ due, (s.inst i).freeze = some (q, c.no, due) →
      (s.startedCount i (q, c.no) = 0 → exec (.freezeQuiet i) s =
        .next ((((s.writeRecords i).modInst i (fun y => { y with freeze := none })).finish q c.no 0 0).settle)) ∧
      (s.startedCount i (q, c.no) ≠ 0 → due ≤ s.now → exec (.freezeTimeout i) s =
        .next (((s.modInst i (fun y => { y with freeze := none })).finish q c.no 0x63 (s.startedCount i (q, c.no))).settle))) ∧
    (s.StartsInst q 0xD x c → cmdArg c = 0 → s.exclusive = false → (s.inst i).state = .frozen → s.saveBusy i = false →
      (s.savedState i).length ≤ cmdLen c → exec (.save q) s = .next (State.settle ((((s.kernelWrite x.inst (cmdBuf c)
        (s.savedState i)).2).tagInst s x.inst q c.no).succeed q c.no (s.savedState i).length))) ∧
    (s.StartsInst q 0xD x c → cmdArg c = 0 → s.exclusive = false → (s.inst i).state ≠ .frozen → exec (.save q) s =
      .next (State.settle (s.refuse q c.no 0x60 (s.inst i).state.code))) ∧
    (∀ s1 l v, s.StartsInst q 0xE x c → cmdArg c = 0 → s.exclusive = false → (s.inst i).state = .enabled →
      s.ctxs.any (fun p => p.2.inst == i) = false → s.fences.any (fun p => p.2.inst == i) = false →
      s.queues.any (fun p => p.2.inst == i && p.1 != q) = false → 64 ≤ cmdLen c → s.BufferIs q x c (cmdLen c) l s1 →
      field l 8 4 = l.length → 64 ≤ l.length → savedFail l = none → v = savedOf l → s1.restoreFail i v = none → v.seals = [] →
      exec (.restore q) s = .next (State.settle (((s1.installSaved i v).modInst i (fun y => { y with state := .frozen })).succeed q c.no 0)))) ∧
  (∀ (s s1 : State) (q : Nat) (x : QueueSt) (c : Cmd) (d : List Byte), cmdArg c = 0 → s.exclusive = false → cmdLen c = 64 →
    s.BufferIs q x c 64 d s1 → field d 0 8 % 65536 = 0 → field d 8 8 % 65536 = 0 → d.length = 64 →
    (s1.grantOf (field d 0 8)).map (·.1) = some (cmdObj c) →
    (s.StartsInst q 0xA x c → exec (.readPages q) s = .next (State.settle (State.succeed
      (((s1.readPage (field d 0 8)).2.2.hostWrite (field d 8 8) (s1.readPage (field d 0 8)).1).hostWrite (cmdBuf c + 32)
        (toLE 32 (s1.readPage (field d 0 8)).2.1)) q c.no 1))) ∧
    (∀ l, s.StartsInst q 0xB x c → s1.hostRead (field d 8 8) 65536 = some l → exec (.writePages q) s = .next (State.settle (State.succeed
      ((s1.devWrite (field d 0 8) l false).poisonSheets (field d 0 8) (field d 32 32)) q c.no 1))) ∧
    (s.StartsInst q 0xB x c → s1.hostRead (field d 8 8) 65536 = none → exec (.writePages q) s =
      .next (State.settle (s1.cmdFault q x c 0x2003 (field d 8 8) (Config.linkStatus (field d 8 8))))))

/-- Instance resets and functions (R406, R420 to R423): an FLR of an existing VF, or its way back from D3hot, resets its instance,
one of the PF every instance; VF Enable brings its instances up, its clearing resets those that go; at the end of an
instance reset no queue of the instance is left, and the instance is ENABLED, or OFF when its VF has gone; an unmasked vector
is delivered.

Direct accesses (R415 to R417, R424): an aperture read of an instance in reset answers zeros and a write changes nothing; others, and CXL.mem
accesses while a CXL link is up, go to the range they translate to. -/
def Obligations.HostFunctions : Prop :=
  ((∀ (s : State) (i : Nat), s.up = true → i ≠ 0 → s.fnExists i = true →
    exec (.flrVf i) s = .next (s.resetInstance i [] false false).settle ∧
    ((s.inst i).d3 = true → exec (.d3hotToD0 i) s =
      .next ((s.modInst i (fun y => { y with d3 := false })).resetInstance i [] false false).settle)) ∧
  (∀ s : State, s.up = true → exec .flrPf s =
    .next ((s.host.insts.map (·.1)).foldl (fun s i => s.resetInstance i [] false false) s).settle) ∧
  (∀ (s : State) (n : Nat), s.up = true → s.host.vfEnable = false → 1 ≤ n → n ≤ 255 → (s.inst n).state = .off →
    ∃ s', exec (.vfEnableSet n) s = .next s' ∧ s'.host.vfEnable = true ∧ s'.host.numVFs = n ∧ (s'.inst n).state = .enabled) ∧
  (∀ s : State, s.up = true → s.host.vfEnable = true → s.host.numVFs = 1 → exec (.vfEnableClear 0) s = .next
    (State.settle (State.resetInstance { s with host := { s.host with vfEnable := false, numVFs := 0 } } 1 [] false true))) ∧
  (∀ (s : State) (i : Nat) (r : InstReset), (s.inst i).reset = some r → ∃ u : State, exec (.instanceResetDone i) s = .next u.settle ∧
    (r.gone = true → (u.inst i).state = .off) ∧ (r.gone = false → (u.inst i).state = .enabled) ∧ (u.inst i).reset = none) ∧
  (∀ (s : State) (fn vec : Nat), s.fnServes fn = true → exec (.msixUnmask fn vec) s = .next (s.unmask fn vec)) ∧
  (∀ (s : State) (base size : Nat), s.up = true → s.host.link = .cxl → s.exclusive = false →
    (∀ b, s.host.hdm = some (b, size) → exec (.hdmDecoderCommit base size) s =
      .next { s with host := { s.host with commitError := false, decoder := some (base, size) } }) ∧
    (s.host.hdm = none → exec (.hdmDecoderCommit base size) s =
      .next { s with host := { s.host with commitError := true, decoder := none } }))) ∧
  ((∀ (s : State) (fn off n : Nat), s.apertureServed fn off n = true →
    ((s.inst fn).state = .resetting → exec (.apertureRead fn off n) s =
      .next { s with out := s.out ++ [.readData 0 off (List.replicate n 0) false] }) ∧
    ((s.inst fn).state ≠ .resetting → exec (.apertureRead fn off n) s =
      .next (s.apRead 0 fn off n (s.inst fn).aperture fn (s.apertureRanges fn off n false)).settle)) ∧
  (∀ (s : State) (fn off : Nat) (l : List Byte), s.apertureServed fn off l.length = true →
    ((s.inst fn).state = .resetting → exec (.apertureWrite fn off l) s = .next s) ∧
    ((s.inst fn).state ≠ .resetting → exec (.apertureWrite fn off l) s =
      .next (s.apWrite fn off l (s.inst fn).aperture fn (s.apertureRanges fn off l.length true)).settle)) ∧
  (∀ (s : State) (h n : Nat) (l : List Byte), s.up = true → s.host.link = .cxl → n ≠ 0 → l ≠ [] →
    exec (.cxlMemRead h n) s = .next (s.apRead 1 0 h n none 0 (s.cxlRange h n)).settle ∧
    exec (.cxlMemWrite h l) s = .next (s.apWrite 0 h l none 0 (s.cxlRange h l.length)).settle) ∧
  (∀ (s : State) (h n : Nat), s.host.link ≠ .cxl → exec (.cxlMemRead h n) s = .next s))

/-- The host link (R404, R431, R432): a trained link delivers what was held for the host and, with the block up, records how long it was
down; a link that goes down keeps the time; one down for more than 10 ms resets the block; a kernel read that times
out backs its queue off, a read of a command fails it with the host fault, and a move loses its tag. -/
def Obligations.HostLink : Prop :=
  (∀ (s : State) (t : Nat) (cxl : Bool), s.host.link = .down t → s.up = true →
    ∃ u : State, exec (.linkTraining cxl) s = .next (State.settle (u.fault { faultOf 0xB001 with unitType := 0x08, info0 := s.now - t } [])) ∧
      u.host.link = (if cxl then .cxl else .pcie) ∧ u.host.held = [] ∧
      u.hostMem = s.host.held.foldl (fun (m : Mem) (w : Nat × List Byte) => mwrite m w.1 w.2) s.hostMem) ∧
  (∀ (s : State) (cxl : Bool), s.linkUp = true → exec .linkDown s = .next { s with host := { s.host with link := .down s.now } } ∧
    exec (.linkTraining cxl) s = .next s) ∧
  (∀ (s : State) (t : Nat), s.host.link = .down t → s.up = true →
    (t + 1000000 < s.now → exec .linkLost s = .next (s.levelFour { faultOf 0xB002 with unitType := 0x08 } false).settle) ∧
    (s.now ≤ t + 1000000 → exec .linkLost s = .next s)) ∧
  (∀ (s : State) (q : Nat) (x : QueueSt), tget s.queues q = some x → s.fetchable x = true → s.exclusive = false → x.kind = 0 →
    exec (.hostReadTimeout (.fetch q)) s = .next (s.modQueue q (fun y => y.backOff s.now))) ∧
  (∀ (s : State) (q : Nat) (x : QueueSt) (c : Cmd), tget s.queues q = some x → x.nextCmd = some c → s.startable q c.op = some (x, c) →
    s.exclusive = false → x.kind = 0 → exec (.hostReadTimeout (.command q)) s =
      .next (s.cmdFault q x c 0x2003 (cmdBuf c) (Config.linkStatus (cmdBuf c))).settle) ∧
  (∀ (s : State) (g tag c : Nat) (m : GMove) (cx : CtxSt), tget (s.galley g).moves tag = some m → (s.galley g).ctx = some c →
    m.srcGs = false → tget s.ctxs c = some cx → cx.onHost m.src m.len = true →
    exec (.hostReadTimeout (.move g tag)) s = .next ((State.stepAccess (s.modGalley g (fun y =>
      { y with moves := tdel y.moves tag })) g (.fault 0x2003 m.src (Config.linkStatus m.src))).settle))

/-- R419: the host port sends an MSI-X message only while MSI-X is enabled and the vector is unmasked; a raise on a masked vector sets its pending bit, and the message is
sent when the vector is unmasked; a raise while MSI-X is disabled is dropped. -/
def Obligations.InterruptMessages : Prop :=
  ∀ (s : State) (fn vec : Nat), vec ≠ 0xFFFF →
    ((s.inst fn).msix.enable = true → (s.inst fn).msix.allMasked = false → vec ∈ (s.inst fn).msix.unmasked →
      s.raise fn vec = { s with out := s.out ++ [.msix fn vec] }) ∧
    ((s.inst fn).msix.enable = true → (s.inst fn).msix.allMasked = true ∨ vec ∉ (s.inst fn).msix.unmasked →
      (s.raise fn vec).out = s.out ∧ vec ∈ ((s.raise fn vec).inst fn).msix.pend) ∧
    ((s.inst fn).msix.enable = false → s.raise fn vec = s) ∧
    (s.fnServes fn = true → (s.inst fn).msix.enable = true → (s.inst fn).msix.allMasked = false → vec ∈ (s.inst fn).msix.pend →
      ∃ t, exec (.msixUnmask fn vec) s = .next t ∧ t.out = s.out ++ [.msix fn vec] ∧
        vec ∈ (t.inst fn).msix.unmasked ∧ vec ∉ (t.inst fn).msix.pend)

/-- Inbound bounce messages (R438, R440): a WRITE whose target is good and whose bytes read waits for its segments; a READ that is authentic
and whose condition holds is answered; a PAD is skipped to the end of the ring; a header that is not good breaks the stream,
and so does a READ whose tag does not match.

The bounce engine (R438 to R440): a parked READ is answered when its value reaches the threshold, and otherwise checked later with its
gap doubled to at most 50 µs; a segment of an outbound message is done; an outbound message is taken when the ring has room; a
kick reads the producer count of the pair; control writes with ENABLE set or clear are taken in the Exclusive profile. -/
def Obligations.BounceStreams : Prop :=
  (∀ (s u : State) (i p a : Nat) (y : Pair) (h : List Byte), s.nextInbound i p = some (y, h, a) → u = s.chargeBounce i 64 false →
    (∀ cause, headFail h (y.inSeq + 1) (y.inProd - y.inNext) (2 ^ y.log2 - y.inNext % 2 ^ y.log2) = some cause →
      exec (.bounceWrite i p) s = .next ((u.breakStream (i * 8 + p) cause (y.inSeq + 1)).settle)) ∧
    (headFail h (y.inSeq + 1) (y.inProd - y.inNext) (2 ^ y.log2 - y.inNext % 2 ^ y.log2) = none →
      (∀ rs l m, bTyp h = 1 → u.bounceRanges i h (field h 0x18 4) true = .ok rs → u.hostRead (a + 64) (field h 0x18 4 + 16) = some l →
        m = { inst := i, pair := p, out := false, hdr := h, data := l.take (field h 0x18 4), tag := field l (field h 0x18 4) 16,
              segs := 0, inSlot := false, no := 0, ringBytes := 128 + field h 0x18 4 } →
        exec (.bounceWrite i p) s = .next ((((u.chargeBounce i (field h 0x18 4 + 64) true).takeInbound (i * 8 + p)
          (128 + field h 0x18 4)).frontEnd m).settle)) ∧
      (∀ tag, bTyp h = 2 → u.hostRead (a + 64) 16 = some tag →
        (toLE 16 (gcmTag (u.kslot y.keyIn).key (bounceIV i p false y.count (bSeq h)) h []) ≠ tag →
          exec (.bounceRead i p) s = .next ((u.breakStream (i * 8 + p) 3 (bSeq h)).settle)) ∧
        (∀ rs, toLE 16 (gcmTag (u.kslot y.keyIn).key (bounceIV i p false y.count (bSeq h)) h []) = tag →
          u.bounceRanges i h (field h 0x1C 4) false = .ok rs → field h 0x20 8 = 0 →
          exec (.bounceRead i p) s = .next (((((u.chargeBounce i 64 true).takeInbound (i * 8 + p) 128).writeCons (i * 8 + p)
            128).answerRead i p h).settle))) ∧
      (bTyp h = 0 → exec (.bouncePad i p) s = .next (((u.takeInbound (i * 8 + p) (2 ^ y.log2 - y.inNext % 2 ^ y.log2)).writeCons (i * 8 + p)
        (2 ^ y.log2 - y.inNext % 2 ^ y.log2)).settle)))) ∧
  ((∀ (s : State) (n v : Nat) (w : Parked), s.host.bce.parked[n]? = some w → w.next ≤ s.now → s.readValue w.inst w.hdr = .ok v →
    (field w.hdr 0x20 8 ≤ v → exec (.parkedReadRecheck n) s =
      .next ((s.modBce (fun b => { b with parked := b.parked.eraseIdx n })).answerRead w.inst w.pair w.hdr)) ∧
    (v < field w.hdr 0x20 8 → exec (.parkedReadRecheck n) s = .next (s.modBce (fun b =>
      { b with parked := b.parked.set n { w with next := s.now + min 5000 (2 * w.gap), gap := min 5000 (2 * w.gap) } })))) ∧
  (∀ (s : State) (i left : Nat) (m : BMsg) (y : Pair), s.nextInst true = some (i, left) →
    s.host.bce.msgs.find? (fun m => m.inSlot && m.out == true && m.inst == i) = some m → s.pair (i * 8 + m.pair) = some y →
    ∀ u : State, u = (s.modBce (fun b => { b with turnOut := (i, left) })).modBce (fun b => { b with msgs := b.msgs.map (fun (x : BMsg) =>
      if x.no = m.no then { x with segs := x.segs + 1 } else x) }) →
    (m.data.length ≤ (m.segs + 1) * 16384 → exec (.bceSegmentDone true) s = .next ((u.finishOutbound m y).closePairs).settle) ∧
    ((m.segs + 1) * 16384 < m.data.length → exec (.bceSegmentDone true) s = .next u.closePairs.settle)) ∧
  (∀ (s : State) (i p : Nat) (y : Pair) (m : BMsg) (l : List Byte), s.pair (i * 8 + p) = some y →
    s.host.bce.outq.find? (fun m => m.inst == i && m.pair == p) = some m → s.up = true → y.closing = false →
    s.host.bce.msgs.any (fun x => x.inst == i && x.pair == p && x.out) = false → s.hostRead (y.outBase + 8) 8 = some l →
    m.ringBytes ≤ 2 ^ y.log2 - y.outProd % 2 ^ y.log2 → y.outProd + m.ringBytes - leNat l ≤ 2 ^ y.log2 →
    exec (.outboundMessageSend i p) s = .next (State.frontEnd (((s.chargeBounce i 8 false).modBce (fun b =>
      { b with outq := eraseFirst (fun x => x.inst == i && x.pair == p) b.outq })).modPair (i * 8 + p) (fun z =>
        { z with outSeq := y.outSeq + 1 })) { m with hdr := m.hdr.take 8 ++ toLE 8 (y.outSeq + 1) ++ m.hdr.drop 16 })) ∧
  (∀ (s : State) (i v : Nat), s.exclusive = true → s.fnServes i = true →
    (v % 2 = 0 → exec (.fnBncKick i v) s = .next (s.readProd (i * 8 + v % 16 / 2))) ∧
    (bit v 31 = true → exec (.bncEnable i v) s = .next (s.writeBncCtrl i v).settle) ∧
    (bit v 31 = false → exec (.bncDisable i v) s = .next (s.writeBncCtrl i v).settle)) ∧
  (∀ (s : State) (i v : Nat), s.exclusive = false → exec (.fnBncKick i v) s = .next s ∧ exec (.bncEnable i v) s = .next s ∧
    exec (.bncDisable i v) s = .next s) ∧
  (∀ (s : State) (k : Nat) (y : Pair), s.up = true → s.exclusive = true → s.host.bce.pairs = [(k, y)] → y.polled + 1000 ≤ s.now →
    exec .bounceProdPoll s = .next (s.readProd k)))

/-- Frames of the quire protocol (R447 to R459): a frame that is for an open connection, that passes its checks and for which the receive
buffer has room is counted and goes to its TYPE's handling; one without room is counted as dropped and does nothing else.

Ordered messages and acknowledgements (R453 to R455): a duplicate is only acknowledged again; one 16,384 or more ahead is ignored; an
ingest message on a connection without a ring is answered DENIED (4); an acknowledgement of the wrong length changes nothing. -/
def Obligations.QuireFrames : Prop :=
  (∀ (s : State) (p : Nat) (l : List Byte) (n : Nat) (h : QHdr) (pay : List Byte), s.up = true → s.portExists p = true →
    (s.port p).up = true → s.classify p l = .quire n h pay →
    ((s.portCount p 1).roomFor p (framePri l) l.length = 0 →
      (h.typ = 1 → exec (.remoteGather p l) s = .next (((s.portCount p 1).rxGather n h pay).updSettle)) ∧
      (h.typ = 2 → exec (.gatherReply p l) s = .next (((s.portCount p 1).rxReply n h pay).updSettle)) ∧
      (h.typ = 3 → exec (.tableUpdate p l) s = .next (((s.portCount p 1).rxOrdered n h pay).updSettle)) ∧
      (h.typ = 4 → exec (.ingest p l) s = .next (((s.portCount p 1).rxOrdered n h pay).updSettle)) ∧
      (h.typ = 5 → exec (.ack p l) s = .next (((s.portCount p 1).rxAck n h pay).updSettle)) ∧
      (h.typ = 6 → h.code = 2 → exec (.nack p l) s = .next (((s.portCount p 1).breakConn n 2).updSettle)) ∧
      (h.typ = 6 → h.code = 1 → exec (.nack p l) s = .next ((s.portCount p 1).updSettle))) ∧
    (∀ k, (s.portCount p 1).roomFor p (framePri l) l.length = k + 1 → h.typ = 4 →
      exec (.ingest p l) s = .next ((s.portCount p 1).portCount p (k + 1)))) ∧
  (∀ (s : State) (n : Nat) (h : QHdr) (pay : List Byte),
    ((s.conn n).isDup h.seq = true → s.rxOrdered n h pay = s.ackDup n h.seq (h.typ == 3)) ∧
    ((s.conn n).isDup h.seq = false → 16384 ≤ seqAhead h.seq (s.conn n).cum → s.rxOrdered n h pay = s) ∧
    ((s.conn n).isDup h.seq = false → seqAhead h.seq (s.conn n).cum < 16384 → h.typ = 4 → (s.conn n).ingestLog2 = 0 →
      s.rxOrdered n h pay = s.sendNack n h.seq 4) ∧
    (pay.length ≠ 264 + 16 * field pay 256 2 → s.rxAck n h pay = s))

/-- Links, pauses and raw frames (R441, R444, R460): a port whose link goes down is down with nothing queued or paused; a raw frame that no
filter takes is counted as dropped, and one that a filter takes goes to the ring of its connection; a PFC frame sets or clears the pauses it names;
pauses sent are refreshed each 10 µs while the held bytes stay above the mark, and ended once they are below.

Sending (R451 to R455): a poll of an open connection's send ring takes the entries published since; a due acknowledgement is sent
once for each base; a message not acknowledged in time is sent again, as is a gather whose reply stays out; a poll of an
ingest ring reads its consumer count; the result of an executed gather leaves with its last fragment. -/
def Obligations.NetworkPorts : Prop :=
  ((∀ (s : State) (p : Nat), p < 8 → exec (.portLinkDown p) s =
    .next (s.modPort p (fun y => { y with up := false, txq := [], paused := [], xoffed := [] }))) ∧
  (∀ (s : State) (p : Nat) (l : List Byte), s.up = true → s.portExists p = true → (s.port p).up = true →
    s.classify p l = .other → (s.rawMatch p l = none → exec (.rawFrameIngest p l) s = .next ((s.portCount p 1).portCount p 4)) ∧
    (∀ k f, s.rawMatch p l = some (k, f) → s.roomFor p (framePri l) l.length = 0 → (s.portCount p 1).isOpen f.conn = true →
      ((s.portCount p 1).inst ((s.portCount p 1).conn f.conn).inst).state = .enabled →
      ∀ r : Bool × State, r = (s.portCount p 1).ingestWrite f.conn 1 p (toLE 2 k) (l.take (l.length - 4)) →
      exec (.rawFrameIngest p l) s = .next ((if r.1 then r.2.account none ((s.portCount p 1).conn f.conn).inst
        { Account.zero with net := (l.take (l.length - 4)).length } else r.2.portCount p 7).settle))) ∧
  (∀ (s : State) (p : Nat) (l : List Byte), s.up = true → s.portExists p = true → (s.port p).up = true →
    s.classify p l = .control → beField l 14 2 = 0x0101 → beField l 16 2 = 0 →
    exec (.pfcFrame p l) s = .next ((s.portCount p 1).drainTx p)) ∧
  (∀ (s : State) (p k : Nat), (s.port p).xoffed = [k] → (s.port p).pfcTick + 1000 ≤ s.now → (s.port p).xon * 16384 < (s.port p).held k →
    exec (.pfcRefresh p) s = .next ((s.modPort p (fun y => { y with pfcTick := s.now })).sendPfc p k 0xFFFF)) ∧
  (∀ (s : State) (p k : Nat), (s.port p).xoffed.contains k = true → (s.port p).held k < (s.port p).xon * 16384 →
    exec (.pfcXon p k) s = .next ((s.modPort p (fun y => { y with xoffed := y.xoffed.filter (fun j => j != k) })).sendPfc p k 0))) ∧
  ((∀ (s s1 : State) (n : Nat) (l : List Byte), s.up = true → s.isOpen n = true → (s.inst (s.conn n).inst).state = .enabled →
    s.ctxRead (s.conn n).ctx (s.conn n).sendCtrl 8 = (.ok l, s1) → (s.conn n).next ≤ leNat l →
    ((leNat l + 2 ^ 64 - (s.conn n).cons) % 2 ^ 64 ≤ 2 ^ (s.conn n).sendLog2 → exec (.sendRingPoll n) s = .next
      (State.sendEntries n ((leNat l - (s.conn n).next) / 64 + 1) (s1.modConn n (fun y => { y with prod := leNat l, polled := s1.now }))).settle) ∧
    (2 ^ (s.conn n).sendLog2 < (leNat l + 2 ^ 64 - (s.conn n).cons) % 2 ^ 64 → exec (.sendRingPoll n) s = .next (s1.sendFormat n).settle)) ∧
  (∀ (s : State) (n b : Nat), s.up = true → s.isOpen n = true → (s.conn n).ackBases = [b] → s.keyHeld n = false →
    ∀ u : State, u = (s.modConn n (fun y => { y with ackBases := [], ackDue := none })).sendAck n b → exec (.ackSend n) s =
      .next (u.modConn n (fun y => if y.reports.isEmpty then y else y.wantAck 0 u.now))) ∧
  (∀ (s : State) (n seq : Nat) (o : Outst), s.waitingOut n seq = some o →
    (o.acked = false → o.sent + (s.conn n).rto ≤ s.now → exec (.rtoExpiry n seq) s = .next (s.resend n o).settle) ∧
    (o.acked = true → exec (.rtoExpiry n seq) s = .next s) ∧
    (o.type = 1 → o.sent + 4 * (s.conn n).rto ≤ s.now → exec (.gatherReplyTimeout n seq) s = .next (s.resend n o).settle)) ∧
  (∀ (s : State) (n : Nat), s.up = true → s.isOpen n = true → (s.conn n).ingestLog2 ≠ 0 →
    exec (.ingestConsPoll n) s = .next (s.readIngestCons n).settle) ∧
  (∀ (s : State) (id : Nat) (g : GatherSt), tget s.gathers id = some g → g.tk.done = true → s.isOpen g.conn = true →
    s.keyHeld g.conn = false → 1 ≤ (listHdr g.tk.list).resBytes → (listHdr g.tk.list).resBytes ≤ (s.conn g.conn).maxPayload →
    ∀ u : State, u = { s with gathers := tdel s.gathers id } → exec (.gatherExecutionDone id) s =
      .next (((u.netBytes g.conn (listHdr g.tk.list).resBytes true).sendQuire g.conn 2 0 g.seq 0 g.nonce 0
        (mread g.buf 0 (listHdr g.tk.list).resBytes) false).settle)) ∧
  (∀ (s : State) (id : Nat) (g : GatherSt), tget s.gathers id = some g → g.tk.done = true → s.isOpen g.conn = false →
    exec (.gatherExecutionDone id) s = .next { s with gathers := tdel s.gathers id }))

/-- Faults and watchdogs (R478 to R482): FLT control with ENABLE set is taken; a flush commits the unlogged records; the wait-graph scan of
a block without waits changes nothing but its time; a queue whose watchdog has run out loses its context and starts its watchdog
again; a kernel queue's watchdog records the fault; a lost context's end completes every command of its queues with CTX_LOST (0x21).

The ladder's bounds (R484 to R497): a tear-down, a galley reset, a forme reset or a start that misses its bound escalates to the galley,
forme or block above it; a missed heartbeat and the controller's watchdog reset the block.

Resets end (R489 to R497): a galley reset in place that passes its test gives its spare back and the galley returns; one with a
spare that passes moves the logical galley to it; with no spare the galley is retired; a forme reset that passes brings the
forme back, and the third within 3,600 s leaves it held. -/
def Obligations.FaultsEscalate : Prop :=
  ((∀ (s : State) (fn v : Nat), bit v 31 = true → exec (.fnFltEnable fn v) s = .next (s.writeFltCtrl fn v)) ∧
  (∀ (s : State), s.fm.unlogged ≠ [] → s.fm.suppressed = [] →
    ∃ u : State, exec .faultFlush s = .next u ∧ u.fm.suppressed = [] ∧ u.mem = s.mem ∧ u.queues = s.queues) ∧
  (∀ (s : State), s.up = true → s.due .wgm = true → s.waitNodes = [] → exec .wgmScan s = .next ((s.ran .wgm).settle)) ∧
  (∀ (s : State) (q : Nat) (x : QueueSt), tget s.queues q = some x → s.up = true → x.wdogLimit ≤ x.wdog → ∀ u : State,
    u = s.modQueue q (fun y => { y with wdog := 0 }) →
    (x.kind ≠ 0 → exec (.queueWatchdog q) s = .next (u.loseContext x.ctx
      { faultOf 0x4002 with unitType := 0x07, queue := some q, info0 := q, info1 := x.wdogLimit / 100000 } none).settle) ∧
    (x.kind = 0 → exec (.kqWatchdog q) s = .next (u.fault
      { faultOf 0x4003 with inst := some x.inst, unitType := 0x07, queue := some q, info0 := q, info1 := x.wdogLimit / 100000 } []))) ∧
  (∀ (s : State) (c : Nat) (x : CtxSt), tget s.ctxs c = some x → x.teardown.isSome → ∀ u v : State,
    u = { s with queues := tmap s.queues (fun _ (y : QueueSt) =>
            if y.kind ≠ 0 ∧ y.ctx = c then { y with cmds := y.cmds.map (fun (d : Cmd) => d.finish 0x21 0), wdog := 0 } else y) } →
    v = u.modCtx c (fun (x : CtxSt) => { x with teardown := none }) →
    exec (.contextTeardownDone c) s = .next (((v.modFn x.inst (fun y => { y with ctxLost := true })).writeRecord c).updSettle))) ∧
  ((∀ (s : State) (c g f : Nat), s.tearLate c = true →
    (g < 64 → exec (.ladderBoundMissed (.inGalley c g)) s = .next (s.takeFault { faultOf 0x7022 with
      escalated := true, unitType := 0x03, logical := g, phys := s.physGalley g } (.galley g))) ∧
    (f < 8 → exec (.ladderBoundMissed (.inPlaten c f)) s = .next (s.takeFault { faultOf 0x8FFF with
      escalated := true, unitType := 0x04, logical := f, phys := f } (.forme f))) ∧
    exec (.ladderBoundMissed (.inCentral c)) s = .next (s.takeFault { faultOf 0xA002 with escalated := true, unitType := 0x07 } .block)) ∧
  (∀ (s : State) (g : Nat), s.resetLate (.galley g) 15000000 = true → exec (.ladderBoundMissed (.galley g)) s =
    .next (s.takeFault { faultOf 0x8005 with escalated := true, unitType := 0x03, logical := g, phys := s.physGalley g }
      (.forme (formeOf g)))) ∧
  (∀ (s : State) (f : Nat), s.resetLate (.forme f) 250000000 = true → exec (.ladderBoundMissed (.forme f)) s =
    .next (s.takeFault { faultOf 0xA004 with escalated := true, unitType := 0x04, logical := f, phys := f } .block)) ∧
  (∀ (s : State) (k : StartKind) (t : Nat), s.bnd.power = .starting k t →
    (t + k.bound < s.now → exec (.ladderBoundMissed .start) s =
      .next (s.takeFault { faultOf 0xA006 with escalated := true, unitType := 0x0E } .block)) ∧
    (s.now ≤ t + k.bound → exec (.ladderBoundMissed .start) s = .next s)) ∧
  (∀ (s : State), s.up = true → exec .mcHeartbeatMiss s = .next (s.takeFault { faultOf 0xA005 with unitType := 0x0E } .block) ∧
    exec .mcWatchdog s = .next (s.takeFault { faultOf 0xA006 with unitType := 0x0E, escalated := true } .block))) ∧
  ((∀ (s : State) (g : Nat) (r : ResetSt), s.fm.resets.find? (fun r => r.target == .galley g) = some r →
    (r.inPlace = true → r.spare = none → exec (.galleyResetDone g true true) s = .next ((State.galleyBack { s with
      fm := { s.fm with freeSpares := inOrder s.fm.freeSpares } } g r).settle)) ∧
    (r.inPlace = false → r.spare = none → ∀ a b, exec (.galleyResetDone g a b) s = .next ((s.galleyBack g r).retireGalley g).settle) ∧
    (∀ k, r.inPlace = false → r.spare = some k → g < 64 → ∃ u : State,
      exec (.galleyResetDone g true true) s = .next (((u.sparesLow g).galleyBack g r).settle) ∧ u.physGalley g = k ∧
      u.galley g = GalleySt.zero)) ∧
  (∀ (s : State) (f : Nat) (r : ResetSt), s.fm.resets.find? (fun r => r.target == .forme f) = some r → f < 8 → r.waiting = [] →
    (s.stack f).state = .inService → s.fm.retired = [] → s.fm.standby = [] →
    ((recentTicks s.fm.hist3 f s.now 360000000000).length < 3 → exec (.formeResetDone f true []) s =
      .next ((State.evalFaultPin (State.formeBack { s with
        fm := { s.fm with resets := s.fm.resets.filter (fun x => !(x.target == .forme f)) } } f)).updSettle)) ∧
    (3 ≤ (recentTicks s.fm.hist3 f s.now 360000000000).length → ∃ u v : State, exec (.formeResetDone f true []) s = .next v.updSettle ∧
      v = State.evalFaultPin u ∧ (u.forme f).status = .held)) ∧
  (∀ (s : State) (n sl : Nat) (t : Ift), s.fm.ift.find? (fun t => t.stick == n) = some t → t.start + 100000 ≤ s.now →
    t.sliver = some sl → t.galley < 64 → ∃ s', exec (.iftDone n true 0) s = .next s' ∧ s'.fm.iftLast = tput s.fm.iftLast (n * 17 + t.sort) s.now ∧
      s'.fm.ift = s.fm.ift.filter (fun t => t.stick != n) ∧ s'.mem = s.mem) ∧
  (∀ (s : State) (n : Nat), s.up = true → s.fm.iftOn = true → s.now % 60000000000 = n * 50000000 → s.galleyOn (n / 17) = none →
    exec (.rotatingTestStart n) s = .next s) ∧
  (∀ (s : State) (n g j p : Nat), s.up = true → s.fm.iftOn = true → s.now % 60000000000 = n * 50000000 → s.fm.ift = [] →
    s.galleyOn (n / 17) = some g → s.galleyUp g = true → n % 17 < 16 → j = n % 17 → (s.galley g).spares = Spares.none_ → s.fm.iftLast = [] →
    ∃ s' t, exec (.rotatingTestStart n) s = .next s' ∧ s'.fm.ift = [t] ∧ t.stick = n ∧ t.start = s.now ∧ t.galley = g ∧
      s'.galleys = s.galleys))

/-- The KEY commands (R526 to R538): KEY_INFO answers the slot's 64 bytes; GEN_PAIR of an empty slot within policy and quota fills it with a
new pair and answers the public part; KEY_ATTEST answers a signed statement over a nonce; ERASE of a destroyed slot empties it and keeps
its generation, and one of a slot in use waits for it; ASSIGN gives an unused slot its owner; a slot that is not ready is refused
with SLOT_PENDING (0x68), KEY_DESTROYED (0x69) or KEY_SLOT (0x6B); without keys every command is refused with KEYLESS (0x6F).

AGREE (R537): with a ready pair and two empty slots within policy and quota, and a valid peer key that is not the pair's own, both slots
hold the two directions of the agreed secret, the smaller public key sending with the first; an invalid peer is refused with KEY_PEER (0x6E).

Key events (R516, R520, R530 to R533): a pending key is committed once its slot is unused; TAMPER_N destroys every key, the zone and the root, latches,
and counts one; PROT_LOCK sets the lock once the first firmware stage runs, and it stays set. -/
def Obligations.KeyCommands : Prop :=
  (∀ (s : State) (q : Nat) (x : QueueSt) (c : Cmd),
    (s.StartsKey q 0 64 x c → cmdArg c = 0 → exec (.keyInfo q) s = .next (State.settle (s.keyOut q x c (s.slotBytes (cmdObj c) true)))) ∧
    (∀ n o r d, s.StartsKey q 1 96 x c → n = cmdObj c → o = cmdArg c → o < 256 → s.needEmpty n = none → (s.inst o).state = .enabled →
      bit s.sec.prot.keyPolicy 1 = true → s.ownedSlots o + 1 ≤ s.maxSlots → r = s.draw 384 → d = r.1 % (p384Order - 1) + 1 →
      exec (.genPair q) s = .next (State.settle ((r.2.fillSlot n 2 2 2 (some o) d none).keyOut q x c (toBE 96 (ecPublic d))))) ∧
    (∀ l s1, s.StartsKey q 2 352 x c → cmdArg c = 0 → s.needReady (cmdObj c) = none → s.BufferIs q x c 32 l s1 →
      exec (.keyAttest q) s = .next (State.settle ((s1.keyStatement (cmdObj c) l).2.keyOut q x c (s1.keyStatement (cmdObj c) l).1))) ∧
    (∀ st d, s.StartsKey q 2 352 x c → cmdArg c = 0 → s.needReady (cmdObj c) = some (st, d) →
      exec (.keyAttest q) s = .next (State.settle (s.refuse q c.no st d))) ∧
    (∀ n, s.StartsKey q 4 0 x c → cmdArg c = 0 → n = cmdObj c → s.assignable n = true →
      ((s.kslot n).state = .destroyed → exec (.erase q) s =
        .next (State.settle (State.succeed (s.modSlot n (fun k => { KSlot.zero with gen := k.gen })) q c.no 0))) ∧
      ((s.kslot n).state = .ready → exec (.erase q) s =
        .next (State.settle ((s.begin_ q c.no).pendSlot n ⟨0, 0, none, 0, true, .cmd q c.no⟩))) ∧
      ((s.kslot n).state = .pending → exec (.erase q) s = .next (State.settle (s.refuse q c.no 0x68 n)))) ∧
    (∀ n, s.StartsKey q 5 0 x c → cmdArg c < 256 → n = cmdObj c → s.assignable n = true → s.needReady n = none → (s.kslot n).uses = 0 →
      s.slotNamed n = false → (s.inst (cmdArg c)).state ≠ .off → exec (.assign q) s =
        .next (State.settle (State.succeed (s.modSlot n (fun k => { k with owner := some (cmdArg c) })) q c.no 0))) ∧
    (∀ sid secret b a k u, s.StartsKey q 6 0 x c → within 1 7 (cmdArg c) = true →
      (tget s.sec.spdm (cmdObj c)).bind (fun y => y.session) = some (sid, secret, b) → s.ownedSlots (cmdObj c) + 2 ≤ s.maxSlots →
      s.deriveBce (cmdObj c) (cmdArg c) sid secret = some (a, k, u) →
      exec (.sessionKeys q) s = .next (State.settle (u.succeed q c.no (k * 256 + a)))) ∧
    (s.Starts q 0x44 x c → subIs 0 c = true → cmdArg c = 0 → 64 ≤ cmdLen c → s.sec.keyless = true →
      exec (.keyInfo q) s = .next (State.settle (s.refuse q c.no 0x6F 0)))) ∧
  (∀ (s s1 : State) (q n tx rx own peer z : Nat) (x : QueueSt) (c : Cmd) (l ctx : List Byte), s.StartsKey q 3 96 x c → n = cmdObj c →
    cmdArg c < 65536 → tx = cmdArg c % 256 → rx = cmdArg c / 256 → s.needReady n = none → (s.kslot n).attr = 2 → (s.kslot n).typ = 2 →
    s.needEmpty tx = none → s.needEmpty rx = none → tx ≠ rx → bit s.sec.prot.keyPolicy 1 = true →
    s.ownedSlots ((s.kslot n).owner.getD 0) + 2 ≤ s.maxSlots → s.BufferIs q x c 96 l s1 → peer = beNat l →
    own = ecPublic (s.kslot n).key →
    ((ecValid peer = false ∨ peer = own) → exec (.agree q) s = .next (State.settle (s1.refuse q c.no 0x6E 0))) ∧
    (ecValid peer = true → peer ≠ own → z = ecShared (s.kslot n).key peer →
      ctx = toBE 96 (min own peer) ++ toBE 96 (max own peer) →
      (own < peer → exec (.agree q) s = .next (State.settle (State.succeed
        ((s1.fillSlot tx 2 1 4 (s.kslot n).owner (kdf (toBE 48 z) "OTM-QUIRE-LH" ctx 256) none).fillSlot rx 2 1 4 (s.kslot n).owner
          (kdf (toBE 48 z) "OTM-QUIRE-HL" ctx 256) none) q c.no 0))) ∧
      (peer < own → exec (.agree q) s = .next (State.settle (State.succeed
        ((s1.fillSlot tx 2 1 4 (s.kslot n).owner (kdf (toBE 48 z) "OTM-QUIRE-HL" ctx 256) none).fillSlot rx 2 1 4 (s.kslot n).owner
          (kdf (toBE 48 z) "OTM-QUIRE-LH" ctx 256) none) q c.no 0))))) ∧
  ((∀ (s : State) (n : Nat) (p : KPend), (s.kslot n).pend = some p → (s.kslot n).state = .pending → (s.kslot n).uses = 0 →
    (p.erase = true → exec (.keySlotCommit n) s =
      .next (State.settle (State.answer (s.modSlot n (fun k => { KSlot.zero with gen := k.gen })) p.waiter 0 0 0))) ∧
    (p.erase = false → exec (.keySlotCommit n) s = .next (State.settle (State.answer
      ((s.fillSlot n p.attr 1 p.origin p.owner p.key none).renonce n) p.waiter 0 0 0)))) ∧
  (∀ (s : State), s.bnd.tamperLow = false → s.powered = false → ∃ u : State, exec .tamperN s = .next u.settle ∧ u.sec.slots = [] ∧
    u.sec.zone = none ∧ u.sec.root = 0 ∧ u.sec.keyless = true ∧ u.sec.tamperLatch = true ∧ u.mgmt.sessions = [] ∧ u.bnd.tamperLow = true) ∧
  (∀ (s : State), s.bnd.tamperLow = true → exec .tamperN s = .next s) ∧
  (∀ (s : State), s.powered = true →
    (1 ≤ s.sec.prot.stage → exec .protLock s = .next { s with sec := { s.sec with prot := { s.sec.prot with lock := true } } }) ∧
    (s.sec.prot.stage = 0 → exec .protLock s = .next s)))

/-- Negotiation and identity (R541 to R543): GET_VERSION answers 1.2 and 1.3 and forgets the negotiation; GET_CAPABILITIES of either version is kept,
another is answered with an error; NEGOTIATE_ALGORITHMS follows them; certificates, digests, challenges and measurements are answered
once algorithms are negotiated, and a request before them is answered UnexpectedRequest (4).

Sessions (R541, R544): KEY_EXCHANGE with no session opens one that is not yet finished, outside the Exclusive profile without keys of its own; FINISH
finishes it once; HEARTBEAT, KEY_UPDATE and END_SESSION act in a finished session, END_SESSION empties its slots; outside a
session they are answered SessionRequired (0x0B); the owner's slot takes a certificate chain from a finished session of the PF only. -/
def Obligations.SpdmMessages : Prop :=
  ((∀ (s : State) (i : Nat), s.doeUp i = true →
    exec (.getVersion i) s =
      .next ((s.modSpdm i (fun x => { x with version := 0, caps := false, algs := false })).spdmSend i 0x04 [0x12, 0x13]) ∧
    (∀ v, v = 0x12 ∨ v = 0x13 → exec (.getCapabilities i v) s =
      .next ((s.modSpdm i (fun x => { x with version := v, caps := true, algs := false })).spdmSend i 0x61 (toLE 1 v))) ∧
    (∀ v, v ≠ 0x12 → v ≠ 0x13 → exec (.getCapabilities i v) s = .next (s.spdmError i 0x41)) ∧
    ((s.spdm i).caps = true → exec (.negotiateAlgorithms i) s = .next ((s.modSpdm i (fun x => { x with algs := true })).spdmSend i 0x63 [])) ∧
    ((s.spdm i).caps = false → exec (.negotiateAlgorithms i) s = .next (s.spdmError i 0x04)) ∧
    exec (.spdmUnsupportedRequest i) s = .next (s.spdmError i (if s.sec.keyless then 0x05 else 0x07)) ∧
    (s.sec.keyless = false → (s.spdm i).algs = false → exec (.getDigests i) s = .next (s.spdmError i 0x04))) ∧
  (∀ (s : State) (i : Nat), s.SpdmServes i →
    exec (.getDigests i) s = .next (s.spdmSend i 0x01 (toLE 1 ((((List.range 2).filter s.certShown).map (fun k => 2 ^ k)).sum) ++
      ((List.range 2).filter s.certShown).flatMap (fun k => toBE 48 (sha384 (s.certChain k))))) ∧
    (∀ slot off n, s.certShown slot = true → off ≤ (s.certChain slot).length → ∀ l, l = ((s.certChain slot).drop off).take n →
      exec (.getCertificate i slot off n) s = .next (s.spdmSend i 0x02
        (toLE 2 l.length ++ toLE 2 ((s.certChain slot).length - off - l.length) ++ l))) ∧
    (∀ slot req, s.certShown slot = false → exec (.challenge i slot req) s = .next (s.spdmError i 0x01)) ∧
    (∀ slot req f, s.certShown slot = true → f = toLE 1 slot ++ toBE 48 (sha384 (s.certChain slot)) ++ toBE 32 (s.draw 256).1 ++
        toBE 48 (sha384 (s.measBlocks.flatMap (fun b => b))) →
      exec (.challenge i slot req) s = .next (((s.draw 256).2.signDik (req ++ f)).2.spdmSend i 0x03
        (f ++ ((s.draw 256).2.signDik (req ++ f)).1))) ∧
    (∀ req, exec (.getMeasurements i 0 false req) s = .next (s.spdmSend i 0x60 (toLE 1 8))) ∧
    (∀ op sg req, 8 < op → op ≠ 0xFF → exec (.getMeasurements i op sg req) s = .next (s.spdmError i 0x01)) ∧
    (∀ req, exec (.getCsr i req) s = .next ((s.signDik (toBE 96 s.dikPublic ++ req)).2.spdmSend i 0x6D
      (toBE 96 s.dikPublic ++ req ++ (s.signDik (toBE 96 s.dikPublic ++ req)).1))))) ∧
  (∀ (s : State) (i : Nat), s.SpdmServes i →
    (∀ reqId req d sid secret, (s.spdm i).session = none → s.spdmSessions < 64 → s.exclusive = false → d = s.draw 16 →
      sid = reqId % 65536 + d.1 * 65536 → secret = Config.spdmSecret d.2.fresh req →
      ∀ t : State, t = { d.2 with fresh := d.2.fresh + 1 } → t.exclusive = false →
      exec (.keyExchange i reqId req) s = .next (((t.signDik req).2.modSpdm i (fun x =>
        { x with session := some (sid, secret, false), updates := 0 })).spdmSend i 0x64 (toLE 4 sid ++ (t.signDik req).1))) ∧
    ((s.spdm i).session.isSome → ∀ reqId req, exec (.keyExchange i reqId req) s = .next (s.spdmError i 0x0A)) ∧
    (∀ sid secret, (s.spdm i).session = some (sid, secret, false) → exec (.spdmFinish i) s =
      .next ((s.modSpdm i (fun x => { x with session := some (sid, secret, true) })).spdmSend i 0x65 [])) ∧
    ((s.spdm i).session = none → exec (.spdmFinish i) s = .next (s.spdmError i 0x0B) ∧ exec (.heartbeat i) s = .next (s.spdmError i 0x0B) ∧
      exec (.endSession i) s = .next (s.spdmError i 0x0B)) ∧
    (∀ sid secret, (s.spdm i).session = some (sid, secret, true) →
      exec (.heartbeat i) s = .next (s.spdmSend i 0x68 []) ∧
      (∀ op, 1 ≤ op → op ≤ 3 → exec (.keyUpdate i op) s = .next ((s.modSpdm i (fun x =>
        { x with updates := if op = 3 then x.updates else x.updates + 1 })).spdmSend i 0x69 (toLE 1 op))) ∧
      exec (.endSession i) s = .next ((((s.spdmSend i 0x6C []).emptySession i).modSpdm i (fun x =>
        { x with session := none, updates := 0 })).settle) ∧
      (∀ chain, i = 0 → chain.length ≤ 0x20000 → s.bnd.store.fault = false → exec (.setCertificate i 1 true chain) s =
        .next (((s.flashErase (certAddr 1) 0x20000).flashWrite (certAddr 1) chain).spdmSend i 0x6E (toLE 1 1)))) ∧
    (∀ slot sec chain, i ≠ 0 → exec (.setCertificate i slot sec chain) s = .next (s.spdmError i 0x07)))

/-- The management link (R558, R559, R581, R582): an interrupt of the MAC-PHY that it answers leaves it in service; a second after it was given up, a reset
decides whether it serves again; a neighbour solicitation for the block's address is answered; telemetry goes out once its period has passed, and so does the
beacon, once a second, while PWRCYC is requested.

Management sessions (R561 to R565): a well-formed HELLO with a valid public key, while a slot is free and fewer than 16 came in the last second, opens a
handshake and is answered with a signed HELLO; a FINISH signed by an operator key within a second opens the session with the derived keys; a RECORD of an open session that is
newer than every earlier one and authentic is executed; a handshake ends after a second, an idle session after its timeout. -/
def Obligations.ManagementSessions : Prop :=
  (∀ s : State,
    (∀ ok, s.mgmtUp = true → s.mgmt.macPhy = true → exec (.mgtIrq ok) s = .next (s.phyControl ok)) ∧
    (∀ ok, s.mgmtUp = true → s.mgmt.macPhy = false → s.mgmt.phyRetry + second ≤ s.now → ∀ m,
      m = { s.mgmt with macPhy := ok, phyFails := if ok then 0 else s.mgmt.phyFails, phyRetry := s.now } →
      exec (.macphyRetry ok) s = .next { s with mgmt := m }) ∧
    (∀ mac src, s.mgmtUp = true → s.mgmt.macPhy = true →
      exec (.neighbourSolicitation mgtAddress mac src) s = .next { s with out := s.out ++ [.mgt (neighbourReply mac src)] }) ∧
    (∀ target mac src, target ≠ mgtAddress → exec (.neighbourSolicitation target mac src) s = .next s) ∧
    (∀ ms, ms = s.objNat (okey 0x8000 1) 0 → s.up = true → ms ≠ 0 → s.mgmt.lastTelemetry + ms * 100000 ≤ s.now →
      exec .telemetryTick s = .next (State.notify { s with mgmt := { s.mgmt with lastTelemetry := s.now } } 6 s.telemetry)) ∧
    (∀ l g u, s.mgmtUp = true → s.bnd.pwrcyc = true → s.mgmt.lastBeacon + second ≤ s.now →
      l = toLE 8 Config.serial ++ toLE 4 s.fm.boot ++ toLE 2 s.mgmt.beaconCode ++ toLE 8 s.mgmt.beaconTick →
      g = (if s.sec.keyless then (toLE 96 0, s) else s.signDik l) →
      u = State.sendDatagram { g.2 with mgmt := { g.2.mgmt with lastBeacon := g.2.now } } 0 5 (apgusHeader 5 0 0 ++ l ++ g.1) →
      exec .beacon s = .next (u.notify 1 (toLE 2 u.mgmt.beaconCode ++ toLE 4 u.fm.boot ++ toLE 8 u.mgmt.beaconTick))) ∧
    (s.bnd.pwrcyc = false → exec .beacon s = .next s)) ∧
  (∀ s : State,
    (∀ l slot recent body no nonce e d head sig, s.mgmtUp = true → s.mgmt.macPhy = true → s.freeSessionSlot = some slot → apgusOk l 1 = true →
      field l 4 4 = 0 → field l 8 8 = 0 → l.length = 152 → s.sec.keyless = false →
      recent = s.mgmt.hellos.filter (fun t => decide (s.now < t + second)) → recent.length < 16 →
      body = l.drop 16 → ecValid (beField body 40 96) = true → no = s.sessionNo → nonce = no.2.draw 256 → e = nonce.2.draw 384 →
      d = e.1 % (p384Order - 1) + 1 → head = toBE 32 nonce.1 ++ toBE 96 (ecPublic d) →
      sig = e.2.signDik (body ++ head ++ toLE 4 no.1 ++ toLE 8 Config.serial) →
      ∀ (x : SessSt) (u : State), x = ⟨false, field body 0 1, 0, slot, sha384 (body ++ (head ++ sig.1)), ecShared d (beField body 40 96),
        sig.2.now, 0, 0, 0, [], none⟩ →
      u = { sig.2 with mgmt := { sig.2.mgmt with sessions := tput sig.2.mgmt.sessions no.1 x, hellos := recent ++ [sig.2.now] } } →
      exec (.hello l) s = .next (u.sendDatagram no.1 2 (apgusHeader 2 no.1 0 ++ (head ++ sig.1)))) ∧
    (∀ l, s.mgmtUp = true → s.mgmt.macPhy = true → apgusOk l 1 = false → exec (.hello l) s = .next s.helloFail) ∧
    (∀ l x k, s.mgmtUp = true → s.mgmt.macPhy = true → apgusOk l 3 = true → field l 8 8 = 0 → l.length = 112 →
      tget s.mgmt.sessions (field l 4 4) = some x → x.opened = false → s.now ≤ x.since + second → s.sec.keyless = false →
      tget s.mgmt.opKeys x.entry = some k → k.role ≠ 0 → k.pub ≠ 0 → ecdsaVerify k.pub x.digest (beField l 16 96) = true →
      exec (.apgusFinish l) s = .next ((s.fillSlot x.slot 3 1 3 none (kdf (toBE 48 x.z) "APGUS-SESSION" (toBE 48 x.digest) 512) none).modSess (field l 4 4)
        (fun y => { y with opened := true, role := k.role, z := 0, since := s.now }))) ∧
    (∀ n x, tget s.mgmt.sessions n = some x → x.opened = false → x.since + second < s.now →
      exec (.handshakeTimeout n) s = .next { s with mgmt := { s.mgmt with sessions := tdel s.mgmt.sessions n } }) ∧
    (∀ l x m, s.mgmtUp = true → s.mgmt.macPhy = true → tget s.mgmt.sessions (field l 4 4) = some x → apgusOk l 4 = true → x.opened = true →
      x.lastIn < field l 8 8 → 32 ≤ l.length →
      gcmDecrypt ((s.kslot x.slot).key / 2 ^ 256) (field l 8 8) (l.take 16) ((l.drop 16).take (l.length - 32)) (l.drop (l.length - 16)) = some m →
      exec (.record l) s = .next (((s.modSess (field l 4 4) (fun y => { y with lastIn := field l 8 8, since := s.now })).message
        (.session (field l 4 4)) m).settle)) ∧
    (∀ l x, s.mgmtUp = true → s.mgmt.macPhy = true → tget s.mgmt.sessions (field l 4 4) = some x → field l 8 8 ≤ x.lastIn →
      exec (.record l) s = .next s.recordDrop) ∧
    (∀ n x, tget s.mgmt.sessions n = some x → x.opened = true → x.since + s.objNat (okey 0x1001 5) 300 * second ≤ s.now →
      exec (.sessionIdleTimeout n) s = .next (s.endSession n)) ∧
    (s.up = true ∨ s.bnd.power = .safe → exec .mbxGo s = .next ((s.message .mailbox (mread s.mgmt.mbx.req 0 1008)).settle)))

/-- The operations on objects (R565, R567 to R569): GET answers the value of a readable object that fits a message, and the status why it may not be read; SET applies a value that may be
written and answers OK, or the status of the effect's refusal, or later; INFO describes an object that is served; the blob
operations move chunks; SUBSCRIBE keeps the mask; CLOSE answers and ends the session; both are refused (ROLE, 3) in the mailbox. -/
def Obligations.DictionaryRequests : Prop :=
  ∀ (s : State) (r : Requester) (tag i sub : Nat) (t : State),
    (s.Takes r 1 tag i sub t → t.accessFail r i sub false = none → (t.readObj i sub r.isMbx).length ≤ r.room →
      exec (.get r tag i sub) s = .next ((t.reply r 1 tag i sub 0 false (t.readObj i sub r.isMbx)).afterRead i)) ∧
    (∀ st, s.Takes r 1 tag i sub t → t.accessFail r i sub false = some st → st ≠ 2 →
      exec (.get r tag i sub) s = .next (t.reply r 1 tag i sub st false [])) ∧
    (∀ v o u after, s.Writes r tag i sub v o t → t.setValue r 2 tag i sub o v = .done u after →
      exec (.set r tag i sub v) s = .next (after (u.reply r 2 tag i sub 0 false [])).settle) ∧
    (∀ v o st, s.Writes r tag i sub v o t → t.setValue r 2 tag i sub o v = .fail st →
      exec (.set r tag i sub v) s = .next (t.notWrote r tag i sub st)) ∧
    (∀ v o u, s.Writes r tag i sub v o t → t.setValue r 2 tag i sub o v = .wait u → exec (.set r tag i sub v) s = .next u.settle) ∧
    (∀ v st, s.Takes r 2 tag i sub t → t.accessFail r i sub true = some st → exec (.set r tag i sub v) s = .next (t.notWrote r tag i sub st)) ∧
    (∀ o a, s.Takes r 3 tag i sub t → objInfo i sub = some o → t.served i = true → (r.isMbx = true → o.h = true) →
      a = (match o.acc with | .ro => 0 | .rw => 1 | .wo => 2 | .const => 3 | .rwl => 4) →
      exec (.apgusInfo r tag i sub) s = .next (t.reply r 3 tag i sub 0 false
        (Config.infoEncode ([a, o.role, b2n o.h, b2n o.pers, o.lo, o.hi] ++ o.ty.facts) o.dflt))) ∧
    (s.Takes r 3 tag i sub t → objInfo i sub = none → exec (.apgusInfo r tag i sub) s = .next (t.reply r 3 tag i sub 1 false [])) ∧
    (∀ o off len d, s.Takes r 4 tag i sub t → len ≤ r.chunk → t.accessFail r i sub false = none → objInfo i sub = some o → o.ty.isBlob = true →
      d = ((t.readObj i sub r.isMbx).drop off).take len →
      exec (.blobRead r tag i sub off len) s = .next ((t.reply r 4 tag i sub 0 false (toLE 4 off ++ toLE 2 d.length ++ d)).afterRead i)) ∧
    (∀ o d, s.Takes r 5 tag i sub t → d.length ≤ r.chunk → t.accessFail r i sub true = none → objInfo i sub = some o → o.ty.isBlob = true →
      t.blobBusy r i sub = false →
      exec (.blobWrite r tag i sub false 0 d) s = .next ((t.setBlob r (some ⟨i, sub, d⟩)).reply r 5 tag i sub 0 false []).settle ∧
      exec (.blobWrite r tag i sub true 0 d) s = .next ((t.setBlob r none).doSet r 5 tag i sub d).settle ∧
      (∀ l, l ≠ [] → t.blobOf r = some ⟨i, sub, l⟩ →
        exec (.blobWrite r tag i sub true l.length d) s = .next ((t.setBlob r none).doSet r 5 tag i sub (l ++ d)).settle)) ∧
    (∀ n mask, r = .session n → s.Takes r 6 tag 0 0 t →
      exec (.subscribe r tag mask) s = .next ((t.modSess n (fun x => { x with mask := mask })).reply r 6 tag 0 0 0 false [])) ∧
    (∀ n, r = .session n → s.Takes r 7 tag 0 0 t → exec (.close r tag) s = .next ((t.reply r 7 tag 0 0 0 false []).endSession n)) ∧
    (∀ mask, s.Takes .mailbox 6 tag 0 0 t → exec (.subscribe .mailbox tag mask) s = .next (t.reply .mailbox 6 tag 0 0 3 false [])) ∧
    (s.Takes .mailbox 7 tag 0 0 t → exec (.close .mailbox tag) s = .next (t.reply .mailbox 7 tag 0 0 3 false []))

/-- R583: in management-only safe mode sessions and the host mailbox are served for ranges 0x1000, 0x2020, 0x4000, 0x5000 and 0x9000 only; every other object answers
UNAVAILABLE (0x09); RESET_REQ remains available. -/
def Obligations.SafeModeObjects : Prop :=
  ∀ s : State, s.bnd.power = .safe →
    s.mgmtUp = true ∧
    (∀ i, s.served i = true ↔ (0x1000 ≤ i ∧ i < 0x2000) ∨ i = 0x2020 ∨ (0x4000 ≤ i ∧ i < 0x6000) ∨ (0x9000 ≤ i ∧ i < 0xA000)) ∧
    (∀ r i sub w o, objInfo i sub = some o → s.served i = false → s.accessFail r i sub w = some 0x09) ∧
    (∀ tag i sub o, objInfo i sub = some o → s.served i = false →
      exec (.get .mailbox tag i sub) s = .next (s.reply .mailbox 1 tag i sub 0x09 false [])) ∧
    s.served 0x2020 = true ∧
    (∀ tag x, x = 1 ∨ x = 2 ∨ x = 3 → ∀ n sess t, tget s.mgmt.sessions n = some sess → sess.role = 3 →
      s.Takes (.session n) 2 tag 0x2020 1 t → ∃ u, exec (.set (.session n) tag 0x2020 1 [BitVec.ofNat 8 x]) s = .next u ∧
        u = (if x = 1 then (t.reply (.session n) 2 tag 0x2020 1 0 false []).triggerWarm
          else if x = 2 then (t.reply (.session n) 2 tag 0x2020 1 0 false []).triggerCold
          else (t.reply (.session n) 2 tag 0x2020 1 0 false []).requestPowerCycle 0).settle)

/-- Objects that act when written (R401, R485, R538, R539, R566, R573 to R575, R588): a connection is opened and closed through STATE, NEXT_PROFILE keeps the
choice, quota objects set quotas, RESET_REQ answers before it acts and takes the Owner role for cold and power cycle, acknowledged alert causes are cleared, a held forme is
released, a stack is trained, the wall clock is set, keys are installed in an empty slot and the first owner key is claimed.

PROFILE commands (R575, R576): SELECT keeps a profile for the next warm start unless its power cap or domain count is not allowed, CANCEL forgets it, READ
returns the profiles, SET_CUSTOM takes two or four domains and stores them; any other count is refused (0x70). -/
def Obligations.ObjectWrites : Prop :=
  (∀ (s : State) (r : Requester) (tag : Nat) (o : Obj) (t : State),
    (∀ c, c < 1024 → s.Writes r tag (0x1400 + c) 1 [1] o t →
      (t.openOk c = true → exec (.connectionOpen r tag c) s = .next ((t.openConn c).wrote r tag (0x1400 + c) 1)) ∧
      (t.openOk c = false → exec (.connectionOpen r tag c) s = .next (t.notWrote r tag (0x1400 + c) 1 6))) ∧
    (∀ c, c < 1024 → s.Writes r tag (0x1400 + c) 1 [0] o t →
      exec (.connectionDisable r tag c) s = .next ((if thas t.net.conns c then t.closeConn c else t).wrote r tag (0x1400 + c) 1)) ∧
    (∀ p, p < 256 → s.Writes r tag 0x2000 2 (toLE 1 p) o t →
      exec (.nextProfile r tag p) s = .next (State.wrote { t with mgmt := { t.mgmt with nextProfile := p } } r tag 0x2000 2)) ∧
    (∀ i sub v k m x d, i < 256 → 0x11 ≤ sub → s.Writes r tag (0x6100 + i) sub v o t → (t.inst i).state ≠ .off → (t.inst i).state ≠ .resetting →
      t.quotaOf i sub (leNat v) = some (k, m, x, d) → quotaFail k m x d = none →
      exec (.quotaObjectWrite r tag i sub v) s = .next ((t.setQuota k i m x d).wrote r tag (0x6100 + i) sub)) ∧
    (s.Writes r tag 0x2020 1 [1] o t → exec (.resetReqWarm r tag) s = .next ((t.reply r 2 tag 0x2020 1 0 false []).triggerWarm).settle) ∧
    (s.Writes r tag 0x2020 1 [2] o t → t.roleOf r = 3 →
      exec (.resetReqCold r tag) s = .next ((t.reply r 2 tag 0x2020 1 0 false []).triggerCold).settle) ∧
    (s.Writes r tag 0x2020 1 [3] o t → t.roleOf r = 3 →
      exec (.resetReqPowerCycle r tag) s = .next ((t.reply r 2 tag 0x2020 1 0 false []).requestPowerCycle 0).settle) ∧
    (s.Writes r tag 0x2020 1 [2] o t → t.roleOf r ≠ 3 → exec (.resetReqCold r tag) s = .next (t.notWrote r tag 0x2020 1 3)) ∧
    (∀ mask left, mask < 2 ^ 32 → s.Writes r tag 0x2030 2 (toLE 4 mask) o t → left = t.mgmt.alert &&& (0xFFFFFFFF ^^^ mask) →
      exec (.alertAck r tag mask) s = .next (State.wrote
        { t with mgmt := { t.mgmt with alert := left }, bnd := { t.bnd with alert := left != 0 } } r tag 0x2030 2)) ∧
    (∀ f, f < 8 → s.Writes r tag (0x4010 + f) 2 [1] o t → (t.forme f).status = .held → (t.stack f).state = .inService →
      exec (.release r tag f) s = .next ((t.formeBack f).wrote r tag (0x4010 + f) 2)) ∧
    (∀ k, k < 8 → s.Writes r tag (0x4020 + k) 1 [1] o t → (t.stack k).state = .out →
      exec (.trainReq r tag k) s = .next ((t.setStack k .training).wrote r tag (0x4020 + k) 1)) ∧
    (∀ ns, ns < 2 ^ 64 → s.Writes r tag 0x7000 2 (toLE 8 ns) o t →
      exec (.wallSet r tag ns) s = .next ((t.wallSet ns).wrote r tag 0x7000 2)) ∧
    (∀ n v, n < 256 → s.Writes r tag (0x5100 + n) 2 v o t → bit t.sec.prot.keyPolicy 0 = true → t.sec.keyless = false → t.assignable n = true →
      (t.inst (field v 33 1)).state ≠ .off → t.ownedSlots (field v 33 1) + 1 ≤ t.maxSlots → (t.kslot n).state = .empty →
      exec (.install r tag n v) s = .next
        ((t.fillSlot n (field v 32 1) 1 5 (some (field v 33 1)) (beField v 0 32) none).wrote r tag (0x5100 + n) 2)) ∧
    (∀ v a b, s.Writes r tag 0x5020 1 v o t → t.mgmt.opKeys.any (fun p => p.2.role == 3) = false →
      t.storePut (okey 0x5010 1) v = some a → a.storePut (okey 0x5010 2) [3] = some b →
      exec (.claim r tag v) s = .next (((b.place (okey 0x5010 1) v).place (okey 0x5010 2) [3]).wrote r tag 0x5020 1)) ∧
    (∀ v u, s.Writes r tag 0x5001 4 v o t → t.storePut (okey 0x5001 4) v = some u →
      exec (.debugToken r tag v) s = .next ((u.place (okey 0x5001 4) v).wrote r tag 0x5001 4))) ∧
  (∀ (s : State) (q : Nat) (x : QueueSt) (c : Cmd), s.Starts q 0x48 x c →
    (subIs 0 c = true → within 400 1200 (leNat (s.stored (0x2100 + cmdObj c) 3)) = true →
      ([1, 2, 4, 8] : List Nat).contains (s.profileDomains (cmdObj c)) = true → exec (.profileSelect q) s = .next (State.settle
        (State.succeed { s with mgmt := { s.mgmt with nextProfile := cmdObj c } } q c.no 0))) ∧
    (subIs 0 c = true → ([1, 2, 4, 8] : List Nat).contains (s.profileDomains (cmdObj c)) = false →
      exec (.profileSelect q) s = .next (State.settle (s.refuse q c.no 0x70 0))) ∧
    (subIs 1 c = true → cmdObj c = 0 →
      exec (.profileCancel q) s = .next (State.settle (State.succeed { s with mgmt := { s.mgmt with nextProfile := 0xFF } } q c.no 0))) ∧
    (subIs 2 c = true → cmdObj c = 0 → 16 ≤ cmdLen c →
      exec (.profileRead q) s = .next (State.settle (s.keyOut q x c s.profileBytes))) ∧
    (∀ u, subIs 3 c = true → cmdObj c = 3 → cmdArg c = 2 ∨ cmdArg c = 4 → s.storePut (okey 0x2103 2) (toLE 1 (cmdArg c)) = some u →
      exec (.setCustom q) s = .next (State.settle ((u.place (okey 0x2103 2) (toLE 1 (cmdArg c))).succeed q c.no 0))) ∧
    (subIs 3 c = true → cmdObj c = 3 → cmdArg c ≠ 2 → cmdArg c ≠ 4 →
      exec (.setCustom q) s = .next (State.settle (s.refuse q c.no 0x70 0))))

/-- Mode changes (R578 to R580): a write of a mode object while no change is under way starts one, PREPARE at once and its commit tick 1.5 ms later; a unit
that has not acknowledged by the deadline aborts it with TIMEOUT (8); at the commit tick the value applies and the generation advances by one; the confirmations
answer the writer and make the value persistent, and each unit that failed raises a fault with the generation.

Firmware (R548 to R553): an image is programmed into the inactive slot; VERIFY, STAGE, ACTIVATE and CONFIRM follow one another, each only from the state that
the one before left, CONFIRM and SELECT_FS1 for the Owner; a trial that fails or runs longer than a second goes back to the old half; ABORT ends what is in progress; the
anti-rollback counter commits to the lower of the active images' numbers; a revocation record signed by another signer revokes one. -/
def Obligations.ModeChangesAndFirmware : Prop :=
  (∀ s : State,
    (∀ r tag i sub v o t units k c, s.Writes r tag i sub v o t → s.modeUnits i sub = some units → t.modeUnits i sub = some units →
      t.mgmt.change = none → k = t.capKey i sub → c = (⟨k.1, k.2, v, t.readObj i sub false, t.now, false, r.waiter 2 tag i sub⟩ : ModeChange) →
      ∀ m : MgmtSt, m = { t.mgmt with change := some c, modeState := .preparing, commitTick := t.now + 150000, target := units &&& t.unitsUp, missed := 0 } →
      exec (.modeChange r tag i sub v) s = .next (State.settle { t with mgmt := m })) ∧
    (∀ c missed target u, s.mgmt.change = some c → c.applied = false → c.prepare + 100000 ≤ s.now → target = s.mgmt.target &&& s.unitsUp →
      missed &&& target ≠ 0 →
      ∀ m : MgmtSt, m = { s.mgmt with target := target, missed := missed &&& target, modeState := .aborted } → u = { s with mgmt := m } →
      exec (.prepareDeadline missed) s = .next ((u.answer c.waiter 0 0 8).modeEnded).settle) ∧
    (∀ c u, s.mgmt.change = some c → c.applied = false → c.prepare + 150000 ≤ s.now → u = s.applyMode c.index c.sub c.value →
      ∀ m : MgmtSt, m = { u.mgmt with change := some { c with applied := true }, target := s.mgmt.target &&& s.unitsUp, modeState := .committed, modeGen := u.mgmt.modeGen + 1, modeUse := (s.modeUnits c.index c.sub).getD 0 } →
      exec .modeCommit s = .next { u with mgmt := m }) ∧
    (∀ c, s.mgmt.change = some c → s.now < c.prepare + 150000 → exec .modeCommit s = .next s) ∧
    (∀ c failed bad u v, s.mgmt.change = some c → c.applied = true → bad = failed &&& s.mgmt.target → bad = 0 ∨ c.prepare + 250000 ≤ s.now →
      u = State.answer { s with mgmt := { s.mgmt with applied := (s.mgmt.target &&& (0xFFFFFFFF ^^^ bad)) } } c.waiter 0 0 0 →
      v = ((u.storePut (okey c.index c.sub) c.value).getD u).modeEnded →
      exec (.confirmDeadline failed) s = .next (((List.range 24).filter (fun b => bit bad b)).foldl (fun s b => s.modeFault b)
        (if bad = 0 then v else v.raiseAlert 32)).settle)) ∧
  (∀ (s : State) (r : Requester) (tag : Nat) (o : Obj) (t : State) (x : FwSt), x = t.sec.fw → t.profile < 4 →
    (∀ v a, s.Writes r tag 0x9001 1 v o t → x.inProgress = false → v.length ≤ fwSlotSize x.target → t.bnd.store.fault = false →
      a = fwAddr x.target x.freeSlot →
      exec (.fwImage r tag v) s = .next ((((t.flashErase a (fwSlotSize x.target)).flashWrite a v).modFw
        (fun x => { x with state := .programmed })).wrote r tag 0x9001 1)) ∧
    (s.Writes r tag 0x9001 3 [1] o t → x.trial = none → x.state = .programmed →
      ∀ st : FwState, st = (if !t.sec.keyless && t.fwValid x.target x.freeSlot then .verified else .failed) →
      exec (.verify r tag) s = .next ((t.modFw (fun x => { x with state := st })).wrote r tag 0x9001 3)) ∧
    (s.Writes r tag 0x9001 3 [1] o t → x.trial = none → x.state ≠ .programmed → exec (.verify r tag) s = .next (t.notWrote r tag 0x9001 3 6)) ∧
    (∀ im, s.Writes r tag 0x9001 3 [2] o t → x.trial = none → x.state = .verified → x.target = 2 → im = t.fwImage 2 x.freeSlot →
      toBE 48 im.digest = ((t.fwHeader 2 x.freeSlot).drop 0x20).take 48 →
      exec (.stage r tag) s = .next ((t.modFw (fun x => { x with state := .staged, staged := some im })).wrote r tag 0x9001 3)) ∧
    (s.Writes r tag 0x9001 3 [3] o t → x.trial = none → x.state = .staged → t.mgmt.change = none →
      exec (.activate r tag) s = .next (t.activateNow.wrote r tag 0x9001 3)) ∧
    (s.Writes r tag 0x9001 3 [4] o t → t.roleOf r = 3 → x.trial = none → x.state = .trial → t.bnd.store.fault = false →
      exec (.confirm r tag) s = .next (((t.writeBootsel (fun b => { b with main := x.main.slot })).modFw
        (fun x => { x with state := .idle, old := none })).wrote r tag 0x9001 3)) ∧
    (s.Writes r tag 0x9001 3 [4] o t → t.roleOf r ≠ 3 → exec (.confirm r tag) s = .next (t.notWrote r tag 0x9001 3 3)) ∧
    (s.Writes r tag 0x9001 3 [5] o t → t.roleOf r = 3 → x.trial = none → x.state = .verified → x.target = 1 → t.bnd.store.fault = false →
      exec (.selectFs1 r tag) s = .next (((t.writeBootsel (fun b => { b with fs1 := x.freeSlot, trial := 1 })).modFw
        (fun x => { x with state := .idle })).wrote r tag 0x9001 3)) ∧
    (s.Writes r tag 0x9001 3 [6] o t → x.inProgress = true →
      exec (.fwAbort r tag) s = .next ((t.modFw (fun x => x.back .idle)).wrote r tag 0x9001 3)) ∧
    (s.Writes r tag 0x9002 1 [1] o t → exec (.arbCommit r tag) s = .next (State.wrote
      { t with sec := { t.sec with arb := max t.sec.arb (min x.fs1.svn x.main.svn) } } r tag 0x9002 1)) ∧
    (∀ v k b, s.Writes r tag 0x9002 2 v o t → Config.revocation v = some (k, b) → k < 4 → b < 4 → k ≠ b → t.sec.revoked.contains b = false →
      exec (.fwRevoke r tag v) s = .next (State.wrote { t with sec := { t.sec with revoked := t.sec.revoked.insert k } } r tag 0x9002 2)) ∧
    (∀ b, s.sec.fw.trial = some b → s.now ≤ b + second → exec (.trialEnd true) s = .next (s.modFw (fun x => { x with trial := none }))) ∧
    (∀ b, s.sec.fw.trial = some b → exec (.trialEnd false) s = .next (s.modFw (fun x => x.back .failed))))

/-- Resets and starts (R586, R589 to R593, R604 to R608): POR_N low holds the block in reset; at its release the profile straps are read and a cold start begins, or waits for REFCLK; WARM_N begins a warm
start; a cold start that has its link and its stacks locks the protection set-up and serves in the strapped profile, a warm start in the profile it is to have; a start that failed is
tried again, a third failed warm start as a cold start, and after the third failed cold start the block requests a power cycle in safe mode; without REFCLK nothing runs, and its return
begins a cold start.

Voltages and temperatures (R597 to R602): an acknowledged voltage request is in force, an unanswered one is an island fault after 100 µs; a rail's trip is a fault of its island, of the
block, or of memory at level 4, and of VDD_AON a reset; the mean power of a sample over the cap lowers the pulse ratio, another lets it rise; temperatures set each forme's band, its
coolness and the pulse ratio; a forme's voltage follows its band up at once; THERMTRIP is recorded, requests a power cycle and trips the block. -/
def Obligations.StartsAndPower : Prop :=
  (∀ s : State,
    exec .porNAssert s = .next s.intoReset ∧
    (∀ straps u, s.bnd.porLow = true → u = { s with bnd := { s.bnd with porLow := false, strapPins := straps % 4 } } →
      (s.bnd.refclk = true → exec (.porNRelease straps) s = .next u.beginCold) ∧
      (s.bnd.refclk = false → exec (.porNRelease straps) s = .next (u.setPower .noClock))) ∧
    exec .warmN s = .next s.triggerWarm ∧
    (∀ n u v, s.bnd.power = .starting .cold n → s.linkUp = true → s.trainDone = true →
      u = { s with sec := { s.sec with prot := { s.sec.prot with stage := 2, lock := true } } } → s.sec.fw.sel.trial ≠ 1 →
      v = (u.startSettings (s.bnd.strap % 4)).ledgerStart.serve_ 0 false →
      exec .coldStartDone s = .next (State.settle { v with bnd := { v.bnd with warmFails := 0, coldFails := 0 } })) ∧
    (∀ n u v, s.bnd.power = .starting .warm n → s.linkUp = true → (∀ f, f < 8 → (s.stack f).state ≠ .selfRefresh) →
      u = { s with mgmt := { s.mgmt with nextProfile := if s.mgmt.nextProfile < 4 then 0xFF else s.mgmt.nextProfile } } →
      v = (u.startSettings s.startProfile).warmSlot.serve_ 1 true →
      exec .warmStartDone s = .next (State.settle { v with bnd := { v.bnd with warmFails := 0 } })) ∧
    (∀ b n, s.bnd.power = .starting .warm n → exec (.startFailed b) s = .next { s with bnd := { s.bnd with
      warmFails := s.bnd.warmFails + 1, power := .retry (if s.bnd.warmFails + 1 < 3 then .warm else .cold) s.now } }) ∧
    (∀ b n u, s.bnd.power = .starting .cold n → u = s.trialBack b →
      (∀ v, s.bnd.coldFails + 1 < 3 → v = { u with bnd := { u.bnd with coldFails := s.bnd.coldFails + 1 } } →
        exec (.startFailed b) s = .next (v.keepThroughCold.setPower (.retry .cold (u.now + second)))) ∧
      (∀ v, 3 ≤ s.bnd.coldFails + 1 → v = { u with bnd := { u.bnd with coldFails := s.bnd.coldFails + 1 } } →
        exec (.startFailed b) s = .next ((v.requestPowerCycle 0).enterSafe false))) ∧
    (∀ due, due ≤ s.now →
      (s.bnd.power = .retry .warm due → exec .startRetry s = .next s.beginWarm) ∧
      (s.bnd.power = .retry .cold due → exec .startRetry s = .next s.beginCold)) ∧
    (∀ u, s.bnd.refclk = true → s.bnd.power ≠ .safe → s.bnd.power ≠ .tripped → u = s.keepThroughCold →
      exec .refclkLoss s = .next { u with bnd := { u.bnd with refclk := false, power := if u.bnd.porLow then .inReset else .noClock } }) ∧
    (s.bnd.refclk = false → s.bnd.power = .noClock →
      exec .refclkReturn s = .next (State.beginCold { s with bnd := { s.bnd with refclk := true } })) ∧
    (s.bnd.power ≠ .noClock → exec .refclkReturn s = .next { s with bnd := { s.bnd with refclk := true } })) ∧
  (∀ s : State,
    (∀ f, f < 8 → (vget s.bnd.vri f Vri.boot).req = true →
      exec (.vriAck f) s = .next (s.modVri f (fun x => Vri.next { x with volt := x.code, req := false } s.now)) ∧
      ((vget s.bnd.vri f Vri.boot).reqTick + 10000 ≤ s.now →
        exec (.vriAckTimeout f) s = .next ((s.modVri f (fun x => { x with reqTick := s.now })).islandFault f))) ∧
    (∀ f, f < 8 → s.powered = true → exec (.railTrip (.sort f)) s = .next (s.islandFault f)) ∧
    (s.powered = true → exec (.railTrip .fab) s = .next (s.takeFault { faultOf 0xAFFF with unitType := 0x00 } .block)) ∧
    (s.powered = true → exec (.railTrip .memc) s = .next (State.settle (State.levelFour
      { s with hbm := s.hbm.map (fun (x : StackSt) => { x with lost := true }) } { faultOf 0xAFFF with unitType := 0x00 } true))) ∧
    exec (.railTrip .aon) s = .next s.intoReset ∧
    (∀ mW mean, s.powered = true → s.bnd.drawTick + 1000 ≤ s.now →
      mean = (s.bnd.draws.sum + s.bnd.draws.length / 2) / max 1 s.bnd.draws.length →
      ∀ (b : BndSt) (m : MgmtSt) (u : State), b = { s.bnd with draws := (mW :: s.bnd.draws).take 100, drawTick := s.now, drawSnap := if s.now / 10000000 != s.bnd.drawTick / 10000000 then mean else s.bnd.drawSnap } →
      m = { s.mgmt with energy := s.mgmt.energy + mW * 10000 } → u = { s with bnd := b, mgmt := m } →
      exec (.powerSample mW) s = .next ((if u.bnd.capW * 1000 < mW then u.capDown else u.capUp).throttle)) ∧
    (∀ temps fab b u, s.powered = true → b = { s.bnd with hot := temps.zipIdx.foldl (fun t (p : Int × Nat) => if p.2 < 8 then tput t p.2 p.1 else t) s.bnd.hot, hotFab := fab, fabHot := if 110 ≤ fab then true else if fab < 105 then false else s.bnd.fabHot } →
      u = ((List.range 8).foldl (fun (s : State) f => (s.coolForme f).modVri f (fun x => x.watch f (dieBand (s.hotOf f)) s.now)) { s with bnd := b }).throttle →
      ((∀ f, f < 8 → u.hotPaced f = true → s.hotPaced f = true) → exec (.dieTempRead temps fab) s = .next u) ∧
      (∀ f, f < 8 → u.hotPaced f = true → s.hotPaced f = false → exec (.dieTempRead temps fab) s = .next u.capPacing)) ∧
    (∀ f b x, f < 8 → x = vget s.bnd.vri f Vri.boot → x.valid = true → b = dieBand (s.hotOf f) → x.want < bandCode f b →
      exec (.voltageBandChange f) s = .next (s.modVri f (fun x => x.aim f b s.now))) ∧
    (∀ u, s.bnd.power ≠ .inReset → s.bnd.power ≠ .tripped → u = { s with bnd := { s.bnd with trip := true } } →
      exec .thermtrip s = .next (((u.fault { faultOf 0xD004 with unitType := 0x00, level := 5 } []).requestPowerCycle 0xD004).enterSafe true)))

/-- Flash operations (R611 to R618): a command puts its operation in progress; at its end READ has filled the buffer, PROGRAM has written a
blank range that is not protected, ERASE_4K an unprotected sector, and BLANK_CHECK tells whether the range is erased; a protected range ends with PROTECTED (2),
an address out of range with 3, an operation over its time with 4; compaction moves the live records to the other area.

Unit and link faults (R473 to R475, R497): a fault of a galley, stick, platen or controller in service is handled at its unit, one of the host port or the control units at the block; the first fault of a
fabric link takes its spare lane and is recorded, the next is a fault of its galley, forme or the block; an opcode that the tables do not list
raises ILLEGAL_INSTR or COMP_ILLEGAL; a port comes up; the deassertion of TAMPER_N lets a waiting start go on. -/
def Obligations.FlashAndFaultEvents : Prop :=
  (∀ s : State,
    (∀ addr len, exec (.fpRead addr len) s = .next (s.fpCommand 1 addr len) ∧
      exec (.fpErase4k addr len) s = .next (s.fpCommand 3 addr len) ∧
      exec (.fpBlankCheck addr len) s = .next (s.fpCommand 4 addr len) ∧
      exec (.fpResetDevice len) s = .next (s.fpCommand 5 s.bnd.fp.addr len)) ∧
    (∀ addr data, s.powered = true → exec (.fpProgram addr data) s =
      .next ((s.modFp (fun x => { x with buf := mwrite x.buf 0 (data.take 4096) })).fpCommand 2 addr data.length)) ∧
    (∀ op addr len e, s.bnd.fp.busy = some (op, addr, len) → fpRange op addr len = true → exec (.fpOperationDone e) s = .next (s.fpEnd 3)) ∧
    (∀ addr len e, s.bnd.fp.busy = some (1, addr, len) → fpRange 1 addr len = false → exec (.fpOperationDone e) s =
      .next (State.fpEnd (s.modFp (fun x => { x with buf := mwrite x.buf 0 (s.flashRead addr len) })) 0)) ∧
    (∀ addr len e, s.bnd.fp.busy = some (2, addr, len) → fpRange 2 addr len = false →
      (s.fpProtected addr len = true → exec (.fpOperationDone e) s = .next (s.fpEnd 2)) ∧
      (s.fpProtected addr len = false → s.erased addr len = false → exec (.fpOperationDone e) s = .next (s.fpEnd 1)) ∧
      (s.fpProtected addr len = false → s.erased addr len = true → exec (.fpOperationDone e) s = .next (s.fpWrite addr len e))) ∧
    (∀ addr len e, s.bnd.fp.busy = some (3, addr, len) → fpRange 3 addr len = false →
      (s.fpProtected addr 4096 = true → exec (.fpOperationDone e) s = .next (s.fpEnd 2)) ∧
      (s.fpProtected addr 4096 = false → e ≠ .device → exec (.fpOperationDone e) s =
        .next (((s.flashErase addr 4096).fpSelect addr).fpEnd 0))) ∧
    (∀ addr len e, s.bnd.fp.busy = some (4, addr, len) → fpRange 4 addr len = false →
      exec (.fpOperationDone e) s = .next (s.fpEnd (if s.erased addr len then 0 else 1))) ∧
    (∀ op addr len n, s.bnd.fp.busy = some (op, addr, len) → fpLimit op addr len = some n →
      (s.bnd.fp.began + n < s.now → exec .fpTimeout s = .next (s.fpEnd 4)) ∧ (s.now ≤ s.bnd.fp.began + n → exec .fpTimeout s = .next s)) ∧
    (∀ x recs y, x = s.bnd.store → x.compacting = true → s.powered = true → x.fault = false →
      recs = (readLog (fun pos n => s.flashRead (areaBase x.area + pos) n) 65536 64 0 []).1 →
      y = (s.flashErase (areaBase (1 - x.area)) areaSize).putRecords (1 - x.area) (recs.map (fun p => (p.1, p.2.2))) 64 x.seq →
      ∀ u, u = y.1.flashWrite (areaBase (1 - x.area)) (areaHeader ((x.areaSeq + 1) % 2 ^ 32)) →
      exec .storeCompaction s = .next { u with bnd := { u.bnd with
        store := ⟨1 - x.area, (x.areaSeq + 1) % 2 ^ 32, y.2.1, y.2.2, false, x.fault⟩ } })) ∧
  (∀ s : State,
    (s.up = true →
      (∀ g, g < 64 → s.galleyUp g = true → exec (.unitFault (.galley g)) s =
        .next (s.takeFault { faultOf 0x7FFF with unitType := 0x03, logical := g, phys := s.physGalley g } (.galley g))) ∧
      (∀ g j, g < 64 → j < 16 → s.galleyUp g = true → exec (.unitFault (.stick g j)) s = .next (s.stickFault g j)) ∧
      (∀ f, f < 8 → (s.forme f).status = .inService →
        exec (.unitFault (.platen f)) s = .next (s.takeFault { faultOf 0x8001 with unitType := 0x04, logical := f, phys := f } (.forme f)) ∧
        exec (.unitFault (.controller f)) s = .next (s.takeFault { faultOf 0x8002 with unitType := 0x05, logical := f, phys := f } (.forme f))) ∧
      exec (.unitFault .hostPort) s = .next (s.takeFault { faultOf 0xA003 with unitType := 0x08 } .block) ∧
      (∀ t, t < 16 → exec (.unitFault (.control t)) s = .next (s.takeFault { faultOf 0xA002 with unitType := t } .block)) ∧
      (∀ t, t < 17 → exec (.unitFault (.other t)) s = .next (s.takeFault { faultOf 0xAFFF with unitType := t } .block)) ∧
      (∀ k group central u, k < 85 → s.fm.linkSpared.contains k = false → u = { s with fm := { s.fm with linkSpared := s.fm.linkSpared ++ [k] } } →
        exec (.fabricLinkFault k group central) s = .next ((u.fault { faultOf 0x5007 with unitType := 0x06, logical := k, phys := k, info0 := group } []).oversLow
          0x06 k 5 0 (85 - (u.fault { faultOf 0x5007 with unitType := 0x06, logical := k, phys := k, info0 := group } []).fm.linkSpared.length))) ∧
      (∀ k group central, k < 64 → s.fm.linkSpared.contains k = true → exec (.fabricLinkFault k group central) s =
        .next (s.takeFault { faultOf 0x7FFF with unitType := 0x06, logical := k, phys := s.physGalley k } (.galley k))) ∧
      (∀ k group f, 64 ≤ k → k < 85 → s.fm.linkSpared.contains k = true → linkForme k = some f → exec (.fabricLinkFault k group false) s =
        .next (s.takeFault { faultOf 0x8003 with unitType := 0x06, logical := f, phys := k, info0 := k } (.forme f))) ∧
      (∀ p, s.portExists p = true → exec (.portLinkUp p) s = .next (s.modPort p (fun y => { y with up := true })))) ∧
    (∀ g sl t w, s.Runs g sl t → sortOpcodes.contains (w.toNat % 128) = false →
      exec (.illegalInstr ⟨g, some sl⟩ w) s = .next (s.coreException ⟨g, some sl⟩ .illegalInstr t.pc.toNat)) ∧
    (∀ g k w, s.CompRuns g k → compOpcodes.contains (w.toNat % 128) = false →
      exec (.illegalInstr ⟨g, none⟩ w) s = .next (s.coreException ⟨g, none⟩ .compIllegal k.pc.toNat)) ∧
    (∀ u, u = { s with bnd := { s.bnd with tamperLow := false } } →
      (s.bnd.power = .tamperWait → exec .tamperNDeassert s = .next u.coldBoot) ∧
      (s.bnd.power ≠ .tamperWait → exec .tamperNDeassert s = .next u)) ∧
    (∀ p pri t, tget (s.port p).paused pri = some t → t ≤ s.now →
      exec (.pfcQuantaExpiry p pri) s = .next ((s.modPort p (fun y => { y with paused := tdel y.paused pri })).drainTx p)) ∧
    (∀ n k v, n < 256 → s.sec.retiredSlots.contains n = false → k = s.kslot n → k.state = .empty → 1 < s.sec.spareCells →
      v = { s with sec := { s.sec with spareCells := s.sec.spareCells - 1, retiredSlots := s.sec.retiredSlots } } →
      exec (.keyCellFailure n) s = .next v.settle) ∧
    (∀ n u v, n < 256 → s.sec.retiredSlots.contains n = false → (s.kslot n).state = .ready → (s.kslot n).origin ≠ 1 → (s.kslot n).origin ≠ 6 →
      1 < s.sec.spareCells → u = (s.slotLost n).dropPend n (s.kslot n) → u.sec.spareCells = s.sec.spareCells →
      v = { u with sec := { u.sec with spareCells := u.sec.spareCells - 1, retiredSlots := u.sec.retiredSlots } } →
      exec (.keyCellFailure n) s = .next (v.modSlot n (fun k => { k with state := .destroyed, pend := none, key := 0, uses := 0 })).settle))

/-- Right after reset POR_N is low and the block is in reset: no command waits, no galley is in service, no context, queue, fence or table exists and memory lists nothing (R586). The values
that the spec does not state are the model's (log entry 3).

The state after reset is a legal one (tier 1; R28, R297). -/
def Obligations.ResetState : Prop :=
  (State.reset.bnd.power = .inReset ∧ State.reset.bnd.porLow = true ∧ State.reset.up = false ∧ State.reset.pending = [] ∧
  State.reset.mem = [] ∧ State.reset.hostMem = [] ∧ State.reset.ctxs = [] ∧ State.reset.queues = [] ∧ State.reset.fences = [] ∧
  State.reset.tables = [] ∧ State.reset.steps = [] ∧ (∀ g, g < 64 → State.reset.galleyUp g = false)) ∧
  (State.reset.Legal)

/-- No command reads or writes the queue of waiting commands (the model's own queue, log entry 1). -/
def Obligations.CommandsLeaveTheQueue : Prop :=
  ∀ (c : Instr) (s t : State), exec c s = .next t → t.pending = s.pending

/-- Every step keeps the state legal: Unified and Exclusive have one domain and Partitioned-8 has eight (R28), and device and host memory keep the canonical form
in which equal memories are equal data. -/
def Obligations.EveryStepKeepsLegal : Prop :=
  ∀ s t : State, s.Legal → step s = .next t → t.Legal
end

