-- ==== Sys2Proof/Laws/Keeps.lean ====
section
/-! SUPPORT. What every operation of the machine keeps: the queue of waiting commands as it is, and a legal state legal.  Each lemma
extends a chain of operations that began at s0 by one more. -/

namespace Sys2Proof.Laws

open Sys2Proof Sys2Proof.Machine

/-- From s0 to t no command was queued or taken, and a legal s0 has led to a legal t. -/
structure Keeps (s0 t : State) : Prop where
  pending : t.pending = s0.pending
  legal : s0.Legal → t.Legal

theorem Keeps.refl (s : State) : Keeps s s := ⟨rfl, id⟩

theorem Keeps.trans {a b c : State} (h : Keeps a b) (k : Keeps b c) : Keeps a c :=
  ⟨k.pending.trans h.pending, fun x => k.legal (h.legal x)⟩

/-- An update of other fields. -/
theorem Keeps.upd {s0 s t : State} (h : Keeps s0 s) (hq : t.pending = s.pending) (hp : t.profile = s.profile)
    (hd : t.domains = s.domains) (hm : t.mem = s.mem) (hh : t.hostMem = s.hostMem) : Keeps s0 t := by
  refine ⟨hq.trans h.pending, fun x => ?_⟩
  have := h.legal x
  simpa only [State.Legal, hp, hd, hm, hh] using this

/-- An update of memory that keeps the canonical form. -/
theorem Keeps.updMem {s0 s t : State} (h : Keeps s0 s) (hq : t.pending = s.pending) (hp : t.profile = s.profile)
    (hd : t.domains = s.domains) (hm : memWf s.mem = true → memWf t.mem = true)
    (hh : memWf s.hostMem = true → memWf t.hostMem = true) : Keeps s0 t := by
  refine ⟨hq.trans h.pending, fun x => ?_⟩
  have := h.legal x
  simp only [State.Legal, hp, hd] at this ⊢
  exact ⟨this.1, this.2.1, this.2.2.1, this.2.2.2.1, hm this.2.2.2.2.1, hh this.2.2.2.2.2⟩

/-- An update of other fields, as a record. -/
theorem Keeps.mk_iff {s0 s : State} {now_ : Nat} {fresh_ : Nat} {lastRun_ : Tab Nat} {galleys_ : Vector GalleySt 64} {formes_ : Vector FormeSt 8} {platens_ : Vector PlatenSt 8} {hbm_ : Vector StackSt 8} {fabric_ : Tab (List LkMsg)} {answers_ : List (Nat × LkEntry)} {gathers_ : Tab GatherSt} {tables_ : Tab TableDesc} {generations_ : Tab Nat} {poison_ : List Nat} {lostMem_ : Tab (List (Nat × Nat))} {corrected_ : Nat} {ctxs_ : Tab CtxSt} {queues_ : Tab QueueSt} {fences_ : Tab FenceSt} {seals_ : Tab SealSt} {sealCount_ : Nat} {steps_ : Tab StepRec} {nextStep_ : Nat} {useCount_ : Nat} {resident_ : Tab Nat} {switches_ : Tab (List (Nat × Nat))} {switching_ : Tab (Nat × Nat × List Nat)} {upd_ : UpdSt} {serve_ : ServeSt} {host_ : HostSt} {net_ : NetSt} {fm_ : FmSt} {bnd_ : BndSt} {sec_ : SecSt} {mgmt_ : MgmtSt} {tele_ : Tab Nat} {out_ : List Out} :
    Keeps s0 (State.mk now_ fresh_ lastRun_ s.profile s.domains galleys_ formes_ platens_ hbm_ fabric_ answers_ gathers_ tables_ generations_ s.mem poison_ lostMem_ s.hostMem corrected_ ctxs_ queues_ fences_ seals_ sealCount_ steps_ nextStep_ useCount_ resident_ switches_ switching_ upd_ serve_ host_ net_ fm_ bnd_ sec_ mgmt_ tele_ out_ s.pending) ↔ Keeps s0 s :=
  ⟨fun h => Keeps.upd h rfl rfl rfl rfl rfl, fun h => Keeps.upd h rfl rfl rfl rfl rfl⟩

theorem Keeps.foldl {α : Type} {s0 s : State} {f : State → α → State} {l : List α} (h : Keeps s0 s)
    (hf : ∀ s x, Keeps s0 s → Keeps s0 (f s x)) : Keeps s0 (l.foldl f s) := by
  induction l generalizing s with
  | nil => exact h
  | cons a l ih => exact ih (hf s a h)

theorem Keeps.foldlSnd {α β : Type} {s0 : State} {f : β × State → α → β × State} {l : List α} {p : β × State} (h : Keeps s0 p.2)
    (hf : ∀ p x, Keeps s0 p.2 → Keeps s0 (f p x).2) : Keeps s0 (l.foldl f p).2 := by
  induction l generalizing p with
  | nil => exact h
  | cons a l ih => exact ih (hf p a h)

theorem Keeps.foldlFst {α β : Type} {s0 : State} {f : State × β → α → State × β} {l : List α} {p : State × β} (h : Keeps s0 p.1)
    (hf : ∀ p x, Keeps s0 p.1 → Keeps s0 (f p x).1) : Keeps s0 (l.foldl f p).1 := by
  induction l generalizing p with
  | nil => exact h
  | cons a l ih => exact ih (hf p a h)

/-- The state of a pair that a match took apart. -/
theorem Keeps.ofPair {α : Type} {s0 t : State} {a : α} {p : α × State} (e : p = (a, t)) (h : Keeps s0 p.2) : Keeps s0 t := by
  rw [e] at h; exact h

theorem Keeps.ofTriple {α β : Type} {s0 t : State} {a : α} {b : β} {p : α × β × State} (e : p = (a, b, t)) (h : Keeps s0 p.2.2) : Keeps s0 t := by
  rw [e] at h; exact h

theorem Keeps.ofSome {α : Type} {s0 t : State} {a : α} {p : Option (α × State)} (e : p = some (a, t))
    (h : ∀ x, p = some x → Keeps s0 x.2) : Keeps s0 t := h _ e

theorem Keeps.ofFst {α : Type} {s0 t : State} {a : α} {p : State × α} (e : p = (t, a)) (h : Keeps s0 p.1) : Keeps s0 t := by
  rw [e] at h; exact h

/-- What an outcome keeps: a next state. -/
structure KeepsR (s0 : State) (r : Res) : Prop where
  keeps : ∀ t, r = .next t → Keeps s0 t

theorem KeepsR.next {s0 t : State} (h : Keeps s0 t) : KeepsR s0 (.next t) := ⟨fun u e => by cases e; exact h⟩

end Sys2Proof.Laws
end

