-- ==== Sys2Proof/Laws/Manage.lean ====
section
/-! SUPPORT. What a request of a session or of the mailbox does when it is taken (15_security.md R564; 16_dictionary.md R567 to R571). -/

namespace Sys2Proof.Machine

/-- A request that is taken runs its operation. -/
theorem request_takes {s t : State} {r : Requester} {op tag i sub : Nat} (h : s.Takes r op tag i sub t) (f : State → State) :
    s.request r op tag i sub f = f t := by
  cases r with
  | mailbox =>
    obtain ⟨h, rfl⟩ := h
    simp only [State.request]
    rw [if_pos (by rcases h with h | h <;> simp [h])]
  | session n =>
    obtain ⟨x, hx, ho, hu, hp, rfl, he, hr⟩ := h
    simp only [State.request, hx, ho, hu, hp, he]
    simp [hr]

/-- A write that may be made is answered as its effect says. -/
theorem setRequest_writes {s t : State} {r : Requester} {tag i sub : Nat} {v : List Byte} {o : Obj} (h : s.Writes r tag i sub v o t) :
    s.setRequest r tag i sub v = (match t.setValue r 2 tag i sub o v with
      | .done u after => after (u.reply r 2 tag i sub 0 false [])
      | .fail st => t.reply r 2 tag i sub st false []
      | .wait u => u).settle := by
  obtain ⟨h1, h2, h3, h4, h5⟩ := h
  simp only [State.setRequest, request_takes h1, State.doSet, h2, h3, h4, if_neg h5]
  all_goals rfl

/-- Only subindex 3, and objects 0x3000, 0x4000 and 0x8000, can be mode objects. -/
theorem modeUnits_none (t : State) (i sub : Nat) (h : sub ≠ 3 ∧ i ≠ 0x3000 ∧ i ≠ 0x4000 ∧ i ≠ 0x8000) : t.modeUnits i sub = none := by
  simp only [State.modeUnits, State.capKey]
  (repeat' split) <;> first | rfl | omega | simp_all

theorem leNat_toLE (n x : Nat) (h : x < 256 ^ n) : leNat (toLE n x) = x := by
  induction n generalizing x with
  | zero => simp [toLE, leNat] at *; omega
  | succ n ih =>
    have := ih (x / 256) (by rw [Nat.pow_succ] at h; omega)
    simp [toLE, leNat, this]; omega

end Sys2Proof.Machine
end

