-- ==== Sys2Proof/Laws/Queue.lean ====
section
/-! SUPPORT. What the shared operations of queue commands do when a command may start (10_queues.md R341 to R347). -/

namespace Sys2Proof.Machine

variable {s : State} {q op n : Nat} {x : QueueSt} {c : Cmd} {f : State → QueueSt → Cmd → State}

/-- A command that may start runs its meaning; then the block settles. -/
theorem runCmd_starts (h : s.Starts q op x c) : s.runCmd q op f = (f s x c).settle := by
  simp only [State.runCmd, h.1, h.2]

/-- No command of that kind may start: nothing changes. -/
theorem runCmd_none (h : s.startable q op = none) : s.runCmd q op f = s := by simp only [State.runCmd, h]

theorem runIf_starts {sel : Cmd → Bool} (h : s.Starts q op x c) (hs : sel c = true) :
    s.runIf q op sel f = (f s x c).settle := by
  simp only [State.runIf, h.1, hs, if_true]; exact runCmd_starts h

theorem runIf_other {sel : Cmd → Bool} (h : s.startable q op = some (x, c)) (hs : sel c = false) : s.runIf q op sel f = s := by
  simp [State.runIf, h, hs]

theorem runInst_starts {argOk : Nat → Bool} {offered : State → Bool} (h : s.StartsInst q n x c) (ha : argOk (cmdArg c) = true)
    (ho : offered s = true) : s.runInst q (subIs n) argOk offered f = (f s x c).settle := by
  obtain ⟨h1, h2, h3⟩ := h
  simp [State.runInst, runIf_starts h1 h2, ha, ho, h3]

theorem runTable_starts (h : s.Starts q op x c) (ht : s.tableCmd = none) : s.runTable q op f = (f s x c).settle := by
  simp only [State.runTable, ht, Option.isSome_none]; exact runCmd_starts h

theorem runKey_starts {bytes : Nat} {argOk : Nat → Bool} (h : s.StartsKey q n bytes x c) (ha : argOk (cmdArg c) = true) :
    s.runKey q n bytes argOk f = (f s x c).settle := by
  obtain ⟨h1, h2, h3, h4⟩ := h
  simp [State.runKey, runIf_starts h1 h2, ha, Nat.not_lt.2 h3, h4]

theorem withBuf_is {a n : Nat} {l : List Byte} {g : State → List Byte → State} (h : s.kernelRead x.inst a n = some l) :
    s.withBuf q x c a n g = g ((s.kernelCharge x.inst a n).tagInst s x.inst q c.no) l := by
  simp only [State.withBuf, h]

theorem withBuf_bufferIs {l : List Byte} {s1 : State} {g : State → List Byte → State} (h : s.BufferIs q x c n l s1) :
    s.withBuf q x c (cmdBuf c) n g = g s1 l := by
  rw [withBuf_is h.1, h.2]

end Sys2Proof.Machine
end

