-- ==== Sys2Proof/Laws/Store.lean ====
section
/-! SUPPORT. Laws of sparse tables and byte stores: reads after writes, and that every operation keeps
the canonical form of a byte store. -/

namespace Sys2Proof.Machine

variable {α : Type}

@[simp] theorem tget_tput_same (t : Tab α) (k : Nat) (v : α) : tget (tput t k v) k = some v := by
  induction t with
  | nil => simp [tput, tget]
  | cons p r ih =>
    obtain ⟨k', v'⟩ := p
    unfold tput; split
    · simp [tget]
    · split
      · simp [tget]
      · rename_i h1 h2; simp [tget, h2, ih]

theorem tget_tput_ne (t : Tab α) {k j : Nat} (v : α) (h : j ≠ k) : tget (tput t k v) j = tget t j := by
  induction t with
  | nil => simp [tput, tget, h.symm]
  | cons p r ih =>
    obtain ⟨k', v'⟩ := p
    unfold tput; split
    · simp [tget, h.symm]
    · split
      · rename_i h1 h2; subst h2; simp [tget, h.symm]
      · simp only [tget, ih]

theorem tget_tdel_ne (t : Tab α) {k j : Nat} (h : j ≠ k) : tget (tdel t k) j = tget t j := by
  induction t with
  | nil => rfl
  | cons p r ih =>
    obtain ⟨k', v'⟩ := p
    by_cases hk : k' = k
    · subst hk; simpa [tdel, tget, h.symm] using ih
    · simp only [tdel] at ih
      simp [tdel, tget, hk]; split
      · rfl
      · simpa using ih

@[simp] theorem tget_tdel_same (t : Tab α) (k : Nat) : tget (tdel t k) k = none := by
  induction t with
  | nil => rfl
  | cons p r ih =>
    obtain ⟨k', v'⟩ := p
    by_cases hk : k' = k
    · subst hk; simpa [tdel] using ih
    · simpa [tdel, tget, hk] using ih

theorem tget_tmod_ne (t : Tab α) {k j : Nat} (f : α → α) (h : j ≠ k) :
    tget (tmod t k f) j = tget t j := by
  induction t with
  | nil => rfl
  | cons p r ih =>
    obtain ⟨k', v'⟩ := p
    simp only [tmod, List.map_cons] at ih ⊢
    by_cases hk : k' = k
    · subst hk; simp [tget, h.symm]; exact ih
    · simp [tget, hk]; split
      · rfl
      · exact ih

@[simp] theorem tget_tmod_same (t : Tab α) (k : Nat) (f : α → α) :
    tget (tmod t k f) k = (tget t k).map f := by
  induction t with
  | nil => rfl
  | cons p r ih =>
    obtain ⟨k', v'⟩ := p
    simp only [tmod, List.map_cons] at ih ⊢
    by_cases hk : k' = k
    · subst hk; simp [tget]
    · simp [tget, hk]; exact ih

theorem memWf_cons {a : Nat} {b : Byte} {r : Mem} :
    memWf ((a, b) :: r) = true ↔ b ≠ 0 ∧ (∀ p ∈ r.head?, a < p.1) ∧ memWf r = true := by
  cases r with
  | nil => simp [memWf]
  | cons p r => obtain ⟨a', b'⟩ := p; simp [memWf, and_assoc]

theorem memWf_lt {a : Nat} {b : Byte} {r : Mem} (h : memWf ((a, b) :: r) = true) :
    ∀ p ∈ r, a < p.1 := by
  induction r generalizing a b with
  | nil => simp
  | cons q r ih =>
    obtain ⟨a', b'⟩ := q
    rw [memWf_cons] at h
    intro p hp
    have h1 : a < a' := h.2.1 (a', b') (by simp)
    rcases List.mem_cons.1 hp with rfl | hp
    · exact h1
    · exact lt_trans h1 (ih h.2.2 p hp)

theorem memWf_iff (m : Mem) :
    memWf m = true ↔ m.Pairwise (fun p q => p.1 < q.1) ∧ ∀ p ∈ m, p.2 ≠ 0 := by
  induction m with
  | nil => simp [memWf]
  | cons p r ih =>
    obtain ⟨a, b⟩ := p
    constructor
    · intro h
      have hlt := memWf_lt h
      rw [memWf_cons] at h
      have := ih.1 h.2.2
      exact ⟨List.pairwise_cons.2 ⟨hlt, this.1⟩, by
        intro p hp; rcases List.mem_cons.1 hp with rfl | hp
        · exact h.1
        · exact this.2 p hp⟩
    · rintro ⟨h1, h2⟩
      rw [List.pairwise_cons] at h1
      refine memWf_cons.2 ⟨h2 (a, b) (by simp), ?_, ih.2 ⟨h1.2, fun p hp => h2 p (by simp [hp])⟩⟩
      intro p hp; exact h1.1 p (List.mem_of_mem_head? hp)

theorem memWf_filter {m : Mem} (f : Nat × Byte → Bool) (h : memWf m = true) :
    memWf (m.filter f) = true := by
  rw [memWf_iff] at h ⊢
  exact ⟨h.1.filter f, fun p hp => h.2 p (List.mem_filter.1 hp).1⟩

theorem memWf_mclear {m : Mem} (a n : Nat) (h : memWf m = true) : memWf (mclear m a n) = true :=
  memWf_filter _ h

theorem mem_mput {m : Mem} {a : Nat} {b : Byte} {p : Nat × Byte} (hp : p ∈ mput m a b) :
    p ∈ m ∨ (p = (a, b) ∧ b ≠ 0) := by
  induction m with
  | nil => unfold mput at hp; split at hp <;> simp_all
  | cons q r ih =>
    obtain ⟨a', b'⟩ := q
    unfold mput at hp
    split at hp
    · split at hp
      · exact .inl hp
      · rcases List.mem_cons.1 hp with rfl | hp
        · exact .inr ⟨rfl, ‹_›⟩
        · exact .inl hp
    · split at hp
      · split at hp
        · exact .inl (by simp [hp])
        · rcases List.mem_cons.1 hp with rfl | hp
          · exact .inr ⟨rfl, ‹_›⟩
          · exact .inl (by simp [hp])
      · rcases List.mem_cons.1 hp with rfl | hp
        · exact .inl (by simp)
        · rcases ih hp with h | h
          · exact .inl (by simp [h])
          · exact .inr h

theorem memWf_mput {m : Mem} (a : Nat) (b : Byte) (h : memWf m = true) :
    memWf (mput m a b) = true := by
  induction m with
  | nil => unfold mput; split <;> simp_all [memWf]
  | cons q r ih =>
    obtain ⟨a', b'⟩ := q
    have hlt := memWf_lt h
    have h' := memWf_cons.1 h
    unfold mput
    split
    · split
      · exact h
      · exact memWf_cons.2 ⟨‹_›, by simpa, h⟩
    · split
      · rename_i h1 h2; subst h2
        split
        · exact h'.2.2
        · exact memWf_cons.2 ⟨‹_›, h'.2.1, h'.2.2⟩
      · rename_i h1 h2
        refine memWf_cons.2 ⟨h'.1, ?_, ih h'.2.2⟩
        intro p hp
        rcases mem_mput (List.mem_of_mem_head? hp) with hm | ⟨rfl, -⟩
        · exact hlt p hm
        · show a' < a; omega

theorem memWf_mwrite {m : Mem} (a : Nat) (l : List Byte) (h : memWf m = true) :
    memWf (mwrite m a l) = true := by
  induction l generalizing m a with
  | nil => exact h
  | cons b l ih => exact ih _ (memWf_mput a b h)

theorem mget_of_lt {m : Mem} {a : Nat} (h : ∀ p ∈ m, a < p.1) : mget m a = 0 := by
  induction m with
  | nil => rfl
  | cons q r ih =>
    obtain ⟨a', b'⟩ := q
    have := h (a', b') (by simp)
    simp only [mget]
    rw [if_neg (by simp at this; omega)]
    exact ih (fun p hp => h p (by simp [hp]))

theorem mget_mput_same {m : Mem} (a : Nat) (b : Byte) (h : memWf m = true) :
    mget (mput m a b) a = b := by
  induction m with
  | nil => unfold mput; split <;> simp_all [mget]
  | cons q r ih =>
    obtain ⟨a', b'⟩ := q
    have hlt := memWf_lt h
    unfold mput
    split
    · split
      · rename_i h1 h2; subst h2
        refine mget_of_lt ?_
        intro p hp; rcases List.mem_cons.1 hp with rfl | hp
        · exact h1
        · exact lt_trans h1 (hlt p hp)
      · simp [mget]
    · split
      · rename_i h1 h2; subst h2
        split
        · rename_i h3; subst h3; exact mget_of_lt hlt
        · simp [mget]
      · rename_i h1 h2; simp [mget, h2]; exact ih (memWf_cons.1 h).2.2

theorem mget_mput_ne {m : Mem} {a j : Nat} (b : Byte) (h : j ≠ a) :
    mget (mput m a b) j = mget m j := by
  induction m with
  | nil => unfold mput; split <;> simp [mget, h.symm]
  | cons q r ih =>
    obtain ⟨a', b'⟩ := q
    unfold mput
    split
    · split
      · rfl
      · simp [mget, h.symm]
    · split
      · rename_i h1 h2; subst h2
        split <;> simp [mget, h.symm]
      · simp [mget, ih]

theorem mget_mwrite_out {m : Mem} {a j : Nat} (l : List Byte) (h : j < a ∨ a + l.length ≤ j) :
    mget (mwrite m a l) j = mget m j := by
  induction l generalizing m a with
  | nil => rfl
  | cons b l ih =>
    simp only [List.length_cons] at h
    unfold mwrite
    rw [ih (by omega), mget_mput_ne b (by omega)]

theorem mget_mclear_out {m : Mem} {a n j : Nat} (h : j < a ∨ a + n ≤ j) :
    mget (mclear m a n) j = mget m j := by
  induction m with
  | nil => rfl
  | cons q r ih =>
    obtain ⟨a', b'⟩ := q
    simp only [mclear] at ih ⊢
    by_cases hk : a' = j
    · subst hk; simp [h, mget]
    · by_cases hc : a' < a ∨ a + n ≤ a'
      · simp only [List.filter_cons, hc, decide_true, ite_true, mget, hk, if_false]; exact ih
      · simp only [List.filter_cons, hc, decide_false, mget, hk, if_false]; exact ih

end Sys2Proof.Machine
end

