-- ==== Sys2Proof/Laws/Sort.lean ====
section
/-! SUPPORT. What running one instruction on a sort or on the compositor pair does: one lemma per outcome, cited in place of
unfolding the run. -/

namespace Sys2Proof.Machine

theorem vget_vset_same {α : Type} {n : Nat} (v : Vector α n) (i : Nat) (x d : α) (h : i < n) : vget (vset v i x) i d = x := by
  simp [vget, vset, h]

theorem vget_vset_ne {α : Type} {n : Nat} (v : Vector α n) (i j : Nat) (x d : α) (h : j ≠ i) :
    vget (vset v i x) j d = vget v j d := by
  unfold vget vset
  split
  · rw [Vector.getElem?_set_ne]; exact fun e => h e.symm
  · rfl

theorem galley_setGalley (s : State) (g : Nat) (x : GalleySt) (h : g < 64) : (s.setGalley g x).galley g = x := by
  simp [State.galley, State.setGalley, vget_vset_same, h]

theorem galley_setGalley_ne (s : State) (g h : Nat) (x : GalleySt) (e : h ≠ g) : (s.setGalley g x).galley h = s.galley h := by
  simp [State.galley, State.setGalley, vget_vset_ne, e]

/-- A galley outside the block holds no sliver. -/
theorem galley_lt {s : State} {g sl : Nat} {t : SortSt} (h : (s.galley g).sliver sl = some t) : g < 64 := by
  by_contra hn
  have : s.galley g = GalleySt.zero := by simp [State.galley, vget, Vector.getElem?_eq_none (Nat.le_of_not_lt hn)]
  rw [this] at h
  simp [GalleySt.sliver, GalleySt.zero, tget] at h

theorem sliver_setSliver (s : State) (g sl : Nat) (t : SortSt) (h : g < 64) :
    ((s.setSliver g sl t).galley g).sliver sl = some t := by
  simp [State.setSliver, State.modGalley, galley_setGalley, h, GalleySt.sliver, tget_tput_same]

section
variable {s : State} {g sl : Nat} {t u : SortSt} {ok : SortStatus → Bool} {f : SortEnv → SortSt → SortRes}

/-- An instruction that completes in sequence. -/
theorem runSort_next (h : (s.galley g).sliver sl = some t) (hok : ok t.status = true)
    (hf : f (s.sortEnv g sl) t = .next u false) (hp : u.pc ≠ 0x1FFC) : s.runSort g sl ok f = s.after g sl u := by
  unfold State.runSort State.after State.sortNext
  simp only [h, hok, if_true, hf]; simp only [Bool.false_eq_true, if_false]; rw [if_neg hp]

/-- A branch taken or a jump. -/
theorem runSort_jump (h : (s.galley g).sliver sl = some t) (hok : ok t.status = true)
    (hf : f (s.sortEnv g sl) t = .jump u) : s.runSort g sl ok f = s.setSliver g sl { u with status := .running } := by
  simp [State.runSort, h, hok, hf]

/-- An instruction that stalls. -/
theorem runSort_stall (h : (s.galley g).sliver sl = some t) (hok : ok t.status = true)
    (hf : f (s.sortEnv g sl) t = .stall u) : s.runSort g sl ok f = s.setSliver g sl u := by
  simp [State.runSort, h, hok, hf]

/-- An instruction that raises a cause. -/
theorem runSort_exc {c : Cause} (h : (s.galley g).sliver sl = some t) (hok : ok t.status = true)
    (hf : f (s.sortEnv g sl) t = .exc c) : s.runSort g sl ok f = s.coreException ⟨g, some sl⟩ c t.pc.toNat := by
  simp [State.runSort, h, hok, hf]

/-- A sliver that does not exist, or does not execute, takes no instruction. -/
theorem runSort_none (h : (s.galley g).sliver sl = none) : s.runSort g sl ok f = s := by
  simp [State.runSort, h]

theorem runSort_stopped (h : (s.galley g).sliver sl = some t) (hok : ok t.status = false) : s.runSort g sl ok f = s := by
  simp [State.runSort, h, hok]

/-- A charged instruction that completes in sequence. -/
theorem runUnit_next {cls : Nat} (h : s.Runs g sl t) (hf : f (s.sortEnv g sl) t = .next u false) (hp : u.pc = t.pc) :
    s.runUnit g sl cls f = s.afterUnit g sl cls u := by
  obtain ⟨h1, h2, h3, h4⟩ := h
  have hok : isRunning t.status = true := by simp [isRunning, h2]
  unfold State.runUnit
  simp only [h1, hok, hf, runSort_next h1 hok hf (hp ▸ h4), State.afterUnit]

theorem runUnit_exc {cls : Nat} {c : Cause} (h : s.Runs g sl t) (hf : f (s.sortEnv g sl) t = .exc c) :
    s.runUnit g sl cls f = s.coreException ⟨g, some sl⟩ c t.pc.toNat := by
  obtain ⟨h1, h2, h3, h4⟩ := h
  have hok : isRunning t.status = true := by simp [isRunning, h2]
  unfold State.runUnit
  simp only [h1, hok, hf, runSort_exc h1 hok hf]

theorem run_next (h : s.Runs g sl t) (hf : f (s.sortEnv g sl) t = .next u false) (hp : u.pc = t.pc) :
    s.runSort g sl isRunning f = s.after g sl u :=
  runSort_next h.1 (by simp [isRunning, h.2.1]) hf (hp ▸ h.2.2.2)

theorem run_exc {c : Cause} (h : s.Runs g sl t) (hf : f (s.sortEnv g sl) t = .exc c) :
    s.runSort g sl isRunning f = s.coreException ⟨g, some sl⟩ c t.pc.toNat :=
  runSort_exc h.1 (by simp [isRunning, h.2.1]) hf

theorem run_jump (h : s.Runs g sl t) (hf : f (s.sortEnv g sl) t = .jump u) (hu : u.status = .running) :
    s.runSort g sl isRunning f = s.setSliver g sl u := by
  rw [runSort_jump h.1 (by simp [isRunning, h.2.1]) hf, ← hu]

/-- A checked instruction with no residue error armed. -/
theorem checked_none (h : t.book.inj = none) (k : SortSt → SortSt) : t.checked k = .next (k t) false := by
  simp [SortSt.checked, h]

theorem maybeChecked_none (h : t.book.inj = none) (b : Bool) (k : SortSt → SortSt) :
    t.maybeChecked b k = .next (k t) false := by
  cases b <;> simp [SortSt.maybeChecked, checked_none h]

end

@[simp] theorem ss_pc (t : SortSt) (r : Reg) (x : W64) : (t.ss r x).pc = t.pc := by unfold SortSt.ss; split <;> rfl
@[simp] theorem ss_status (t : SortSt) (r : Reg) (x : W64) : (t.ss r x).status = t.status := by unfold SortSt.ss; split <;> rfl
@[simp] theorem ss_zero (t : SortSt) (x : W64) : t.ss 0 x = t := rfl
@[simp] theorem sv_pc (t : SortSt) (r : Reg) (x : Nat) : (t.sv r x).pc = t.pc := rfl
@[simp] theorem sa_pc (t : SortSt) (r x : Nat) : (t.sa r x).pc = t.pc := rfl
@[simp] theorem flag_pc (t : SortSt) (f : Flags) : (t.flag f).pc = t.pc := rfl
@[simp] theorem flag_zero (t : SortSt) : t.flag 0 = t := by simp [SortSt.flag]
@[simp] theorem countRsr_pc (t : SortSt) (r : RM) : (t.countRsr r).pc = t.pc := by unfold SortSt.countRsr; split <;> rfl
theorem gs_ss_ne (t : SortSt) {r q : Reg} (x : W64) (h : q ≠ r) : (t.ss r x).gs q = t.gs q := by
  unfold SortSt.ss SortSt.gs
  split
  · rfl
  · split
    · rfl
    · exact vget_vset_ne _ _ _ _ _ (fun e => h (BitVec.eq_of_toNat_eq e))

/-! ## The compositor pair -/

section
variable {s : State} {g : Nat} {k u : CompSt} {f : GalleySt → CompSt → CompRes}

theorem runComp_next (h : s.CompRuns g k) (hf : f (s.galley g) k = .next u) (hp : u.pc = k.pc) :
    s.runComp g f = s.compAfter g u := by
  obtain ⟨h0, h1, h2, h3⟩ := h
  subst h1
  have hp' : u.pc ≠ 0x7FFC := hp ▸ h3
  unfold State.runComp State.compAfter State.compNext
  simp only [h2, if_true, hf]; rw [if_neg hp']

theorem runComp_exc {c : Cause} (h : s.CompRuns g k) (hf : f (s.galley g) k = .exc c) :
    s.runComp g f = s.coreException ⟨g, none⟩ c k.pc.toNat := by
  obtain ⟨h0, h1, h2, h3⟩ := h
  subst h1
  simp [State.runComp, h2, hf]

theorem runComp_jump (h : s.CompRuns g k) (hf : f (s.galley g) k = .jump u) :
    s.runComp g f = s.modGalley g (fun y => { y with comp := u }) := by
  obtain ⟨h0, h1, h2, h3⟩ := h
  subst h1
  simp [State.runComp, h2, hf]

theorem runComp_stall (h : s.CompRuns g k) (hf : f (s.galley g) k = .stall) : s.runComp g f = s := by
  obtain ⟨h0, h1, h2, h3⟩ := h
  subst h1
  simp [State.runComp, h2, hf]

theorem compNext_after {s' : State} (hp : u.pc ≠ 0x7FFC) : s'.compNext g u = s'.compAfter g u := by
  unfold State.compNext State.compAfter; rw [if_neg hp]

end

@[simp] theorem comp_ss_pc (k : CompSt) (r : Reg) (x : W64) : (k.ss r x).pc = k.pc := by unfold CompSt.ss; split <;> rfl
@[simp] theorem comp_ss_status (k : CompSt) (r : Reg) (x : W64) : (k.ss r x).status = k.status := by
  unfold CompSt.ss; split <;> rfl
@[simp] theorem comp_ss_zero (k : CompSt) (x : W64) : k.ss 0 x = k := rfl

end Sys2Proof.Machine
end

