-- ==== Sys2Proof/Laws/State.lean ====
section
/-! SUPPORT. The updates of State: the field each one writes, and the fields it leaves, one lemma for each field. -/

namespace Sys2Proof.Laws

open Sys2Proof Sys2Proof.Machine

variable (s : State)

/-! ### ran -/

section
variable (p : Periodic)

@[simp] theorem ran_now : (s.ran p).now = s.now := rfl
@[simp] theorem ran_fresh : (s.ran p).fresh = s.fresh := rfl
@[simp] theorem ran_lastRun : (s.ran p).lastRun = tput s.lastRun p.key s.now := rfl
@[simp] theorem ran_profile : (s.ran p).profile = s.profile := rfl
@[simp] theorem ran_domains : (s.ran p).domains = s.domains := rfl
@[simp] theorem ran_galleys : (s.ran p).galleys = s.galleys := rfl
@[simp] theorem ran_formes : (s.ran p).formes = s.formes := rfl
@[simp] theorem ran_platens : (s.ran p).platens = s.platens := rfl
@[simp] theorem ran_hbm : (s.ran p).hbm = s.hbm := rfl
@[simp] theorem ran_fabric : (s.ran p).fabric = s.fabric := rfl
@[simp] theorem ran_answers : (s.ran p).answers = s.answers := rfl
@[simp] theorem ran_gathers : (s.ran p).gathers = s.gathers := rfl
@[simp] theorem ran_tables : (s.ran p).tables = s.tables := rfl
@[simp] theorem ran_generations : (s.ran p).generations = s.generations := rfl
@[simp] theorem ran_mem : (s.ran p).mem = s.mem := rfl
@[simp] theorem ran_poison : (s.ran p).poison = s.poison := rfl
@[simp] theorem ran_lostMem : (s.ran p).lostMem = s.lostMem := rfl
@[simp] theorem ran_hostMem : (s.ran p).hostMem = s.hostMem := rfl
@[simp] theorem ran_corrected : (s.ran p).corrected = s.corrected := rfl
@[simp] theorem ran_ctxs : (s.ran p).ctxs = s.ctxs := rfl
@[simp] theorem ran_queues : (s.ran p).queues = s.queues := rfl
@[simp] theorem ran_fences : (s.ran p).fences = s.fences := rfl
@[simp] theorem ran_seals : (s.ran p).seals = s.seals := rfl
@[simp] theorem ran_sealCount : (s.ran p).sealCount = s.sealCount := rfl
@[simp] theorem ran_steps : (s.ran p).steps = s.steps := rfl
@[simp] theorem ran_nextStep : (s.ran p).nextStep = s.nextStep := rfl
@[simp] theorem ran_useCount : (s.ran p).useCount = s.useCount := rfl
@[simp] theorem ran_resident : (s.ran p).resident = s.resident := rfl
@[simp] theorem ran_switches : (s.ran p).switches = s.switches := rfl
@[simp] theorem ran_switching : (s.ran p).switching = s.switching := rfl
@[simp] theorem ran_upd : (s.ran p).upd = s.upd := rfl
@[simp] theorem ran_serve : (s.ran p).serve = s.serve := rfl
@[simp] theorem ran_host : (s.ran p).host = s.host := rfl
@[simp] theorem ran_net : (s.ran p).net = s.net := rfl
@[simp] theorem ran_fm : (s.ran p).fm = s.fm := rfl
@[simp] theorem ran_bnd : (s.ran p).bnd = s.bnd := rfl
@[simp] theorem ran_sec : (s.ran p).sec = s.sec := rfl
@[simp] theorem ran_mgmt : (s.ran p).mgmt = s.mgmt := rfl
@[simp] theorem ran_tele : (s.ran p).tele = s.tele := rfl
@[simp] theorem ran_out : (s.ran p).out = s.out := rfl
@[simp] theorem ran_pending : (s.ran p).pending = s.pending := rfl

end

/-! ### setGalley -/

section
variable (g : Nat) (x : GalleySt)

@[simp] theorem setGalley_now : (s.setGalley g x).now = s.now := rfl
@[simp] theorem setGalley_fresh : (s.setGalley g x).fresh = s.fresh := rfl
@[simp] theorem setGalley_lastRun : (s.setGalley g x).lastRun = s.lastRun := rfl
@[simp] theorem setGalley_profile : (s.setGalley g x).profile = s.profile := rfl
@[simp] theorem setGalley_domains : (s.setGalley g x).domains = s.domains := rfl
@[simp] theorem setGalley_galleys : (s.setGalley g x).galleys = vset s.galleys g x := rfl
@[simp] theorem setGalley_formes : (s.setGalley g x).formes = s.formes := rfl
@[simp] theorem setGalley_platens : (s.setGalley g x).platens = s.platens := rfl
@[simp] theorem setGalley_hbm : (s.setGalley g x).hbm = s.hbm := rfl
@[simp] theorem setGalley_fabric : (s.setGalley g x).fabric = s.fabric := rfl
@[simp] theorem setGalley_answers : (s.setGalley g x).answers = s.answers := rfl
@[simp] theorem setGalley_gathers : (s.setGalley g x).gathers = s.gathers := rfl
@[simp] theorem setGalley_tables : (s.setGalley g x).tables = s.tables := rfl
@[simp] theorem setGalley_generations : (s.setGalley g x).generations = s.generations := rfl
@[simp] theorem setGalley_mem : (s.setGalley g x).mem = s.mem := rfl
@[simp] theorem setGalley_poison : (s.setGalley g x).poison = s.poison := rfl
@[simp] theorem setGalley_lostMem : (s.setGalley g x).lostMem = s.lostMem := rfl
@[simp] theorem setGalley_hostMem : (s.setGalley g x).hostMem = s.hostMem := rfl
@[simp] theorem setGalley_corrected : (s.setGalley g x).corrected = s.corrected := rfl
@[simp] theorem setGalley_ctxs : (s.setGalley g x).ctxs = s.ctxs := rfl
@[simp] theorem setGalley_queues : (s.setGalley g x).queues = s.queues := rfl
@[simp] theorem setGalley_fences : (s.setGalley g x).fences = s.fences := rfl
@[simp] theorem setGalley_seals : (s.setGalley g x).seals = s.seals := rfl
@[simp] theorem setGalley_sealCount : (s.setGalley g x).sealCount = s.sealCount := rfl
@[simp] theorem setGalley_steps : (s.setGalley g x).steps = s.steps := rfl
@[simp] theorem setGalley_nextStep : (s.setGalley g x).nextStep = s.nextStep := rfl
@[simp] theorem setGalley_useCount : (s.setGalley g x).useCount = s.useCount := rfl
@[simp] theorem setGalley_resident : (s.setGalley g x).resident = s.resident := rfl
@[simp] theorem setGalley_switches : (s.setGalley g x).switches = s.switches := rfl
@[simp] theorem setGalley_switching : (s.setGalley g x).switching = s.switching := rfl
@[simp] theorem setGalley_upd : (s.setGalley g x).upd = s.upd := rfl
@[simp] theorem setGalley_serve : (s.setGalley g x).serve = s.serve := rfl
@[simp] theorem setGalley_host : (s.setGalley g x).host = s.host := rfl
@[simp] theorem setGalley_net : (s.setGalley g x).net = s.net := rfl
@[simp] theorem setGalley_fm : (s.setGalley g x).fm = s.fm := rfl
@[simp] theorem setGalley_bnd : (s.setGalley g x).bnd = s.bnd := rfl
@[simp] theorem setGalley_sec : (s.setGalley g x).sec = s.sec := rfl
@[simp] theorem setGalley_mgmt : (s.setGalley g x).mgmt = s.mgmt := rfl
@[simp] theorem setGalley_tele : (s.setGalley g x).tele = s.tele := rfl
@[simp] theorem setGalley_out : (s.setGalley g x).out = s.out := rfl
@[simp] theorem setGalley_pending : (s.setGalley g x).pending = s.pending := rfl

end

/-! ### modGalley -/

section
variable (g : Nat) (f : GalleySt → GalleySt)

@[simp] theorem modGalley_now : (s.modGalley g f).now = s.now := rfl
@[simp] theorem modGalley_fresh : (s.modGalley g f).fresh = s.fresh := rfl
@[simp] theorem modGalley_lastRun : (s.modGalley g f).lastRun = s.lastRun := rfl
@[simp] theorem modGalley_profile : (s.modGalley g f).profile = s.profile := rfl
@[simp] theorem modGalley_domains : (s.modGalley g f).domains = s.domains := rfl
@[simp] theorem modGalley_galleys : (s.modGalley g f).galleys = vset s.galleys g (f (s.galley g)) := rfl
@[simp] theorem modGalley_formes : (s.modGalley g f).formes = s.formes := rfl
@[simp] theorem modGalley_platens : (s.modGalley g f).platens = s.platens := rfl
@[simp] theorem modGalley_hbm : (s.modGalley g f).hbm = s.hbm := rfl
@[simp] theorem modGalley_fabric : (s.modGalley g f).fabric = s.fabric := rfl
@[simp] theorem modGalley_answers : (s.modGalley g f).answers = s.answers := rfl
@[simp] theorem modGalley_gathers : (s.modGalley g f).gathers = s.gathers := rfl
@[simp] theorem modGalley_tables : (s.modGalley g f).tables = s.tables := rfl
@[simp] theorem modGalley_generations : (s.modGalley g f).generations = s.generations := rfl
@[simp] theorem modGalley_mem : (s.modGalley g f).mem = s.mem := rfl
@[simp] theorem modGalley_poison : (s.modGalley g f).poison = s.poison := rfl
@[simp] theorem modGalley_lostMem : (s.modGalley g f).lostMem = s.lostMem := rfl
@[simp] theorem modGalley_hostMem : (s.modGalley g f).hostMem = s.hostMem := rfl
@[simp] theorem modGalley_corrected : (s.modGalley g f).corrected = s.corrected := rfl
@[simp] theorem modGalley_ctxs : (s.modGalley g f).ctxs = s.ctxs := rfl
@[simp] theorem modGalley_queues : (s.modGalley g f).queues = s.queues := rfl
@[simp] theorem modGalley_fences : (s.modGalley g f).fences = s.fences := rfl
@[simp] theorem modGalley_seals : (s.modGalley g f).seals = s.seals := rfl
@[simp] theorem modGalley_sealCount : (s.modGalley g f).sealCount = s.sealCount := rfl
@[simp] theorem modGalley_steps : (s.modGalley g f).steps = s.steps := rfl
@[simp] theorem modGalley_nextStep : (s.modGalley g f).nextStep = s.nextStep := rfl
@[simp] theorem modGalley_useCount : (s.modGalley g f).useCount = s.useCount := rfl
@[simp] theorem modGalley_resident : (s.modGalley g f).resident = s.resident := rfl
@[simp] theorem modGalley_switches : (s.modGalley g f).switches = s.switches := rfl
@[simp] theorem modGalley_switching : (s.modGalley g f).switching = s.switching := rfl
@[simp] theorem modGalley_upd : (s.modGalley g f).upd = s.upd := rfl
@[simp] theorem modGalley_serve : (s.modGalley g f).serve = s.serve := rfl
@[simp] theorem modGalley_host : (s.modGalley g f).host = s.host := rfl
@[simp] theorem modGalley_net : (s.modGalley g f).net = s.net := rfl
@[simp] theorem modGalley_fm : (s.modGalley g f).fm = s.fm := rfl
@[simp] theorem modGalley_bnd : (s.modGalley g f).bnd = s.bnd := rfl
@[simp] theorem modGalley_sec : (s.modGalley g f).sec = s.sec := rfl
@[simp] theorem modGalley_mgmt : (s.modGalley g f).mgmt = s.mgmt := rfl
@[simp] theorem modGalley_tele : (s.modGalley g f).tele = s.tele := rfl
@[simp] theorem modGalley_out : (s.modGalley g f).out = s.out := rfl
@[simp] theorem modGalley_pending : (s.modGalley g f).pending = s.pending := rfl

end

/-! ### setPlaten -/

section
variable (k : Nat) (x : PlatenSt)

@[simp] theorem setPlaten_now : (s.setPlaten k x).now = s.now := rfl
@[simp] theorem setPlaten_fresh : (s.setPlaten k x).fresh = s.fresh := rfl
@[simp] theorem setPlaten_lastRun : (s.setPlaten k x).lastRun = s.lastRun := rfl
@[simp] theorem setPlaten_profile : (s.setPlaten k x).profile = s.profile := rfl
@[simp] theorem setPlaten_domains : (s.setPlaten k x).domains = s.domains := rfl
@[simp] theorem setPlaten_galleys : (s.setPlaten k x).galleys = s.galleys := rfl
@[simp] theorem setPlaten_formes : (s.setPlaten k x).formes = s.formes := rfl
@[simp] theorem setPlaten_platens : (s.setPlaten k x).platens = vset s.platens k x := rfl
@[simp] theorem setPlaten_hbm : (s.setPlaten k x).hbm = s.hbm := rfl
@[simp] theorem setPlaten_fabric : (s.setPlaten k x).fabric = s.fabric := rfl
@[simp] theorem setPlaten_answers : (s.setPlaten k x).answers = s.answers := rfl
@[simp] theorem setPlaten_gathers : (s.setPlaten k x).gathers = s.gathers := rfl
@[simp] theorem setPlaten_tables : (s.setPlaten k x).tables = s.tables := rfl
@[simp] theorem setPlaten_generations : (s.setPlaten k x).generations = s.generations := rfl
@[simp] theorem setPlaten_mem : (s.setPlaten k x).mem = s.mem := rfl
@[simp] theorem setPlaten_poison : (s.setPlaten k x).poison = s.poison := rfl
@[simp] theorem setPlaten_lostMem : (s.setPlaten k x).lostMem = s.lostMem := rfl
@[simp] theorem setPlaten_hostMem : (s.setPlaten k x).hostMem = s.hostMem := rfl
@[simp] theorem setPlaten_corrected : (s.setPlaten k x).corrected = s.corrected := rfl
@[simp] theorem setPlaten_ctxs : (s.setPlaten k x).ctxs = s.ctxs := rfl
@[simp] theorem setPlaten_queues : (s.setPlaten k x).queues = s.queues := rfl
@[simp] theorem setPlaten_fences : (s.setPlaten k x).fences = s.fences := rfl
@[simp] theorem setPlaten_seals : (s.setPlaten k x).seals = s.seals := rfl
@[simp] theorem setPlaten_sealCount : (s.setPlaten k x).sealCount = s.sealCount := rfl
@[simp] theorem setPlaten_steps : (s.setPlaten k x).steps = s.steps := rfl
@[simp] theorem setPlaten_nextStep : (s.setPlaten k x).nextStep = s.nextStep := rfl
@[simp] theorem setPlaten_useCount : (s.setPlaten k x).useCount = s.useCount := rfl
@[simp] theorem setPlaten_resident : (s.setPlaten k x).resident = s.resident := rfl
@[simp] theorem setPlaten_switches : (s.setPlaten k x).switches = s.switches := rfl
@[simp] theorem setPlaten_switching : (s.setPlaten k x).switching = s.switching := rfl
@[simp] theorem setPlaten_upd : (s.setPlaten k x).upd = s.upd := rfl
@[simp] theorem setPlaten_serve : (s.setPlaten k x).serve = s.serve := rfl
@[simp] theorem setPlaten_host : (s.setPlaten k x).host = s.host := rfl
@[simp] theorem setPlaten_net : (s.setPlaten k x).net = s.net := rfl
@[simp] theorem setPlaten_fm : (s.setPlaten k x).fm = s.fm := rfl
@[simp] theorem setPlaten_bnd : (s.setPlaten k x).bnd = s.bnd := rfl
@[simp] theorem setPlaten_sec : (s.setPlaten k x).sec = s.sec := rfl
@[simp] theorem setPlaten_mgmt : (s.setPlaten k x).mgmt = s.mgmt := rfl
@[simp] theorem setPlaten_tele : (s.setPlaten k x).tele = s.tele := rfl
@[simp] theorem setPlaten_out : (s.setPlaten k x).out = s.out := rfl
@[simp] theorem setPlaten_pending : (s.setPlaten k x).pending = s.pending := rfl

end

/-! ### modPlaten -/

section
variable (k : Nat) (f : PlatenSt → PlatenSt)

@[simp] theorem modPlaten_now : (s.modPlaten k f).now = s.now := rfl
@[simp] theorem modPlaten_fresh : (s.modPlaten k f).fresh = s.fresh := rfl
@[simp] theorem modPlaten_lastRun : (s.modPlaten k f).lastRun = s.lastRun := rfl
@[simp] theorem modPlaten_profile : (s.modPlaten k f).profile = s.profile := rfl
@[simp] theorem modPlaten_domains : (s.modPlaten k f).domains = s.domains := rfl
@[simp] theorem modPlaten_galleys : (s.modPlaten k f).galleys = s.galleys := rfl
@[simp] theorem modPlaten_formes : (s.modPlaten k f).formes = s.formes := rfl
@[simp] theorem modPlaten_platens : (s.modPlaten k f).platens = vset s.platens k (f (s.platen k)) := rfl
@[simp] theorem modPlaten_hbm : (s.modPlaten k f).hbm = s.hbm := rfl
@[simp] theorem modPlaten_fabric : (s.modPlaten k f).fabric = s.fabric := rfl
@[simp] theorem modPlaten_answers : (s.modPlaten k f).answers = s.answers := rfl
@[simp] theorem modPlaten_gathers : (s.modPlaten k f).gathers = s.gathers := rfl
@[simp] theorem modPlaten_tables : (s.modPlaten k f).tables = s.tables := rfl
@[simp] theorem modPlaten_generations : (s.modPlaten k f).generations = s.generations := rfl
@[simp] theorem modPlaten_mem : (s.modPlaten k f).mem = s.mem := rfl
@[simp] theorem modPlaten_poison : (s.modPlaten k f).poison = s.poison := rfl
@[simp] theorem modPlaten_lostMem : (s.modPlaten k f).lostMem = s.lostMem := rfl
@[simp] theorem modPlaten_hostMem : (s.modPlaten k f).hostMem = s.hostMem := rfl
@[simp] theorem modPlaten_corrected : (s.modPlaten k f).corrected = s.corrected := rfl
@[simp] theorem modPlaten_ctxs : (s.modPlaten k f).ctxs = s.ctxs := rfl
@[simp] theorem modPlaten_queues : (s.modPlaten k f).queues = s.queues := rfl
@[simp] theorem modPlaten_fences : (s.modPlaten k f).fences = s.fences := rfl
@[simp] theorem modPlaten_seals : (s.modPlaten k f).seals = s.seals := rfl
@[simp] theorem modPlaten_sealCount : (s.modPlaten k f).sealCount = s.sealCount := rfl
@[simp] theorem modPlaten_steps : (s.modPlaten k f).steps = s.steps := rfl
@[simp] theorem modPlaten_nextStep : (s.modPlaten k f).nextStep = s.nextStep := rfl
@[simp] theorem modPlaten_useCount : (s.modPlaten k f).useCount = s.useCount := rfl
@[simp] theorem modPlaten_resident : (s.modPlaten k f).resident = s.resident := rfl
@[simp] theorem modPlaten_switches : (s.modPlaten k f).switches = s.switches := rfl
@[simp] theorem modPlaten_switching : (s.modPlaten k f).switching = s.switching := rfl
@[simp] theorem modPlaten_upd : (s.modPlaten k f).upd = s.upd := rfl
@[simp] theorem modPlaten_serve : (s.modPlaten k f).serve = s.serve := rfl
@[simp] theorem modPlaten_host : (s.modPlaten k f).host = s.host := rfl
@[simp] theorem modPlaten_net : (s.modPlaten k f).net = s.net := rfl
@[simp] theorem modPlaten_fm : (s.modPlaten k f).fm = s.fm := rfl
@[simp] theorem modPlaten_bnd : (s.modPlaten k f).bnd = s.bnd := rfl
@[simp] theorem modPlaten_sec : (s.modPlaten k f).sec = s.sec := rfl
@[simp] theorem modPlaten_mgmt : (s.modPlaten k f).mgmt = s.mgmt := rfl
@[simp] theorem modPlaten_tele : (s.modPlaten k f).tele = s.tele := rfl
@[simp] theorem modPlaten_out : (s.modPlaten k f).out = s.out := rfl
@[simp] theorem modPlaten_pending : (s.modPlaten k f).pending = s.pending := rfl

end

/-! ### mapPlatens -/

section
variable (f : PlatenSt → PlatenSt)

@[simp] theorem mapPlatens_now : (s.mapPlatens f).now = s.now := rfl
@[simp] theorem mapPlatens_fresh : (s.mapPlatens f).fresh = s.fresh := rfl
@[simp] theorem mapPlatens_lastRun : (s.mapPlatens f).lastRun = s.lastRun := rfl
@[simp] theorem mapPlatens_profile : (s.mapPlatens f).profile = s.profile := rfl
@[simp] theorem mapPlatens_domains : (s.mapPlatens f).domains = s.domains := rfl
@[simp] theorem mapPlatens_galleys : (s.mapPlatens f).galleys = s.galleys := rfl
@[simp] theorem mapPlatens_formes : (s.mapPlatens f).formes = s.formes := rfl
@[simp] theorem mapPlatens_platens : (s.mapPlatens f).platens = s.platens.map f := rfl
@[simp] theorem mapPlatens_hbm : (s.mapPlatens f).hbm = s.hbm := rfl
@[simp] theorem mapPlatens_fabric : (s.mapPlatens f).fabric = s.fabric := rfl
@[simp] theorem mapPlatens_answers : (s.mapPlatens f).answers = s.answers := rfl
@[simp] theorem mapPlatens_gathers : (s.mapPlatens f).gathers = s.gathers := rfl
@[simp] theorem mapPlatens_tables : (s.mapPlatens f).tables = s.tables := rfl
@[simp] theorem mapPlatens_generations : (s.mapPlatens f).generations = s.generations := rfl
@[simp] theorem mapPlatens_mem : (s.mapPlatens f).mem = s.mem := rfl
@[simp] theorem mapPlatens_poison : (s.mapPlatens f).poison = s.poison := rfl
@[simp] theorem mapPlatens_lostMem : (s.mapPlatens f).lostMem = s.lostMem := rfl
@[simp] theorem mapPlatens_hostMem : (s.mapPlatens f).hostMem = s.hostMem := rfl
@[simp] theorem mapPlatens_corrected : (s.mapPlatens f).corrected = s.corrected := rfl
@[simp] theorem mapPlatens_ctxs : (s.mapPlatens f).ctxs = s.ctxs := rfl
@[simp] theorem mapPlatens_queues : (s.mapPlatens f).queues = s.queues := rfl
@[simp] theorem mapPlatens_fences : (s.mapPlatens f).fences = s.fences := rfl
@[simp] theorem mapPlatens_seals : (s.mapPlatens f).seals = s.seals := rfl
@[simp] theorem mapPlatens_sealCount : (s.mapPlatens f).sealCount = s.sealCount := rfl
@[simp] theorem mapPlatens_steps : (s.mapPlatens f).steps = s.steps := rfl
@[simp] theorem mapPlatens_nextStep : (s.mapPlatens f).nextStep = s.nextStep := rfl
@[simp] theorem mapPlatens_useCount : (s.mapPlatens f).useCount = s.useCount := rfl
@[simp] theorem mapPlatens_resident : (s.mapPlatens f).resident = s.resident := rfl
@[simp] theorem mapPlatens_switches : (s.mapPlatens f).switches = s.switches := rfl
@[simp] theorem mapPlatens_switching : (s.mapPlatens f).switching = s.switching := rfl
@[simp] theorem mapPlatens_upd : (s.mapPlatens f).upd = s.upd := rfl
@[simp] theorem mapPlatens_serve : (s.mapPlatens f).serve = s.serve := rfl
@[simp] theorem mapPlatens_host : (s.mapPlatens f).host = s.host := rfl
@[simp] theorem mapPlatens_net : (s.mapPlatens f).net = s.net := rfl
@[simp] theorem mapPlatens_fm : (s.mapPlatens f).fm = s.fm := rfl
@[simp] theorem mapPlatens_bnd : (s.mapPlatens f).bnd = s.bnd := rfl
@[simp] theorem mapPlatens_sec : (s.mapPlatens f).sec = s.sec := rfl
@[simp] theorem mapPlatens_mgmt : (s.mapPlatens f).mgmt = s.mgmt := rfl
@[simp] theorem mapPlatens_tele : (s.mapPlatens f).tele = s.tele := rfl
@[simp] theorem mapPlatens_out : (s.mapPlatens f).out = s.out := rfl
@[simp] theorem mapPlatens_pending : (s.mapPlatens f).pending = s.pending := rfl

end

/-! ### setForme -/

section
variable (k : Nat) (x : FormeSt)

@[simp] theorem setForme_now : (s.setForme k x).now = s.now := rfl
@[simp] theorem setForme_fresh : (s.setForme k x).fresh = s.fresh := rfl
@[simp] theorem setForme_lastRun : (s.setForme k x).lastRun = s.lastRun := rfl
@[simp] theorem setForme_profile : (s.setForme k x).profile = s.profile := rfl
@[simp] theorem setForme_domains : (s.setForme k x).domains = s.domains := rfl
@[simp] theorem setForme_galleys : (s.setForme k x).galleys = s.galleys := rfl
@[simp] theorem setForme_formes : (s.setForme k x).formes = vset s.formes k x := rfl
@[simp] theorem setForme_platens : (s.setForme k x).platens = s.platens := rfl
@[simp] theorem setForme_hbm : (s.setForme k x).hbm = s.hbm := rfl
@[simp] theorem setForme_fabric : (s.setForme k x).fabric = s.fabric := rfl
@[simp] theorem setForme_answers : (s.setForme k x).answers = s.answers := rfl
@[simp] theorem setForme_gathers : (s.setForme k x).gathers = s.gathers := rfl
@[simp] theorem setForme_tables : (s.setForme k x).tables = s.tables := rfl
@[simp] theorem setForme_generations : (s.setForme k x).generations = s.generations := rfl
@[simp] theorem setForme_mem : (s.setForme k x).mem = s.mem := rfl
@[simp] theorem setForme_poison : (s.setForme k x).poison = s.poison := rfl
@[simp] theorem setForme_lostMem : (s.setForme k x).lostMem = s.lostMem := rfl
@[simp] theorem setForme_hostMem : (s.setForme k x).hostMem = s.hostMem := rfl
@[simp] theorem setForme_corrected : (s.setForme k x).corrected = s.corrected := rfl
@[simp] theorem setForme_ctxs : (s.setForme k x).ctxs = s.ctxs := rfl
@[simp] theorem setForme_queues : (s.setForme k x).queues = s.queues := rfl
@[simp] theorem setForme_fences : (s.setForme k x).fences = s.fences := rfl
@[simp] theorem setForme_seals : (s.setForme k x).seals = s.seals := rfl
@[simp] theorem setForme_sealCount : (s.setForme k x).sealCount = s.sealCount := rfl
@[simp] theorem setForme_steps : (s.setForme k x).steps = s.steps := rfl
@[simp] theorem setForme_nextStep : (s.setForme k x).nextStep = s.nextStep := rfl
@[simp] theorem setForme_useCount : (s.setForme k x).useCount = s.useCount := rfl
@[simp] theorem setForme_resident : (s.setForme k x).resident = s.resident := rfl
@[simp] theorem setForme_switches : (s.setForme k x).switches = s.switches := rfl
@[simp] theorem setForme_switching : (s.setForme k x).switching = s.switching := rfl
@[simp] theorem setForme_upd : (s.setForme k x).upd = s.upd := rfl
@[simp] theorem setForme_serve : (s.setForme k x).serve = s.serve := rfl
@[simp] theorem setForme_host : (s.setForme k x).host = s.host := rfl
@[simp] theorem setForme_net : (s.setForme k x).net = s.net := rfl
@[simp] theorem setForme_fm : (s.setForme k x).fm = s.fm := rfl
@[simp] theorem setForme_bnd : (s.setForme k x).bnd = s.bnd := rfl
@[simp] theorem setForme_sec : (s.setForme k x).sec = s.sec := rfl
@[simp] theorem setForme_mgmt : (s.setForme k x).mgmt = s.mgmt := rfl
@[simp] theorem setForme_tele : (s.setForme k x).tele = s.tele := rfl
@[simp] theorem setForme_out : (s.setForme k x).out = s.out := rfl
@[simp] theorem setForme_pending : (s.setForme k x).pending = s.pending := rfl

end

/-! ### modStack -/

section
variable (k : Nat) (f : StackSt → StackSt)

@[simp] theorem modStack_now : (s.modStack k f).now = s.now := rfl
@[simp] theorem modStack_fresh : (s.modStack k f).fresh = s.fresh := rfl
@[simp] theorem modStack_lastRun : (s.modStack k f).lastRun = s.lastRun := rfl
@[simp] theorem modStack_profile : (s.modStack k f).profile = s.profile := rfl
@[simp] theorem modStack_domains : (s.modStack k f).domains = s.domains := rfl
@[simp] theorem modStack_galleys : (s.modStack k f).galleys = s.galleys := rfl
@[simp] theorem modStack_formes : (s.modStack k f).formes = s.formes := rfl
@[simp] theorem modStack_platens : (s.modStack k f).platens = s.platens := rfl
@[simp] theorem modStack_hbm : (s.modStack k f).hbm = vset s.hbm k (f (s.stack k)) := rfl
@[simp] theorem modStack_fabric : (s.modStack k f).fabric = s.fabric := rfl
@[simp] theorem modStack_answers : (s.modStack k f).answers = s.answers := rfl
@[simp] theorem modStack_gathers : (s.modStack k f).gathers = s.gathers := rfl
@[simp] theorem modStack_tables : (s.modStack k f).tables = s.tables := rfl
@[simp] theorem modStack_generations : (s.modStack k f).generations = s.generations := rfl
@[simp] theorem modStack_mem : (s.modStack k f).mem = s.mem := rfl
@[simp] theorem modStack_poison : (s.modStack k f).poison = s.poison := rfl
@[simp] theorem modStack_lostMem : (s.modStack k f).lostMem = s.lostMem := rfl
@[simp] theorem modStack_hostMem : (s.modStack k f).hostMem = s.hostMem := rfl
@[simp] theorem modStack_corrected : (s.modStack k f).corrected = s.corrected := rfl
@[simp] theorem modStack_ctxs : (s.modStack k f).ctxs = s.ctxs := rfl
@[simp] theorem modStack_queues : (s.modStack k f).queues = s.queues := rfl
@[simp] theorem modStack_fences : (s.modStack k f).fences = s.fences := rfl
@[simp] theorem modStack_seals : (s.modStack k f).seals = s.seals := rfl
@[simp] theorem modStack_sealCount : (s.modStack k f).sealCount = s.sealCount := rfl
@[simp] theorem modStack_steps : (s.modStack k f).steps = s.steps := rfl
@[simp] theorem modStack_nextStep : (s.modStack k f).nextStep = s.nextStep := rfl
@[simp] theorem modStack_useCount : (s.modStack k f).useCount = s.useCount := rfl
@[simp] theorem modStack_resident : (s.modStack k f).resident = s.resident := rfl
@[simp] theorem modStack_switches : (s.modStack k f).switches = s.switches := rfl
@[simp] theorem modStack_switching : (s.modStack k f).switching = s.switching := rfl
@[simp] theorem modStack_upd : (s.modStack k f).upd = s.upd := rfl
@[simp] theorem modStack_serve : (s.modStack k f).serve = s.serve := rfl
@[simp] theorem modStack_host : (s.modStack k f).host = s.host := rfl
@[simp] theorem modStack_net : (s.modStack k f).net = s.net := rfl
@[simp] theorem modStack_fm : (s.modStack k f).fm = s.fm := rfl
@[simp] theorem modStack_bnd : (s.modStack k f).bnd = s.bnd := rfl
@[simp] theorem modStack_sec : (s.modStack k f).sec = s.sec := rfl
@[simp] theorem modStack_mgmt : (s.modStack k f).mgmt = s.mgmt := rfl
@[simp] theorem modStack_tele : (s.modStack k f).tele = s.tele := rfl
@[simp] theorem modStack_out : (s.modStack k f).out = s.out := rfl
@[simp] theorem modStack_pending : (s.modStack k f).pending = s.pending := rfl

end

/-! ### setInst -/

section
variable (k : Nat) (x : InstSt)

@[simp] theorem setInst_now : (s.setInst k x).now = s.now := rfl
@[simp] theorem setInst_fresh : (s.setInst k x).fresh = s.fresh := rfl
@[simp] theorem setInst_lastRun : (s.setInst k x).lastRun = s.lastRun := rfl
@[simp] theorem setInst_profile : (s.setInst k x).profile = s.profile := rfl
@[simp] theorem setInst_domains : (s.setInst k x).domains = s.domains := rfl
@[simp] theorem setInst_galleys : (s.setInst k x).galleys = s.galleys := rfl
@[simp] theorem setInst_formes : (s.setInst k x).formes = s.formes := rfl
@[simp] theorem setInst_platens : (s.setInst k x).platens = s.platens := rfl
@[simp] theorem setInst_hbm : (s.setInst k x).hbm = s.hbm := rfl
@[simp] theorem setInst_fabric : (s.setInst k x).fabric = s.fabric := rfl
@[simp] theorem setInst_answers : (s.setInst k x).answers = s.answers := rfl
@[simp] theorem setInst_gathers : (s.setInst k x).gathers = s.gathers := rfl
@[simp] theorem setInst_tables : (s.setInst k x).tables = s.tables := rfl
@[simp] theorem setInst_generations : (s.setInst k x).generations = s.generations := rfl
@[simp] theorem setInst_mem : (s.setInst k x).mem = s.mem := rfl
@[simp] theorem setInst_poison : (s.setInst k x).poison = s.poison := rfl
@[simp] theorem setInst_lostMem : (s.setInst k x).lostMem = s.lostMem := rfl
@[simp] theorem setInst_hostMem : (s.setInst k x).hostMem = s.hostMem := rfl
@[simp] theorem setInst_corrected : (s.setInst k x).corrected = s.corrected := rfl
@[simp] theorem setInst_ctxs : (s.setInst k x).ctxs = s.ctxs := rfl
@[simp] theorem setInst_queues : (s.setInst k x).queues = s.queues := rfl
@[simp] theorem setInst_fences : (s.setInst k x).fences = s.fences := rfl
@[simp] theorem setInst_seals : (s.setInst k x).seals = s.seals := rfl
@[simp] theorem setInst_sealCount : (s.setInst k x).sealCount = s.sealCount := rfl
@[simp] theorem setInst_steps : (s.setInst k x).steps = s.steps := rfl
@[simp] theorem setInst_nextStep : (s.setInst k x).nextStep = s.nextStep := rfl
@[simp] theorem setInst_useCount : (s.setInst k x).useCount = s.useCount := rfl
@[simp] theorem setInst_resident : (s.setInst k x).resident = s.resident := rfl
@[simp] theorem setInst_switches : (s.setInst k x).switches = s.switches := rfl
@[simp] theorem setInst_switching : (s.setInst k x).switching = s.switching := rfl
@[simp] theorem setInst_upd : (s.setInst k x).upd = s.upd := rfl
@[simp] theorem setInst_serve : (s.setInst k x).serve = s.serve := rfl
@[simp] theorem setInst_host : (s.setInst k x).host = { s.host with insts := tput s.host.insts k x } := rfl
@[simp] theorem setInst_net : (s.setInst k x).net = s.net := rfl
@[simp] theorem setInst_fm : (s.setInst k x).fm = s.fm := rfl
@[simp] theorem setInst_bnd : (s.setInst k x).bnd = s.bnd := rfl
@[simp] theorem setInst_sec : (s.setInst k x).sec = s.sec := rfl
@[simp] theorem setInst_mgmt : (s.setInst k x).mgmt = s.mgmt := rfl
@[simp] theorem setInst_tele : (s.setInst k x).tele = s.tele := rfl
@[simp] theorem setInst_out : (s.setInst k x).out = s.out := rfl
@[simp] theorem setInst_pending : (s.setInst k x).pending = s.pending := rfl

end

/-! ### modInst -/

section
variable (k : Nat) (f : InstSt → InstSt)

@[simp] theorem modInst_now : (s.modInst k f).now = s.now := rfl
@[simp] theorem modInst_fresh : (s.modInst k f).fresh = s.fresh := rfl
@[simp] theorem modInst_lastRun : (s.modInst k f).lastRun = s.lastRun := rfl
@[simp] theorem modInst_profile : (s.modInst k f).profile = s.profile := rfl
@[simp] theorem modInst_domains : (s.modInst k f).domains = s.domains := rfl
@[simp] theorem modInst_galleys : (s.modInst k f).galleys = s.galleys := rfl
@[simp] theorem modInst_formes : (s.modInst k f).formes = s.formes := rfl
@[simp] theorem modInst_platens : (s.modInst k f).platens = s.platens := rfl
@[simp] theorem modInst_hbm : (s.modInst k f).hbm = s.hbm := rfl
@[simp] theorem modInst_fabric : (s.modInst k f).fabric = s.fabric := rfl
@[simp] theorem modInst_answers : (s.modInst k f).answers = s.answers := rfl
@[simp] theorem modInst_gathers : (s.modInst k f).gathers = s.gathers := rfl
@[simp] theorem modInst_tables : (s.modInst k f).tables = s.tables := rfl
@[simp] theorem modInst_generations : (s.modInst k f).generations = s.generations := rfl
@[simp] theorem modInst_mem : (s.modInst k f).mem = s.mem := rfl
@[simp] theorem modInst_poison : (s.modInst k f).poison = s.poison := rfl
@[simp] theorem modInst_lostMem : (s.modInst k f).lostMem = s.lostMem := rfl
@[simp] theorem modInst_hostMem : (s.modInst k f).hostMem = s.hostMem := rfl
@[simp] theorem modInst_corrected : (s.modInst k f).corrected = s.corrected := rfl
@[simp] theorem modInst_ctxs : (s.modInst k f).ctxs = s.ctxs := rfl
@[simp] theorem modInst_queues : (s.modInst k f).queues = s.queues := rfl
@[simp] theorem modInst_fences : (s.modInst k f).fences = s.fences := rfl
@[simp] theorem modInst_seals : (s.modInst k f).seals = s.seals := rfl
@[simp] theorem modInst_sealCount : (s.modInst k f).sealCount = s.sealCount := rfl
@[simp] theorem modInst_steps : (s.modInst k f).steps = s.steps := rfl
@[simp] theorem modInst_nextStep : (s.modInst k f).nextStep = s.nextStep := rfl
@[simp] theorem modInst_useCount : (s.modInst k f).useCount = s.useCount := rfl
@[simp] theorem modInst_resident : (s.modInst k f).resident = s.resident := rfl
@[simp] theorem modInst_switches : (s.modInst k f).switches = s.switches := rfl
@[simp] theorem modInst_switching : (s.modInst k f).switching = s.switching := rfl
@[simp] theorem modInst_upd : (s.modInst k f).upd = s.upd := rfl
@[simp] theorem modInst_serve : (s.modInst k f).serve = s.serve := rfl
@[simp] theorem modInst_host : (s.modInst k f).host = { s.host with insts := tput s.host.insts k (f (s.inst k)) } := rfl
@[simp] theorem modInst_net : (s.modInst k f).net = s.net := rfl
@[simp] theorem modInst_fm : (s.modInst k f).fm = s.fm := rfl
@[simp] theorem modInst_bnd : (s.modInst k f).bnd = s.bnd := rfl
@[simp] theorem modInst_sec : (s.modInst k f).sec = s.sec := rfl
@[simp] theorem modInst_mgmt : (s.modInst k f).mgmt = s.mgmt := rfl
@[simp] theorem modInst_tele : (s.modInst k f).tele = s.tele := rfl
@[simp] theorem modInst_out : (s.modInst k f).out = s.out := rfl
@[simp] theorem modInst_pending : (s.modInst k f).pending = s.pending := rfl

end

/-! ### modFn -/

section
variable (k : Nat) (f : FnRegs → FnRegs)

@[simp] theorem modFn_now : (s.modFn k f).now = s.now := rfl
@[simp] theorem modFn_fresh : (s.modFn k f).fresh = s.fresh := rfl
@[simp] theorem modFn_lastRun : (s.modFn k f).lastRun = s.lastRun := rfl
@[simp] theorem modFn_profile : (s.modFn k f).profile = s.profile := rfl
@[simp] theorem modFn_domains : (s.modFn k f).domains = s.domains := rfl
@[simp] theorem modFn_galleys : (s.modFn k f).galleys = s.galleys := rfl
@[simp] theorem modFn_formes : (s.modFn k f).formes = s.formes := rfl
@[simp] theorem modFn_platens : (s.modFn k f).platens = s.platens := rfl
@[simp] theorem modFn_hbm : (s.modFn k f).hbm = s.hbm := rfl
@[simp] theorem modFn_fabric : (s.modFn k f).fabric = s.fabric := rfl
@[simp] theorem modFn_answers : (s.modFn k f).answers = s.answers := rfl
@[simp] theorem modFn_gathers : (s.modFn k f).gathers = s.gathers := rfl
@[simp] theorem modFn_tables : (s.modFn k f).tables = s.tables := rfl
@[simp] theorem modFn_generations : (s.modFn k f).generations = s.generations := rfl
@[simp] theorem modFn_mem : (s.modFn k f).mem = s.mem := rfl
@[simp] theorem modFn_poison : (s.modFn k f).poison = s.poison := rfl
@[simp] theorem modFn_lostMem : (s.modFn k f).lostMem = s.lostMem := rfl
@[simp] theorem modFn_hostMem : (s.modFn k f).hostMem = s.hostMem := rfl
@[simp] theorem modFn_corrected : (s.modFn k f).corrected = s.corrected := rfl
@[simp] theorem modFn_ctxs : (s.modFn k f).ctxs = s.ctxs := rfl
@[simp] theorem modFn_queues : (s.modFn k f).queues = s.queues := rfl
@[simp] theorem modFn_fences : (s.modFn k f).fences = s.fences := rfl
@[simp] theorem modFn_seals : (s.modFn k f).seals = s.seals := rfl
@[simp] theorem modFn_sealCount : (s.modFn k f).sealCount = s.sealCount := rfl
@[simp] theorem modFn_steps : (s.modFn k f).steps = s.steps := rfl
@[simp] theorem modFn_nextStep : (s.modFn k f).nextStep = s.nextStep := rfl
@[simp] theorem modFn_useCount : (s.modFn k f).useCount = s.useCount := rfl
@[simp] theorem modFn_resident : (s.modFn k f).resident = s.resident := rfl
@[simp] theorem modFn_switches : (s.modFn k f).switches = s.switches := rfl
@[simp] theorem modFn_switching : (s.modFn k f).switching = s.switching := rfl
@[simp] theorem modFn_upd : (s.modFn k f).upd = s.upd := rfl
@[simp] theorem modFn_serve : (s.modFn k f).serve = s.serve := rfl
@[simp] theorem modFn_host : (s.modFn k f).host = { s.host with insts := tput s.host.insts k { s.inst k with fn := f (s.inst k).fn } } := rfl
@[simp] theorem modFn_net : (s.modFn k f).net = s.net := rfl
@[simp] theorem modFn_fm : (s.modFn k f).fm = s.fm := rfl
@[simp] theorem modFn_bnd : (s.modFn k f).bnd = s.bnd := rfl
@[simp] theorem modFn_sec : (s.modFn k f).sec = s.sec := rfl
@[simp] theorem modFn_mgmt : (s.modFn k f).mgmt = s.mgmt := rfl
@[simp] theorem modFn_tele : (s.modFn k f).tele = s.tele := rfl
@[simp] theorem modFn_out : (s.modFn k f).out = s.out := rfl
@[simp] theorem modFn_pending : (s.modFn k f).pending = s.pending := rfl

end

/-! ### modBce -/

section
variable (f : BceSt → BceSt)

@[simp] theorem modBce_now : (s.modBce f).now = s.now := rfl
@[simp] theorem modBce_fresh : (s.modBce f).fresh = s.fresh := rfl
@[simp] theorem modBce_lastRun : (s.modBce f).lastRun = s.lastRun := rfl
@[simp] theorem modBce_profile : (s.modBce f).profile = s.profile := rfl
@[simp] theorem modBce_domains : (s.modBce f).domains = s.domains := rfl
@[simp] theorem modBce_galleys : (s.modBce f).galleys = s.galleys := rfl
@[simp] theorem modBce_formes : (s.modBce f).formes = s.formes := rfl
@[simp] theorem modBce_platens : (s.modBce f).platens = s.platens := rfl
@[simp] theorem modBce_hbm : (s.modBce f).hbm = s.hbm := rfl
@[simp] theorem modBce_fabric : (s.modBce f).fabric = s.fabric := rfl
@[simp] theorem modBce_answers : (s.modBce f).answers = s.answers := rfl
@[simp] theorem modBce_gathers : (s.modBce f).gathers = s.gathers := rfl
@[simp] theorem modBce_tables : (s.modBce f).tables = s.tables := rfl
@[simp] theorem modBce_generations : (s.modBce f).generations = s.generations := rfl
@[simp] theorem modBce_mem : (s.modBce f).mem = s.mem := rfl
@[simp] theorem modBce_poison : (s.modBce f).poison = s.poison := rfl
@[simp] theorem modBce_lostMem : (s.modBce f).lostMem = s.lostMem := rfl
@[simp] theorem modBce_hostMem : (s.modBce f).hostMem = s.hostMem := rfl
@[simp] theorem modBce_corrected : (s.modBce f).corrected = s.corrected := rfl
@[simp] theorem modBce_ctxs : (s.modBce f).ctxs = s.ctxs := rfl
@[simp] theorem modBce_queues : (s.modBce f).queues = s.queues := rfl
@[simp] theorem modBce_fences : (s.modBce f).fences = s.fences := rfl
@[simp] theorem modBce_seals : (s.modBce f).seals = s.seals := rfl
@[simp] theorem modBce_sealCount : (s.modBce f).sealCount = s.sealCount := rfl
@[simp] theorem modBce_steps : (s.modBce f).steps = s.steps := rfl
@[simp] theorem modBce_nextStep : (s.modBce f).nextStep = s.nextStep := rfl
@[simp] theorem modBce_useCount : (s.modBce f).useCount = s.useCount := rfl
@[simp] theorem modBce_resident : (s.modBce f).resident = s.resident := rfl
@[simp] theorem modBce_switches : (s.modBce f).switches = s.switches := rfl
@[simp] theorem modBce_switching : (s.modBce f).switching = s.switching := rfl
@[simp] theorem modBce_upd : (s.modBce f).upd = s.upd := rfl
@[simp] theorem modBce_serve : (s.modBce f).serve = s.serve := rfl
@[simp] theorem modBce_host : (s.modBce f).host = { s.host with bce := f s.host.bce } := rfl
@[simp] theorem modBce_net : (s.modBce f).net = s.net := rfl
@[simp] theorem modBce_fm : (s.modBce f).fm = s.fm := rfl
@[simp] theorem modBce_bnd : (s.modBce f).bnd = s.bnd := rfl
@[simp] theorem modBce_sec : (s.modBce f).sec = s.sec := rfl
@[simp] theorem modBce_mgmt : (s.modBce f).mgmt = s.mgmt := rfl
@[simp] theorem modBce_tele : (s.modBce f).tele = s.tele := rfl
@[simp] theorem modBce_out : (s.modBce f).out = s.out := rfl
@[simp] theorem modBce_pending : (s.modBce f).pending = s.pending := rfl

end

/-! ### modPair -/

section
variable (k : Nat) (f : Pair → Pair)

@[simp] theorem modPair_now : (s.modPair k f).now = s.now := rfl
@[simp] theorem modPair_fresh : (s.modPair k f).fresh = s.fresh := rfl
@[simp] theorem modPair_lastRun : (s.modPair k f).lastRun = s.lastRun := rfl
@[simp] theorem modPair_profile : (s.modPair k f).profile = s.profile := rfl
@[simp] theorem modPair_domains : (s.modPair k f).domains = s.domains := rfl
@[simp] theorem modPair_galleys : (s.modPair k f).galleys = s.galleys := rfl
@[simp] theorem modPair_formes : (s.modPair k f).formes = s.formes := rfl
@[simp] theorem modPair_platens : (s.modPair k f).platens = s.platens := rfl
@[simp] theorem modPair_hbm : (s.modPair k f).hbm = s.hbm := rfl
@[simp] theorem modPair_fabric : (s.modPair k f).fabric = s.fabric := rfl
@[simp] theorem modPair_answers : (s.modPair k f).answers = s.answers := rfl
@[simp] theorem modPair_gathers : (s.modPair k f).gathers = s.gathers := rfl
@[simp] theorem modPair_tables : (s.modPair k f).tables = s.tables := rfl
@[simp] theorem modPair_generations : (s.modPair k f).generations = s.generations := rfl
@[simp] theorem modPair_mem : (s.modPair k f).mem = s.mem := rfl
@[simp] theorem modPair_poison : (s.modPair k f).poison = s.poison := rfl
@[simp] theorem modPair_lostMem : (s.modPair k f).lostMem = s.lostMem := rfl
@[simp] theorem modPair_hostMem : (s.modPair k f).hostMem = s.hostMem := rfl
@[simp] theorem modPair_corrected : (s.modPair k f).corrected = s.corrected := rfl
@[simp] theorem modPair_ctxs : (s.modPair k f).ctxs = s.ctxs := rfl
@[simp] theorem modPair_queues : (s.modPair k f).queues = s.queues := rfl
@[simp] theorem modPair_fences : (s.modPair k f).fences = s.fences := rfl
@[simp] theorem modPair_seals : (s.modPair k f).seals = s.seals := rfl
@[simp] theorem modPair_sealCount : (s.modPair k f).sealCount = s.sealCount := rfl
@[simp] theorem modPair_steps : (s.modPair k f).steps = s.steps := rfl
@[simp] theorem modPair_nextStep : (s.modPair k f).nextStep = s.nextStep := rfl
@[simp] theorem modPair_useCount : (s.modPair k f).useCount = s.useCount := rfl
@[simp] theorem modPair_resident : (s.modPair k f).resident = s.resident := rfl
@[simp] theorem modPair_switches : (s.modPair k f).switches = s.switches := rfl
@[simp] theorem modPair_switching : (s.modPair k f).switching = s.switching := rfl
@[simp] theorem modPair_upd : (s.modPair k f).upd = s.upd := rfl
@[simp] theorem modPair_serve : (s.modPair k f).serve = s.serve := rfl
@[simp] theorem modPair_host : (s.modPair k f).host = { s.host with bce := { s.host.bce with pairs := tmod s.host.bce.pairs k f } } := rfl
@[simp] theorem modPair_net : (s.modPair k f).net = s.net := rfl
@[simp] theorem modPair_fm : (s.modPair k f).fm = s.fm := rfl
@[simp] theorem modPair_bnd : (s.modPair k f).bnd = s.bnd := rfl
@[simp] theorem modPair_sec : (s.modPair k f).sec = s.sec := rfl
@[simp] theorem modPair_mgmt : (s.modPair k f).mgmt = s.mgmt := rfl
@[simp] theorem modPair_tele : (s.modPair k f).tele = s.tele := rfl
@[simp] theorem modPair_out : (s.modPair k f).out = s.out := rfl
@[simp] theorem modPair_pending : (s.modPair k f).pending = s.pending := rfl

end

/-! ### modCtx -/

section
variable (k : Nat) (f : CtxSt → CtxSt)

@[simp] theorem modCtx_now : (s.modCtx k f).now = s.now := rfl
@[simp] theorem modCtx_fresh : (s.modCtx k f).fresh = s.fresh := rfl
@[simp] theorem modCtx_lastRun : (s.modCtx k f).lastRun = s.lastRun := rfl
@[simp] theorem modCtx_profile : (s.modCtx k f).profile = s.profile := rfl
@[simp] theorem modCtx_domains : (s.modCtx k f).domains = s.domains := rfl
@[simp] theorem modCtx_galleys : (s.modCtx k f).galleys = s.galleys := rfl
@[simp] theorem modCtx_formes : (s.modCtx k f).formes = s.formes := rfl
@[simp] theorem modCtx_platens : (s.modCtx k f).platens = s.platens := rfl
@[simp] theorem modCtx_hbm : (s.modCtx k f).hbm = s.hbm := rfl
@[simp] theorem modCtx_fabric : (s.modCtx k f).fabric = s.fabric := rfl
@[simp] theorem modCtx_answers : (s.modCtx k f).answers = s.answers := rfl
@[simp] theorem modCtx_gathers : (s.modCtx k f).gathers = s.gathers := rfl
@[simp] theorem modCtx_tables : (s.modCtx k f).tables = s.tables := rfl
@[simp] theorem modCtx_generations : (s.modCtx k f).generations = s.generations := rfl
@[simp] theorem modCtx_mem : (s.modCtx k f).mem = s.mem := rfl
@[simp] theorem modCtx_poison : (s.modCtx k f).poison = s.poison := rfl
@[simp] theorem modCtx_lostMem : (s.modCtx k f).lostMem = s.lostMem := rfl
@[simp] theorem modCtx_hostMem : (s.modCtx k f).hostMem = s.hostMem := rfl
@[simp] theorem modCtx_corrected : (s.modCtx k f).corrected = s.corrected := rfl
@[simp] theorem modCtx_ctxs : (s.modCtx k f).ctxs = tmod s.ctxs k f := rfl
@[simp] theorem modCtx_queues : (s.modCtx k f).queues = s.queues := rfl
@[simp] theorem modCtx_fences : (s.modCtx k f).fences = s.fences := rfl
@[simp] theorem modCtx_seals : (s.modCtx k f).seals = s.seals := rfl
@[simp] theorem modCtx_sealCount : (s.modCtx k f).sealCount = s.sealCount := rfl
@[simp] theorem modCtx_steps : (s.modCtx k f).steps = s.steps := rfl
@[simp] theorem modCtx_nextStep : (s.modCtx k f).nextStep = s.nextStep := rfl
@[simp] theorem modCtx_useCount : (s.modCtx k f).useCount = s.useCount := rfl
@[simp] theorem modCtx_resident : (s.modCtx k f).resident = s.resident := rfl
@[simp] theorem modCtx_switches : (s.modCtx k f).switches = s.switches := rfl
@[simp] theorem modCtx_switching : (s.modCtx k f).switching = s.switching := rfl
@[simp] theorem modCtx_upd : (s.modCtx k f).upd = s.upd := rfl
@[simp] theorem modCtx_serve : (s.modCtx k f).serve = s.serve := rfl
@[simp] theorem modCtx_host : (s.modCtx k f).host = s.host := rfl
@[simp] theorem modCtx_net : (s.modCtx k f).net = s.net := rfl
@[simp] theorem modCtx_fm : (s.modCtx k f).fm = s.fm := rfl
@[simp] theorem modCtx_bnd : (s.modCtx k f).bnd = s.bnd := rfl
@[simp] theorem modCtx_sec : (s.modCtx k f).sec = s.sec := rfl
@[simp] theorem modCtx_mgmt : (s.modCtx k f).mgmt = s.mgmt := rfl
@[simp] theorem modCtx_tele : (s.modCtx k f).tele = s.tele := rfl
@[simp] theorem modCtx_out : (s.modCtx k f).out = s.out := rfl
@[simp] theorem modCtx_pending : (s.modCtx k f).pending = s.pending := rfl

end

/-! ### modQueue -/

section
variable (k : Nat) (f : QueueSt → QueueSt)

@[simp] theorem modQueue_now : (s.modQueue k f).now = s.now := rfl
@[simp] theorem modQueue_fresh : (s.modQueue k f).fresh = s.fresh := rfl
@[simp] theorem modQueue_lastRun : (s.modQueue k f).lastRun = s.lastRun := rfl
@[simp] theorem modQueue_profile : (s.modQueue k f).profile = s.profile := rfl
@[simp] theorem modQueue_domains : (s.modQueue k f).domains = s.domains := rfl
@[simp] theorem modQueue_galleys : (s.modQueue k f).galleys = s.galleys := rfl
@[simp] theorem modQueue_formes : (s.modQueue k f).formes = s.formes := rfl
@[simp] theorem modQueue_platens : (s.modQueue k f).platens = s.platens := rfl
@[simp] theorem modQueue_hbm : (s.modQueue k f).hbm = s.hbm := rfl
@[simp] theorem modQueue_fabric : (s.modQueue k f).fabric = s.fabric := rfl
@[simp] theorem modQueue_answers : (s.modQueue k f).answers = s.answers := rfl
@[simp] theorem modQueue_gathers : (s.modQueue k f).gathers = s.gathers := rfl
@[simp] theorem modQueue_tables : (s.modQueue k f).tables = s.tables := rfl
@[simp] theorem modQueue_generations : (s.modQueue k f).generations = s.generations := rfl
@[simp] theorem modQueue_mem : (s.modQueue k f).mem = s.mem := rfl
@[simp] theorem modQueue_poison : (s.modQueue k f).poison = s.poison := rfl
@[simp] theorem modQueue_lostMem : (s.modQueue k f).lostMem = s.lostMem := rfl
@[simp] theorem modQueue_hostMem : (s.modQueue k f).hostMem = s.hostMem := rfl
@[simp] theorem modQueue_corrected : (s.modQueue k f).corrected = s.corrected := rfl
@[simp] theorem modQueue_ctxs : (s.modQueue k f).ctxs = s.ctxs := rfl
@[simp] theorem modQueue_queues : (s.modQueue k f).queues = tmod s.queues k f := rfl
@[simp] theorem modQueue_fences : (s.modQueue k f).fences = s.fences := rfl
@[simp] theorem modQueue_seals : (s.modQueue k f).seals = s.seals := rfl
@[simp] theorem modQueue_sealCount : (s.modQueue k f).sealCount = s.sealCount := rfl
@[simp] theorem modQueue_steps : (s.modQueue k f).steps = s.steps := rfl
@[simp] theorem modQueue_nextStep : (s.modQueue k f).nextStep = s.nextStep := rfl
@[simp] theorem modQueue_useCount : (s.modQueue k f).useCount = s.useCount := rfl
@[simp] theorem modQueue_resident : (s.modQueue k f).resident = s.resident := rfl
@[simp] theorem modQueue_switches : (s.modQueue k f).switches = s.switches := rfl
@[simp] theorem modQueue_switching : (s.modQueue k f).switching = s.switching := rfl
@[simp] theorem modQueue_upd : (s.modQueue k f).upd = s.upd := rfl
@[simp] theorem modQueue_serve : (s.modQueue k f).serve = s.serve := rfl
@[simp] theorem modQueue_host : (s.modQueue k f).host = s.host := rfl
@[simp] theorem modQueue_net : (s.modQueue k f).net = s.net := rfl
@[simp] theorem modQueue_fm : (s.modQueue k f).fm = s.fm := rfl
@[simp] theorem modQueue_bnd : (s.modQueue k f).bnd = s.bnd := rfl
@[simp] theorem modQueue_sec : (s.modQueue k f).sec = s.sec := rfl
@[simp] theorem modQueue_mgmt : (s.modQueue k f).mgmt = s.mgmt := rfl
@[simp] theorem modQueue_tele : (s.modQueue k f).tele = s.tele := rfl
@[simp] theorem modQueue_out : (s.modQueue k f).out = s.out := rfl
@[simp] theorem modQueue_pending : (s.modQueue k f).pending = s.pending := rfl

end

/-! ### modCmd -/

section
variable (k no : Nat) (f : Cmd → Cmd)

@[simp] theorem modCmd_now : (s.modCmd k no f).now = s.now := rfl
@[simp] theorem modCmd_fresh : (s.modCmd k no f).fresh = s.fresh := rfl
@[simp] theorem modCmd_lastRun : (s.modCmd k no f).lastRun = s.lastRun := rfl
@[simp] theorem modCmd_profile : (s.modCmd k no f).profile = s.profile := rfl
@[simp] theorem modCmd_domains : (s.modCmd k no f).domains = s.domains := rfl
@[simp] theorem modCmd_galleys : (s.modCmd k no f).galleys = s.galleys := rfl
@[simp] theorem modCmd_formes : (s.modCmd k no f).formes = s.formes := rfl
@[simp] theorem modCmd_platens : (s.modCmd k no f).platens = s.platens := rfl
@[simp] theorem modCmd_hbm : (s.modCmd k no f).hbm = s.hbm := rfl
@[simp] theorem modCmd_fabric : (s.modCmd k no f).fabric = s.fabric := rfl
@[simp] theorem modCmd_answers : (s.modCmd k no f).answers = s.answers := rfl
@[simp] theorem modCmd_gathers : (s.modCmd k no f).gathers = s.gathers := rfl
@[simp] theorem modCmd_tables : (s.modCmd k no f).tables = s.tables := rfl
@[simp] theorem modCmd_generations : (s.modCmd k no f).generations = s.generations := rfl
@[simp] theorem modCmd_mem : (s.modCmd k no f).mem = s.mem := rfl
@[simp] theorem modCmd_poison : (s.modCmd k no f).poison = s.poison := rfl
@[simp] theorem modCmd_lostMem : (s.modCmd k no f).lostMem = s.lostMem := rfl
@[simp] theorem modCmd_hostMem : (s.modCmd k no f).hostMem = s.hostMem := rfl
@[simp] theorem modCmd_corrected : (s.modCmd k no f).corrected = s.corrected := rfl
@[simp] theorem modCmd_ctxs : (s.modCmd k no f).ctxs = s.ctxs := rfl
@[simp] theorem modCmd_queues : (s.modCmd k no f).queues = tmod s.queues k (fun x => x.modCmd no f) := rfl
@[simp] theorem modCmd_fences : (s.modCmd k no f).fences = s.fences := rfl
@[simp] theorem modCmd_seals : (s.modCmd k no f).seals = s.seals := rfl
@[simp] theorem modCmd_sealCount : (s.modCmd k no f).sealCount = s.sealCount := rfl
@[simp] theorem modCmd_steps : (s.modCmd k no f).steps = s.steps := rfl
@[simp] theorem modCmd_nextStep : (s.modCmd k no f).nextStep = s.nextStep := rfl
@[simp] theorem modCmd_useCount : (s.modCmd k no f).useCount = s.useCount := rfl
@[simp] theorem modCmd_resident : (s.modCmd k no f).resident = s.resident := rfl
@[simp] theorem modCmd_switches : (s.modCmd k no f).switches = s.switches := rfl
@[simp] theorem modCmd_switching : (s.modCmd k no f).switching = s.switching := rfl
@[simp] theorem modCmd_upd : (s.modCmd k no f).upd = s.upd := rfl
@[simp] theorem modCmd_serve : (s.modCmd k no f).serve = s.serve := rfl
@[simp] theorem modCmd_host : (s.modCmd k no f).host = s.host := rfl
@[simp] theorem modCmd_net : (s.modCmd k no f).net = s.net := rfl
@[simp] theorem modCmd_fm : (s.modCmd k no f).fm = s.fm := rfl
@[simp] theorem modCmd_bnd : (s.modCmd k no f).bnd = s.bnd := rfl
@[simp] theorem modCmd_sec : (s.modCmd k no f).sec = s.sec := rfl
@[simp] theorem modCmd_mgmt : (s.modCmd k no f).mgmt = s.mgmt := rfl
@[simp] theorem modCmd_tele : (s.modCmd k no f).tele = s.tele := rfl
@[simp] theorem modCmd_out : (s.modCmd k no f).out = s.out := rfl
@[simp] theorem modCmd_pending : (s.modCmd k no f).pending = s.pending := rfl

end

/-! ### modStep -/

section
variable (k : Nat) (f : StepRec → StepRec)

@[simp] theorem modStep_now : (s.modStep k f).now = s.now := rfl
@[simp] theorem modStep_fresh : (s.modStep k f).fresh = s.fresh := rfl
@[simp] theorem modStep_lastRun : (s.modStep k f).lastRun = s.lastRun := rfl
@[simp] theorem modStep_profile : (s.modStep k f).profile = s.profile := rfl
@[simp] theorem modStep_domains : (s.modStep k f).domains = s.domains := rfl
@[simp] theorem modStep_galleys : (s.modStep k f).galleys = s.galleys := rfl
@[simp] theorem modStep_formes : (s.modStep k f).formes = s.formes := rfl
@[simp] theorem modStep_platens : (s.modStep k f).platens = s.platens := rfl
@[simp] theorem modStep_hbm : (s.modStep k f).hbm = s.hbm := rfl
@[simp] theorem modStep_fabric : (s.modStep k f).fabric = s.fabric := rfl
@[simp] theorem modStep_answers : (s.modStep k f).answers = s.answers := rfl
@[simp] theorem modStep_gathers : (s.modStep k f).gathers = s.gathers := rfl
@[simp] theorem modStep_tables : (s.modStep k f).tables = s.tables := rfl
@[simp] theorem modStep_generations : (s.modStep k f).generations = s.generations := rfl
@[simp] theorem modStep_mem : (s.modStep k f).mem = s.mem := rfl
@[simp] theorem modStep_poison : (s.modStep k f).poison = s.poison := rfl
@[simp] theorem modStep_lostMem : (s.modStep k f).lostMem = s.lostMem := rfl
@[simp] theorem modStep_hostMem : (s.modStep k f).hostMem = s.hostMem := rfl
@[simp] theorem modStep_corrected : (s.modStep k f).corrected = s.corrected := rfl
@[simp] theorem modStep_ctxs : (s.modStep k f).ctxs = s.ctxs := rfl
@[simp] theorem modStep_queues : (s.modStep k f).queues = s.queues := rfl
@[simp] theorem modStep_fences : (s.modStep k f).fences = s.fences := rfl
@[simp] theorem modStep_seals : (s.modStep k f).seals = s.seals := rfl
@[simp] theorem modStep_sealCount : (s.modStep k f).sealCount = s.sealCount := rfl
@[simp] theorem modStep_steps : (s.modStep k f).steps = tmod s.steps k f := rfl
@[simp] theorem modStep_nextStep : (s.modStep k f).nextStep = s.nextStep := rfl
@[simp] theorem modStep_useCount : (s.modStep k f).useCount = s.useCount := rfl
@[simp] theorem modStep_resident : (s.modStep k f).resident = s.resident := rfl
@[simp] theorem modStep_switches : (s.modStep k f).switches = s.switches := rfl
@[simp] theorem modStep_switching : (s.modStep k f).switching = s.switching := rfl
@[simp] theorem modStep_upd : (s.modStep k f).upd = s.upd := rfl
@[simp] theorem modStep_serve : (s.modStep k f).serve = s.serve := rfl
@[simp] theorem modStep_host : (s.modStep k f).host = s.host := rfl
@[simp] theorem modStep_net : (s.modStep k f).net = s.net := rfl
@[simp] theorem modStep_fm : (s.modStep k f).fm = s.fm := rfl
@[simp] theorem modStep_bnd : (s.modStep k f).bnd = s.bnd := rfl
@[simp] theorem modStep_sec : (s.modStep k f).sec = s.sec := rfl
@[simp] theorem modStep_mgmt : (s.modStep k f).mgmt = s.mgmt := rfl
@[simp] theorem modStep_tele : (s.modStep k f).tele = s.tele := rfl
@[simp] theorem modStep_out : (s.modStep k f).out = s.out := rfl
@[simp] theorem modStep_pending : (s.modStep k f).pending = s.pending := rfl

end

/-! ### modTable -/

section
variable (k : Nat) (f : TableDesc → TableDesc)

@[simp] theorem modTable_now : (s.modTable k f).now = s.now := rfl
@[simp] theorem modTable_fresh : (s.modTable k f).fresh = s.fresh := rfl
@[simp] theorem modTable_lastRun : (s.modTable k f).lastRun = s.lastRun := rfl
@[simp] theorem modTable_profile : (s.modTable k f).profile = s.profile := rfl
@[simp] theorem modTable_domains : (s.modTable k f).domains = s.domains := rfl
@[simp] theorem modTable_galleys : (s.modTable k f).galleys = s.galleys := rfl
@[simp] theorem modTable_formes : (s.modTable k f).formes = s.formes := rfl
@[simp] theorem modTable_platens : (s.modTable k f).platens = s.platens := rfl
@[simp] theorem modTable_hbm : (s.modTable k f).hbm = s.hbm := rfl
@[simp] theorem modTable_fabric : (s.modTable k f).fabric = s.fabric := rfl
@[simp] theorem modTable_answers : (s.modTable k f).answers = s.answers := rfl
@[simp] theorem modTable_gathers : (s.modTable k f).gathers = s.gathers := rfl
@[simp] theorem modTable_tables : (s.modTable k f).tables = tmod s.tables k f := rfl
@[simp] theorem modTable_generations : (s.modTable k f).generations = s.generations := rfl
@[simp] theorem modTable_mem : (s.modTable k f).mem = s.mem := rfl
@[simp] theorem modTable_poison : (s.modTable k f).poison = s.poison := rfl
@[simp] theorem modTable_lostMem : (s.modTable k f).lostMem = s.lostMem := rfl
@[simp] theorem modTable_hostMem : (s.modTable k f).hostMem = s.hostMem := rfl
@[simp] theorem modTable_corrected : (s.modTable k f).corrected = s.corrected := rfl
@[simp] theorem modTable_ctxs : (s.modTable k f).ctxs = s.ctxs := rfl
@[simp] theorem modTable_queues : (s.modTable k f).queues = s.queues := rfl
@[simp] theorem modTable_fences : (s.modTable k f).fences = s.fences := rfl
@[simp] theorem modTable_seals : (s.modTable k f).seals = s.seals := rfl
@[simp] theorem modTable_sealCount : (s.modTable k f).sealCount = s.sealCount := rfl
@[simp] theorem modTable_steps : (s.modTable k f).steps = s.steps := rfl
@[simp] theorem modTable_nextStep : (s.modTable k f).nextStep = s.nextStep := rfl
@[simp] theorem modTable_useCount : (s.modTable k f).useCount = s.useCount := rfl
@[simp] theorem modTable_resident : (s.modTable k f).resident = s.resident := rfl
@[simp] theorem modTable_switches : (s.modTable k f).switches = s.switches := rfl
@[simp] theorem modTable_switching : (s.modTable k f).switching = s.switching := rfl
@[simp] theorem modTable_upd : (s.modTable k f).upd = s.upd := rfl
@[simp] theorem modTable_serve : (s.modTable k f).serve = s.serve := rfl
@[simp] theorem modTable_host : (s.modTable k f).host = s.host := rfl
@[simp] theorem modTable_net : (s.modTable k f).net = s.net := rfl
@[simp] theorem modTable_fm : (s.modTable k f).fm = s.fm := rfl
@[simp] theorem modTable_bnd : (s.modTable k f).bnd = s.bnd := rfl
@[simp] theorem modTable_sec : (s.modTable k f).sec = s.sec := rfl
@[simp] theorem modTable_mgmt : (s.modTable k f).mgmt = s.mgmt := rfl
@[simp] theorem modTable_tele : (s.modTable k f).tele = s.tele := rfl
@[simp] theorem modTable_out : (s.modTable k f).out = s.out := rfl
@[simp] theorem modTable_pending : (s.modTable k f).pending = s.pending := rfl

end

/-! ### modRec -/

section
variable (k : Nat) (f : UpdRec → UpdRec)

@[simp] theorem modRec_now : (s.modRec k f).now = s.now := rfl
@[simp] theorem modRec_fresh : (s.modRec k f).fresh = s.fresh := rfl
@[simp] theorem modRec_lastRun : (s.modRec k f).lastRun = s.lastRun := rfl
@[simp] theorem modRec_profile : (s.modRec k f).profile = s.profile := rfl
@[simp] theorem modRec_domains : (s.modRec k f).domains = s.domains := rfl
@[simp] theorem modRec_galleys : (s.modRec k f).galleys = s.galleys := rfl
@[simp] theorem modRec_formes : (s.modRec k f).formes = s.formes := rfl
@[simp] theorem modRec_platens : (s.modRec k f).platens = s.platens := rfl
@[simp] theorem modRec_hbm : (s.modRec k f).hbm = s.hbm := rfl
@[simp] theorem modRec_fabric : (s.modRec k f).fabric = s.fabric := rfl
@[simp] theorem modRec_answers : (s.modRec k f).answers = s.answers := rfl
@[simp] theorem modRec_gathers : (s.modRec k f).gathers = s.gathers := rfl
@[simp] theorem modRec_tables : (s.modRec k f).tables = s.tables := rfl
@[simp] theorem modRec_generations : (s.modRec k f).generations = s.generations := rfl
@[simp] theorem modRec_mem : (s.modRec k f).mem = s.mem := rfl
@[simp] theorem modRec_poison : (s.modRec k f).poison = s.poison := rfl
@[simp] theorem modRec_lostMem : (s.modRec k f).lostMem = s.lostMem := rfl
@[simp] theorem modRec_hostMem : (s.modRec k f).hostMem = s.hostMem := rfl
@[simp] theorem modRec_corrected : (s.modRec k f).corrected = s.corrected := rfl
@[simp] theorem modRec_ctxs : (s.modRec k f).ctxs = s.ctxs := rfl
@[simp] theorem modRec_queues : (s.modRec k f).queues = s.queues := rfl
@[simp] theorem modRec_fences : (s.modRec k f).fences = s.fences := rfl
@[simp] theorem modRec_seals : (s.modRec k f).seals = s.seals := rfl
@[simp] theorem modRec_sealCount : (s.modRec k f).sealCount = s.sealCount := rfl
@[simp] theorem modRec_steps : (s.modRec k f).steps = s.steps := rfl
@[simp] theorem modRec_nextStep : (s.modRec k f).nextStep = s.nextStep := rfl
@[simp] theorem modRec_useCount : (s.modRec k f).useCount = s.useCount := rfl
@[simp] theorem modRec_resident : (s.modRec k f).resident = s.resident := rfl
@[simp] theorem modRec_switches : (s.modRec k f).switches = s.switches := rfl
@[simp] theorem modRec_switching : (s.modRec k f).switching = s.switching := rfl
@[simp] theorem modRec_upd : (s.modRec k f).upd = { s.upd with recs := tmod s.upd.recs k f } := rfl
@[simp] theorem modRec_serve : (s.modRec k f).serve = s.serve := rfl
@[simp] theorem modRec_host : (s.modRec k f).host = s.host := rfl
@[simp] theorem modRec_net : (s.modRec k f).net = s.net := rfl
@[simp] theorem modRec_fm : (s.modRec k f).fm = s.fm := rfl
@[simp] theorem modRec_bnd : (s.modRec k f).bnd = s.bnd := rfl
@[simp] theorem modRec_sec : (s.modRec k f).sec = s.sec := rfl
@[simp] theorem modRec_mgmt : (s.modRec k f).mgmt = s.mgmt := rfl
@[simp] theorem modRec_tele : (s.modRec k f).tele = s.tele := rfl
@[simp] theorem modRec_out : (s.modRec k f).out = s.out := rfl
@[simp] theorem modRec_pending : (s.modRec k f).pending = s.pending := rfl

end

/-! ### modBuf -/

section
variable (b : UpdSrc) (f : UpdBuf → UpdBuf)

@[simp] theorem modBuf_now : (s.modBuf b f).now = s.now := rfl
@[simp] theorem modBuf_fresh : (s.modBuf b f).fresh = s.fresh := rfl
@[simp] theorem modBuf_lastRun : (s.modBuf b f).lastRun = s.lastRun := rfl
@[simp] theorem modBuf_profile : (s.modBuf b f).profile = s.profile := rfl
@[simp] theorem modBuf_domains : (s.modBuf b f).domains = s.domains := rfl
@[simp] theorem modBuf_galleys : (s.modBuf b f).galleys = s.galleys := rfl
@[simp] theorem modBuf_formes : (s.modBuf b f).formes = s.formes := rfl
@[simp] theorem modBuf_platens : (s.modBuf b f).platens = s.platens := rfl
@[simp] theorem modBuf_hbm : (s.modBuf b f).hbm = s.hbm := rfl
@[simp] theorem modBuf_fabric : (s.modBuf b f).fabric = s.fabric := rfl
@[simp] theorem modBuf_answers : (s.modBuf b f).answers = s.answers := rfl
@[simp] theorem modBuf_gathers : (s.modBuf b f).gathers = s.gathers := rfl
@[simp] theorem modBuf_tables : (s.modBuf b f).tables = s.tables := rfl
@[simp] theorem modBuf_generations : (s.modBuf b f).generations = s.generations := rfl
@[simp] theorem modBuf_mem : (s.modBuf b f).mem = s.mem := rfl
@[simp] theorem modBuf_poison : (s.modBuf b f).poison = s.poison := rfl
@[simp] theorem modBuf_lostMem : (s.modBuf b f).lostMem = s.lostMem := rfl
@[simp] theorem modBuf_hostMem : (s.modBuf b f).hostMem = s.hostMem := rfl
@[simp] theorem modBuf_corrected : (s.modBuf b f).corrected = s.corrected := rfl
@[simp] theorem modBuf_ctxs : (s.modBuf b f).ctxs = s.ctxs := rfl
@[simp] theorem modBuf_queues : (s.modBuf b f).queues = s.queues := rfl
@[simp] theorem modBuf_fences : (s.modBuf b f).fences = s.fences := rfl
@[simp] theorem modBuf_seals : (s.modBuf b f).seals = s.seals := rfl
@[simp] theorem modBuf_sealCount : (s.modBuf b f).sealCount = s.sealCount := rfl
@[simp] theorem modBuf_steps : (s.modBuf b f).steps = s.steps := rfl
@[simp] theorem modBuf_nextStep : (s.modBuf b f).nextStep = s.nextStep := rfl
@[simp] theorem modBuf_useCount : (s.modBuf b f).useCount = s.useCount := rfl
@[simp] theorem modBuf_resident : (s.modBuf b f).resident = s.resident := rfl
@[simp] theorem modBuf_switches : (s.modBuf b f).switches = s.switches := rfl
@[simp] theorem modBuf_switching : (s.modBuf b f).switching = s.switching := rfl
@[simp] theorem modBuf_upd : (s.modBuf b f).upd = { s.upd with bufs := s.upd.bufs.map (fun y => if y.src = b then f y else y) } := rfl
@[simp] theorem modBuf_serve : (s.modBuf b f).serve = s.serve := rfl
@[simp] theorem modBuf_host : (s.modBuf b f).host = s.host := rfl
@[simp] theorem modBuf_net : (s.modBuf b f).net = s.net := rfl
@[simp] theorem modBuf_fm : (s.modBuf b f).fm = s.fm := rfl
@[simp] theorem modBuf_bnd : (s.modBuf b f).bnd = s.bnd := rfl
@[simp] theorem modBuf_sec : (s.modBuf b f).sec = s.sec := rfl
@[simp] theorem modBuf_mgmt : (s.modBuf b f).mgmt = s.mgmt := rfl
@[simp] theorem modBuf_tele : (s.modBuf b f).tele = s.tele := rfl
@[simp] theorem modBuf_out : (s.modBuf b f).out = s.out := rfl
@[simp] theorem modBuf_pending : (s.modBuf b f).pending = s.pending := rfl

end

/-! ### modServe -/

section
variable (f : ServeSt → ServeSt)

@[simp] theorem modServe_now : (s.modServe f).now = s.now := rfl
@[simp] theorem modServe_fresh : (s.modServe f).fresh = s.fresh := rfl
@[simp] theorem modServe_lastRun : (s.modServe f).lastRun = s.lastRun := rfl
@[simp] theorem modServe_profile : (s.modServe f).profile = s.profile := rfl
@[simp] theorem modServe_domains : (s.modServe f).domains = s.domains := rfl
@[simp] theorem modServe_galleys : (s.modServe f).galleys = s.galleys := rfl
@[simp] theorem modServe_formes : (s.modServe f).formes = s.formes := rfl
@[simp] theorem modServe_platens : (s.modServe f).platens = s.platens := rfl
@[simp] theorem modServe_hbm : (s.modServe f).hbm = s.hbm := rfl
@[simp] theorem modServe_fabric : (s.modServe f).fabric = s.fabric := rfl
@[simp] theorem modServe_answers : (s.modServe f).answers = s.answers := rfl
@[simp] theorem modServe_gathers : (s.modServe f).gathers = s.gathers := rfl
@[simp] theorem modServe_tables : (s.modServe f).tables = s.tables := rfl
@[simp] theorem modServe_generations : (s.modServe f).generations = s.generations := rfl
@[simp] theorem modServe_mem : (s.modServe f).mem = s.mem := rfl
@[simp] theorem modServe_poison : (s.modServe f).poison = s.poison := rfl
@[simp] theorem modServe_lostMem : (s.modServe f).lostMem = s.lostMem := rfl
@[simp] theorem modServe_hostMem : (s.modServe f).hostMem = s.hostMem := rfl
@[simp] theorem modServe_corrected : (s.modServe f).corrected = s.corrected := rfl
@[simp] theorem modServe_ctxs : (s.modServe f).ctxs = s.ctxs := rfl
@[simp] theorem modServe_queues : (s.modServe f).queues = s.queues := rfl
@[simp] theorem modServe_fences : (s.modServe f).fences = s.fences := rfl
@[simp] theorem modServe_seals : (s.modServe f).seals = s.seals := rfl
@[simp] theorem modServe_sealCount : (s.modServe f).sealCount = s.sealCount := rfl
@[simp] theorem modServe_steps : (s.modServe f).steps = s.steps := rfl
@[simp] theorem modServe_nextStep : (s.modServe f).nextStep = s.nextStep := rfl
@[simp] theorem modServe_useCount : (s.modServe f).useCount = s.useCount := rfl
@[simp] theorem modServe_resident : (s.modServe f).resident = s.resident := rfl
@[simp] theorem modServe_switches : (s.modServe f).switches = s.switches := rfl
@[simp] theorem modServe_switching : (s.modServe f).switching = s.switching := rfl
@[simp] theorem modServe_upd : (s.modServe f).upd = s.upd := rfl
@[simp] theorem modServe_serve : (s.modServe f).serve = f s.serve := rfl
@[simp] theorem modServe_host : (s.modServe f).host = s.host := rfl
@[simp] theorem modServe_net : (s.modServe f).net = s.net := rfl
@[simp] theorem modServe_fm : (s.modServe f).fm = s.fm := rfl
@[simp] theorem modServe_bnd : (s.modServe f).bnd = s.bnd := rfl
@[simp] theorem modServe_sec : (s.modServe f).sec = s.sec := rfl
@[simp] theorem modServe_mgmt : (s.modServe f).mgmt = s.mgmt := rfl
@[simp] theorem modServe_tele : (s.modServe f).tele = s.tele := rfl
@[simp] theorem modServe_out : (s.modServe f).out = s.out := rfl
@[simp] theorem modServe_pending : (s.modServe f).pending = s.pending := rfl

end

/-! ### modSeq -/

section
variable (k : Nat) (f : SeqEntry → SeqEntry)

@[simp] theorem modSeq_now : (s.modSeq k f).now = s.now := rfl
@[simp] theorem modSeq_fresh : (s.modSeq k f).fresh = s.fresh := rfl
@[simp] theorem modSeq_lastRun : (s.modSeq k f).lastRun = s.lastRun := rfl
@[simp] theorem modSeq_profile : (s.modSeq k f).profile = s.profile := rfl
@[simp] theorem modSeq_domains : (s.modSeq k f).domains = s.domains := rfl
@[simp] theorem modSeq_galleys : (s.modSeq k f).galleys = s.galleys := rfl
@[simp] theorem modSeq_formes : (s.modSeq k f).formes = s.formes := rfl
@[simp] theorem modSeq_platens : (s.modSeq k f).platens = s.platens := rfl
@[simp] theorem modSeq_hbm : (s.modSeq k f).hbm = s.hbm := rfl
@[simp] theorem modSeq_fabric : (s.modSeq k f).fabric = s.fabric := rfl
@[simp] theorem modSeq_answers : (s.modSeq k f).answers = s.answers := rfl
@[simp] theorem modSeq_gathers : (s.modSeq k f).gathers = s.gathers := rfl
@[simp] theorem modSeq_tables : (s.modSeq k f).tables = s.tables := rfl
@[simp] theorem modSeq_generations : (s.modSeq k f).generations = s.generations := rfl
@[simp] theorem modSeq_mem : (s.modSeq k f).mem = s.mem := rfl
@[simp] theorem modSeq_poison : (s.modSeq k f).poison = s.poison := rfl
@[simp] theorem modSeq_lostMem : (s.modSeq k f).lostMem = s.lostMem := rfl
@[simp] theorem modSeq_hostMem : (s.modSeq k f).hostMem = s.hostMem := rfl
@[simp] theorem modSeq_corrected : (s.modSeq k f).corrected = s.corrected := rfl
@[simp] theorem modSeq_ctxs : (s.modSeq k f).ctxs = s.ctxs := rfl
@[simp] theorem modSeq_queues : (s.modSeq k f).queues = s.queues := rfl
@[simp] theorem modSeq_fences : (s.modSeq k f).fences = s.fences := rfl
@[simp] theorem modSeq_seals : (s.modSeq k f).seals = s.seals := rfl
@[simp] theorem modSeq_sealCount : (s.modSeq k f).sealCount = s.sealCount := rfl
@[simp] theorem modSeq_steps : (s.modSeq k f).steps = s.steps := rfl
@[simp] theorem modSeq_nextStep : (s.modSeq k f).nextStep = s.nextStep := rfl
@[simp] theorem modSeq_useCount : (s.modSeq k f).useCount = s.useCount := rfl
@[simp] theorem modSeq_resident : (s.modSeq k f).resident = s.resident := rfl
@[simp] theorem modSeq_switches : (s.modSeq k f).switches = s.switches := rfl
@[simp] theorem modSeq_switching : (s.modSeq k f).switching = s.switching := rfl
@[simp] theorem modSeq_upd : (s.modSeq k f).upd = s.upd := rfl
@[simp] theorem modSeq_serve : (s.modSeq k f).serve = { s.serve with seqs := tmod s.serve.seqs k (fun e => { f e with changed := true }) } := rfl
@[simp] theorem modSeq_host : (s.modSeq k f).host = s.host := rfl
@[simp] theorem modSeq_net : (s.modSeq k f).net = s.net := rfl
@[simp] theorem modSeq_fm : (s.modSeq k f).fm = s.fm := rfl
@[simp] theorem modSeq_bnd : (s.modSeq k f).bnd = s.bnd := rfl
@[simp] theorem modSeq_sec : (s.modSeq k f).sec = s.sec := rfl
@[simp] theorem modSeq_mgmt : (s.modSeq k f).mgmt = s.mgmt := rfl
@[simp] theorem modSeq_tele : (s.modSeq k f).tele = s.tele := rfl
@[simp] theorem modSeq_out : (s.modSeq k f).out = s.out := rfl
@[simp] theorem modSeq_pending : (s.modSeq k f).pending = s.pending := rfl

end

/-! ### modConn -/

section
variable (k : Nat) (f : ConnSt → ConnSt)

@[simp] theorem modConn_now : (s.modConn k f).now = s.now := rfl
@[simp] theorem modConn_fresh : (s.modConn k f).fresh = s.fresh := rfl
@[simp] theorem modConn_lastRun : (s.modConn k f).lastRun = s.lastRun := rfl
@[simp] theorem modConn_profile : (s.modConn k f).profile = s.profile := rfl
@[simp] theorem modConn_domains : (s.modConn k f).domains = s.domains := rfl
@[simp] theorem modConn_galleys : (s.modConn k f).galleys = s.galleys := rfl
@[simp] theorem modConn_formes : (s.modConn k f).formes = s.formes := rfl
@[simp] theorem modConn_platens : (s.modConn k f).platens = s.platens := rfl
@[simp] theorem modConn_hbm : (s.modConn k f).hbm = s.hbm := rfl
@[simp] theorem modConn_fabric : (s.modConn k f).fabric = s.fabric := rfl
@[simp] theorem modConn_answers : (s.modConn k f).answers = s.answers := rfl
@[simp] theorem modConn_gathers : (s.modConn k f).gathers = s.gathers := rfl
@[simp] theorem modConn_tables : (s.modConn k f).tables = s.tables := rfl
@[simp] theorem modConn_generations : (s.modConn k f).generations = s.generations := rfl
@[simp] theorem modConn_mem : (s.modConn k f).mem = s.mem := rfl
@[simp] theorem modConn_poison : (s.modConn k f).poison = s.poison := rfl
@[simp] theorem modConn_lostMem : (s.modConn k f).lostMem = s.lostMem := rfl
@[simp] theorem modConn_hostMem : (s.modConn k f).hostMem = s.hostMem := rfl
@[simp] theorem modConn_corrected : (s.modConn k f).corrected = s.corrected := rfl
@[simp] theorem modConn_ctxs : (s.modConn k f).ctxs = s.ctxs := rfl
@[simp] theorem modConn_queues : (s.modConn k f).queues = s.queues := rfl
@[simp] theorem modConn_fences : (s.modConn k f).fences = s.fences := rfl
@[simp] theorem modConn_seals : (s.modConn k f).seals = s.seals := rfl
@[simp] theorem modConn_sealCount : (s.modConn k f).sealCount = s.sealCount := rfl
@[simp] theorem modConn_steps : (s.modConn k f).steps = s.steps := rfl
@[simp] theorem modConn_nextStep : (s.modConn k f).nextStep = s.nextStep := rfl
@[simp] theorem modConn_useCount : (s.modConn k f).useCount = s.useCount := rfl
@[simp] theorem modConn_resident : (s.modConn k f).resident = s.resident := rfl
@[simp] theorem modConn_switches : (s.modConn k f).switches = s.switches := rfl
@[simp] theorem modConn_switching : (s.modConn k f).switching = s.switching := rfl
@[simp] theorem modConn_upd : (s.modConn k f).upd = s.upd := rfl
@[simp] theorem modConn_serve : (s.modConn k f).serve = s.serve := rfl
@[simp] theorem modConn_host : (s.modConn k f).host = s.host := rfl
@[simp] theorem modConn_net : (s.modConn k f).net = { s.net with conns := tmod s.net.conns k f } := rfl
@[simp] theorem modConn_fm : (s.modConn k f).fm = s.fm := rfl
@[simp] theorem modConn_bnd : (s.modConn k f).bnd = s.bnd := rfl
@[simp] theorem modConn_sec : (s.modConn k f).sec = s.sec := rfl
@[simp] theorem modConn_mgmt : (s.modConn k f).mgmt = s.mgmt := rfl
@[simp] theorem modConn_tele : (s.modConn k f).tele = s.tele := rfl
@[simp] theorem modConn_out : (s.modConn k f).out = s.out := rfl
@[simp] theorem modConn_pending : (s.modConn k f).pending = s.pending := rfl

end

/-! ### modPort -/

section
variable (k : Nat) (f : PortSt → PortSt)

@[simp] theorem modPort_now : (s.modPort k f).now = s.now := rfl
@[simp] theorem modPort_fresh : (s.modPort k f).fresh = s.fresh := rfl
@[simp] theorem modPort_lastRun : (s.modPort k f).lastRun = s.lastRun := rfl
@[simp] theorem modPort_profile : (s.modPort k f).profile = s.profile := rfl
@[simp] theorem modPort_domains : (s.modPort k f).domains = s.domains := rfl
@[simp] theorem modPort_galleys : (s.modPort k f).galleys = s.galleys := rfl
@[simp] theorem modPort_formes : (s.modPort k f).formes = s.formes := rfl
@[simp] theorem modPort_platens : (s.modPort k f).platens = s.platens := rfl
@[simp] theorem modPort_hbm : (s.modPort k f).hbm = s.hbm := rfl
@[simp] theorem modPort_fabric : (s.modPort k f).fabric = s.fabric := rfl
@[simp] theorem modPort_answers : (s.modPort k f).answers = s.answers := rfl
@[simp] theorem modPort_gathers : (s.modPort k f).gathers = s.gathers := rfl
@[simp] theorem modPort_tables : (s.modPort k f).tables = s.tables := rfl
@[simp] theorem modPort_generations : (s.modPort k f).generations = s.generations := rfl
@[simp] theorem modPort_mem : (s.modPort k f).mem = s.mem := rfl
@[simp] theorem modPort_poison : (s.modPort k f).poison = s.poison := rfl
@[simp] theorem modPort_lostMem : (s.modPort k f).lostMem = s.lostMem := rfl
@[simp] theorem modPort_hostMem : (s.modPort k f).hostMem = s.hostMem := rfl
@[simp] theorem modPort_corrected : (s.modPort k f).corrected = s.corrected := rfl
@[simp] theorem modPort_ctxs : (s.modPort k f).ctxs = s.ctxs := rfl
@[simp] theorem modPort_queues : (s.modPort k f).queues = s.queues := rfl
@[simp] theorem modPort_fences : (s.modPort k f).fences = s.fences := rfl
@[simp] theorem modPort_seals : (s.modPort k f).seals = s.seals := rfl
@[simp] theorem modPort_sealCount : (s.modPort k f).sealCount = s.sealCount := rfl
@[simp] theorem modPort_steps : (s.modPort k f).steps = s.steps := rfl
@[simp] theorem modPort_nextStep : (s.modPort k f).nextStep = s.nextStep := rfl
@[simp] theorem modPort_useCount : (s.modPort k f).useCount = s.useCount := rfl
@[simp] theorem modPort_resident : (s.modPort k f).resident = s.resident := rfl
@[simp] theorem modPort_switches : (s.modPort k f).switches = s.switches := rfl
@[simp] theorem modPort_switching : (s.modPort k f).switching = s.switching := rfl
@[simp] theorem modPort_upd : (s.modPort k f).upd = s.upd := rfl
@[simp] theorem modPort_serve : (s.modPort k f).serve = s.serve := rfl
@[simp] theorem modPort_host : (s.modPort k f).host = s.host := rfl
@[simp] theorem modPort_net : (s.modPort k f).net = { s.net with ports := vset s.net.ports k (f (s.port k)) } := rfl
@[simp] theorem modPort_fm : (s.modPort k f).fm = s.fm := rfl
@[simp] theorem modPort_bnd : (s.modPort k f).bnd = s.bnd := rfl
@[simp] theorem modPort_sec : (s.modPort k f).sec = s.sec := rfl
@[simp] theorem modPort_mgmt : (s.modPort k f).mgmt = s.mgmt := rfl
@[simp] theorem modPort_tele : (s.modPort k f).tele = s.tele := rfl
@[simp] theorem modPort_out : (s.modPort k f).out = s.out := rfl
@[simp] theorem modPort_pending : (s.modPort k f).pending = s.pending := rfl

end

/-! ### modFw -/

section
variable (f : FwSt → FwSt)

@[simp] theorem modFw_now : (s.modFw f).now = s.now := rfl
@[simp] theorem modFw_fresh : (s.modFw f).fresh = s.fresh := rfl
@[simp] theorem modFw_lastRun : (s.modFw f).lastRun = s.lastRun := rfl
@[simp] theorem modFw_profile : (s.modFw f).profile = s.profile := rfl
@[simp] theorem modFw_domains : (s.modFw f).domains = s.domains := rfl
@[simp] theorem modFw_galleys : (s.modFw f).galleys = s.galleys := rfl
@[simp] theorem modFw_formes : (s.modFw f).formes = s.formes := rfl
@[simp] theorem modFw_platens : (s.modFw f).platens = s.platens := rfl
@[simp] theorem modFw_hbm : (s.modFw f).hbm = s.hbm := rfl
@[simp] theorem modFw_fabric : (s.modFw f).fabric = s.fabric := rfl
@[simp] theorem modFw_answers : (s.modFw f).answers = s.answers := rfl
@[simp] theorem modFw_gathers : (s.modFw f).gathers = s.gathers := rfl
@[simp] theorem modFw_tables : (s.modFw f).tables = s.tables := rfl
@[simp] theorem modFw_generations : (s.modFw f).generations = s.generations := rfl
@[simp] theorem modFw_mem : (s.modFw f).mem = s.mem := rfl
@[simp] theorem modFw_poison : (s.modFw f).poison = s.poison := rfl
@[simp] theorem modFw_lostMem : (s.modFw f).lostMem = s.lostMem := rfl
@[simp] theorem modFw_hostMem : (s.modFw f).hostMem = s.hostMem := rfl
@[simp] theorem modFw_corrected : (s.modFw f).corrected = s.corrected := rfl
@[simp] theorem modFw_ctxs : (s.modFw f).ctxs = s.ctxs := rfl
@[simp] theorem modFw_queues : (s.modFw f).queues = s.queues := rfl
@[simp] theorem modFw_fences : (s.modFw f).fences = s.fences := rfl
@[simp] theorem modFw_seals : (s.modFw f).seals = s.seals := rfl
@[simp] theorem modFw_sealCount : (s.modFw f).sealCount = s.sealCount := rfl
@[simp] theorem modFw_steps : (s.modFw f).steps = s.steps := rfl
@[simp] theorem modFw_nextStep : (s.modFw f).nextStep = s.nextStep := rfl
@[simp] theorem modFw_useCount : (s.modFw f).useCount = s.useCount := rfl
@[simp] theorem modFw_resident : (s.modFw f).resident = s.resident := rfl
@[simp] theorem modFw_switches : (s.modFw f).switches = s.switches := rfl
@[simp] theorem modFw_switching : (s.modFw f).switching = s.switching := rfl
@[simp] theorem modFw_upd : (s.modFw f).upd = s.upd := rfl
@[simp] theorem modFw_serve : (s.modFw f).serve = s.serve := rfl
@[simp] theorem modFw_host : (s.modFw f).host = s.host := rfl
@[simp] theorem modFw_net : (s.modFw f).net = s.net := rfl
@[simp] theorem modFw_fm : (s.modFw f).fm = s.fm := rfl
@[simp] theorem modFw_bnd : (s.modFw f).bnd = s.bnd := rfl
@[simp] theorem modFw_sec : (s.modFw f).sec = { s.sec with fw := f s.sec.fw } := rfl
@[simp] theorem modFw_mgmt : (s.modFw f).mgmt = s.mgmt := rfl
@[simp] theorem modFw_tele : (s.modFw f).tele = s.tele := rfl
@[simp] theorem modFw_out : (s.modFw f).out = s.out := rfl
@[simp] theorem modFw_pending : (s.modFw f).pending = s.pending := rfl

end

/-! ### modSlot -/

section
variable (k : Nat) (f : KSlot → KSlot)

@[simp] theorem modSlot_now : (s.modSlot k f).now = s.now := rfl
@[simp] theorem modSlot_fresh : (s.modSlot k f).fresh = s.fresh := rfl
@[simp] theorem modSlot_lastRun : (s.modSlot k f).lastRun = s.lastRun := rfl
@[simp] theorem modSlot_profile : (s.modSlot k f).profile = s.profile := rfl
@[simp] theorem modSlot_domains : (s.modSlot k f).domains = s.domains := rfl
@[simp] theorem modSlot_galleys : (s.modSlot k f).galleys = s.galleys := rfl
@[simp] theorem modSlot_formes : (s.modSlot k f).formes = s.formes := rfl
@[simp] theorem modSlot_platens : (s.modSlot k f).platens = s.platens := rfl
@[simp] theorem modSlot_hbm : (s.modSlot k f).hbm = s.hbm := rfl
@[simp] theorem modSlot_fabric : (s.modSlot k f).fabric = s.fabric := rfl
@[simp] theorem modSlot_answers : (s.modSlot k f).answers = s.answers := rfl
@[simp] theorem modSlot_gathers : (s.modSlot k f).gathers = s.gathers := rfl
@[simp] theorem modSlot_tables : (s.modSlot k f).tables = s.tables := rfl
@[simp] theorem modSlot_generations : (s.modSlot k f).generations = s.generations := rfl
@[simp] theorem modSlot_mem : (s.modSlot k f).mem = s.mem := rfl
@[simp] theorem modSlot_poison : (s.modSlot k f).poison = s.poison := rfl
@[simp] theorem modSlot_lostMem : (s.modSlot k f).lostMem = s.lostMem := rfl
@[simp] theorem modSlot_hostMem : (s.modSlot k f).hostMem = s.hostMem := rfl
@[simp] theorem modSlot_corrected : (s.modSlot k f).corrected = s.corrected := rfl
@[simp] theorem modSlot_ctxs : (s.modSlot k f).ctxs = s.ctxs := rfl
@[simp] theorem modSlot_queues : (s.modSlot k f).queues = s.queues := rfl
@[simp] theorem modSlot_fences : (s.modSlot k f).fences = s.fences := rfl
@[simp] theorem modSlot_seals : (s.modSlot k f).seals = s.seals := rfl
@[simp] theorem modSlot_sealCount : (s.modSlot k f).sealCount = s.sealCount := rfl
@[simp] theorem modSlot_steps : (s.modSlot k f).steps = s.steps := rfl
@[simp] theorem modSlot_nextStep : (s.modSlot k f).nextStep = s.nextStep := rfl
@[simp] theorem modSlot_useCount : (s.modSlot k f).useCount = s.useCount := rfl
@[simp] theorem modSlot_resident : (s.modSlot k f).resident = s.resident := rfl
@[simp] theorem modSlot_switches : (s.modSlot k f).switches = s.switches := rfl
@[simp] theorem modSlot_switching : (s.modSlot k f).switching = s.switching := rfl
@[simp] theorem modSlot_upd : (s.modSlot k f).upd = s.upd := rfl
@[simp] theorem modSlot_serve : (s.modSlot k f).serve = s.serve := rfl
@[simp] theorem modSlot_host : (s.modSlot k f).host = s.host := rfl
@[simp] theorem modSlot_net : (s.modSlot k f).net = s.net := rfl
@[simp] theorem modSlot_fm : (s.modSlot k f).fm = s.fm := rfl
@[simp] theorem modSlot_bnd : (s.modSlot k f).bnd = s.bnd := rfl
@[simp] theorem modSlot_sec : (s.modSlot k f).sec = { s.sec with slots := tput s.sec.slots k (f (s.kslot k)) } := rfl
@[simp] theorem modSlot_mgmt : (s.modSlot k f).mgmt = s.mgmt := rfl
@[simp] theorem modSlot_tele : (s.modSlot k f).tele = s.tele := rfl
@[simp] theorem modSlot_out : (s.modSlot k f).out = s.out := rfl
@[simp] theorem modSlot_pending : (s.modSlot k f).pending = s.pending := rfl

end

/-! ### modSpdm -/

section
variable (k : Nat) (f : SpdmSt → SpdmSt)

@[simp] theorem modSpdm_now : (s.modSpdm k f).now = s.now := rfl
@[simp] theorem modSpdm_fresh : (s.modSpdm k f).fresh = s.fresh := rfl
@[simp] theorem modSpdm_lastRun : (s.modSpdm k f).lastRun = s.lastRun := rfl
@[simp] theorem modSpdm_profile : (s.modSpdm k f).profile = s.profile := rfl
@[simp] theorem modSpdm_domains : (s.modSpdm k f).domains = s.domains := rfl
@[simp] theorem modSpdm_galleys : (s.modSpdm k f).galleys = s.galleys := rfl
@[simp] theorem modSpdm_formes : (s.modSpdm k f).formes = s.formes := rfl
@[simp] theorem modSpdm_platens : (s.modSpdm k f).platens = s.platens := rfl
@[simp] theorem modSpdm_hbm : (s.modSpdm k f).hbm = s.hbm := rfl
@[simp] theorem modSpdm_fabric : (s.modSpdm k f).fabric = s.fabric := rfl
@[simp] theorem modSpdm_answers : (s.modSpdm k f).answers = s.answers := rfl
@[simp] theorem modSpdm_gathers : (s.modSpdm k f).gathers = s.gathers := rfl
@[simp] theorem modSpdm_tables : (s.modSpdm k f).tables = s.tables := rfl
@[simp] theorem modSpdm_generations : (s.modSpdm k f).generations = s.generations := rfl
@[simp] theorem modSpdm_mem : (s.modSpdm k f).mem = s.mem := rfl
@[simp] theorem modSpdm_poison : (s.modSpdm k f).poison = s.poison := rfl
@[simp] theorem modSpdm_lostMem : (s.modSpdm k f).lostMem = s.lostMem := rfl
@[simp] theorem modSpdm_hostMem : (s.modSpdm k f).hostMem = s.hostMem := rfl
@[simp] theorem modSpdm_corrected : (s.modSpdm k f).corrected = s.corrected := rfl
@[simp] theorem modSpdm_ctxs : (s.modSpdm k f).ctxs = s.ctxs := rfl
@[simp] theorem modSpdm_queues : (s.modSpdm k f).queues = s.queues := rfl
@[simp] theorem modSpdm_fences : (s.modSpdm k f).fences = s.fences := rfl
@[simp] theorem modSpdm_seals : (s.modSpdm k f).seals = s.seals := rfl
@[simp] theorem modSpdm_sealCount : (s.modSpdm k f).sealCount = s.sealCount := rfl
@[simp] theorem modSpdm_steps : (s.modSpdm k f).steps = s.steps := rfl
@[simp] theorem modSpdm_nextStep : (s.modSpdm k f).nextStep = s.nextStep := rfl
@[simp] theorem modSpdm_useCount : (s.modSpdm k f).useCount = s.useCount := rfl
@[simp] theorem modSpdm_resident : (s.modSpdm k f).resident = s.resident := rfl
@[simp] theorem modSpdm_switches : (s.modSpdm k f).switches = s.switches := rfl
@[simp] theorem modSpdm_switching : (s.modSpdm k f).switching = s.switching := rfl
@[simp] theorem modSpdm_upd : (s.modSpdm k f).upd = s.upd := rfl
@[simp] theorem modSpdm_serve : (s.modSpdm k f).serve = s.serve := rfl
@[simp] theorem modSpdm_host : (s.modSpdm k f).host = s.host := rfl
@[simp] theorem modSpdm_net : (s.modSpdm k f).net = s.net := rfl
@[simp] theorem modSpdm_fm : (s.modSpdm k f).fm = s.fm := rfl
@[simp] theorem modSpdm_bnd : (s.modSpdm k f).bnd = s.bnd := rfl
@[simp] theorem modSpdm_sec : (s.modSpdm k f).sec = { s.sec with spdm := tput s.sec.spdm k (f (s.spdm k)) } := rfl
@[simp] theorem modSpdm_mgmt : (s.modSpdm k f).mgmt = s.mgmt := rfl
@[simp] theorem modSpdm_tele : (s.modSpdm k f).tele = s.tele := rfl
@[simp] theorem modSpdm_out : (s.modSpdm k f).out = s.out := rfl
@[simp] theorem modSpdm_pending : (s.modSpdm k f).pending = s.pending := rfl

end

/-! ### modSess -/

section
variable (k : Nat) (f : SessSt → SessSt)

@[simp] theorem modSess_now : (s.modSess k f).now = s.now := rfl
@[simp] theorem modSess_fresh : (s.modSess k f).fresh = s.fresh := rfl
@[simp] theorem modSess_lastRun : (s.modSess k f).lastRun = s.lastRun := rfl
@[simp] theorem modSess_profile : (s.modSess k f).profile = s.profile := rfl
@[simp] theorem modSess_domains : (s.modSess k f).domains = s.domains := rfl
@[simp] theorem modSess_galleys : (s.modSess k f).galleys = s.galleys := rfl
@[simp] theorem modSess_formes : (s.modSess k f).formes = s.formes := rfl
@[simp] theorem modSess_platens : (s.modSess k f).platens = s.platens := rfl
@[simp] theorem modSess_hbm : (s.modSess k f).hbm = s.hbm := rfl
@[simp] theorem modSess_fabric : (s.modSess k f).fabric = s.fabric := rfl
@[simp] theorem modSess_answers : (s.modSess k f).answers = s.answers := rfl
@[simp] theorem modSess_gathers : (s.modSess k f).gathers = s.gathers := rfl
@[simp] theorem modSess_tables : (s.modSess k f).tables = s.tables := rfl
@[simp] theorem modSess_generations : (s.modSess k f).generations = s.generations := rfl
@[simp] theorem modSess_mem : (s.modSess k f).mem = s.mem := rfl
@[simp] theorem modSess_poison : (s.modSess k f).poison = s.poison := rfl
@[simp] theorem modSess_lostMem : (s.modSess k f).lostMem = s.lostMem := rfl
@[simp] theorem modSess_hostMem : (s.modSess k f).hostMem = s.hostMem := rfl
@[simp] theorem modSess_corrected : (s.modSess k f).corrected = s.corrected := rfl
@[simp] theorem modSess_ctxs : (s.modSess k f).ctxs = s.ctxs := rfl
@[simp] theorem modSess_queues : (s.modSess k f).queues = s.queues := rfl
@[simp] theorem modSess_fences : (s.modSess k f).fences = s.fences := rfl
@[simp] theorem modSess_seals : (s.modSess k f).seals = s.seals := rfl
@[simp] theorem modSess_sealCount : (s.modSess k f).sealCount = s.sealCount := rfl
@[simp] theorem modSess_steps : (s.modSess k f).steps = s.steps := rfl
@[simp] theorem modSess_nextStep : (s.modSess k f).nextStep = s.nextStep := rfl
@[simp] theorem modSess_useCount : (s.modSess k f).useCount = s.useCount := rfl
@[simp] theorem modSess_resident : (s.modSess k f).resident = s.resident := rfl
@[simp] theorem modSess_switches : (s.modSess k f).switches = s.switches := rfl
@[simp] theorem modSess_switching : (s.modSess k f).switching = s.switching := rfl
@[simp] theorem modSess_upd : (s.modSess k f).upd = s.upd := rfl
@[simp] theorem modSess_serve : (s.modSess k f).serve = s.serve := rfl
@[simp] theorem modSess_host : (s.modSess k f).host = s.host := rfl
@[simp] theorem modSess_net : (s.modSess k f).net = s.net := rfl
@[simp] theorem modSess_fm : (s.modSess k f).fm = s.fm := rfl
@[simp] theorem modSess_bnd : (s.modSess k f).bnd = s.bnd := rfl
@[simp] theorem modSess_sec : (s.modSess k f).sec = s.sec := rfl
@[simp] theorem modSess_mgmt : (s.modSess k f).mgmt = { s.mgmt with sessions := tmod s.mgmt.sessions k f } := rfl
@[simp] theorem modSess_tele : (s.modSess k f).tele = s.tele := rfl
@[simp] theorem modSess_out : (s.modSess k f).out = s.out := rfl
@[simp] theorem modSess_pending : (s.modSess k f).pending = s.pending := rfl

end

/-! ### modLedger -/

section
variable (f : LedgerSt → LedgerSt)

@[simp] theorem modLedger_now : (s.modLedger f).now = s.now := rfl
@[simp] theorem modLedger_fresh : (s.modLedger f).fresh = s.fresh := rfl
@[simp] theorem modLedger_lastRun : (s.modLedger f).lastRun = s.lastRun := rfl
@[simp] theorem modLedger_profile : (s.modLedger f).profile = s.profile := rfl
@[simp] theorem modLedger_domains : (s.modLedger f).domains = s.domains := rfl
@[simp] theorem modLedger_galleys : (s.modLedger f).galleys = s.galleys := rfl
@[simp] theorem modLedger_formes : (s.modLedger f).formes = s.formes := rfl
@[simp] theorem modLedger_platens : (s.modLedger f).platens = s.platens := rfl
@[simp] theorem modLedger_hbm : (s.modLedger f).hbm = s.hbm := rfl
@[simp] theorem modLedger_fabric : (s.modLedger f).fabric = s.fabric := rfl
@[simp] theorem modLedger_answers : (s.modLedger f).answers = s.answers := rfl
@[simp] theorem modLedger_gathers : (s.modLedger f).gathers = s.gathers := rfl
@[simp] theorem modLedger_tables : (s.modLedger f).tables = s.tables := rfl
@[simp] theorem modLedger_generations : (s.modLedger f).generations = s.generations := rfl
@[simp] theorem modLedger_mem : (s.modLedger f).mem = s.mem := rfl
@[simp] theorem modLedger_poison : (s.modLedger f).poison = s.poison := rfl
@[simp] theorem modLedger_lostMem : (s.modLedger f).lostMem = s.lostMem := rfl
@[simp] theorem modLedger_hostMem : (s.modLedger f).hostMem = s.hostMem := rfl
@[simp] theorem modLedger_corrected : (s.modLedger f).corrected = s.corrected := rfl
@[simp] theorem modLedger_ctxs : (s.modLedger f).ctxs = s.ctxs := rfl
@[simp] theorem modLedger_queues : (s.modLedger f).queues = s.queues := rfl
@[simp] theorem modLedger_fences : (s.modLedger f).fences = s.fences := rfl
@[simp] theorem modLedger_seals : (s.modLedger f).seals = s.seals := rfl
@[simp] theorem modLedger_sealCount : (s.modLedger f).sealCount = s.sealCount := rfl
@[simp] theorem modLedger_steps : (s.modLedger f).steps = s.steps := rfl
@[simp] theorem modLedger_nextStep : (s.modLedger f).nextStep = s.nextStep := rfl
@[simp] theorem modLedger_useCount : (s.modLedger f).useCount = s.useCount := rfl
@[simp] theorem modLedger_resident : (s.modLedger f).resident = s.resident := rfl
@[simp] theorem modLedger_switches : (s.modLedger f).switches = s.switches := rfl
@[simp] theorem modLedger_switching : (s.modLedger f).switching = s.switching := rfl
@[simp] theorem modLedger_upd : (s.modLedger f).upd = s.upd := rfl
@[simp] theorem modLedger_serve : (s.modLedger f).serve = s.serve := rfl
@[simp] theorem modLedger_host : (s.modLedger f).host = s.host := rfl
@[simp] theorem modLedger_net : (s.modLedger f).net = s.net := rfl
@[simp] theorem modLedger_fm : (s.modLedger f).fm = s.fm := rfl
@[simp] theorem modLedger_bnd : (s.modLedger f).bnd = s.bnd := rfl
@[simp] theorem modLedger_sec : (s.modLedger f).sec = s.sec := rfl
@[simp] theorem modLedger_mgmt : (s.modLedger f).mgmt = { s.mgmt with ledger := f s.mgmt.ledger } := rfl
@[simp] theorem modLedger_tele : (s.modLedger f).tele = s.tele := rfl
@[simp] theorem modLedger_out : (s.modLedger f).out = s.out := rfl
@[simp] theorem modLedger_pending : (s.modLedger f).pending = s.pending := rfl

end

/-! ### modFp -/

section
variable (f : FpSt → FpSt)

@[simp] theorem modFp_now : (s.modFp f).now = s.now := rfl
@[simp] theorem modFp_fresh : (s.modFp f).fresh = s.fresh := rfl
@[simp] theorem modFp_lastRun : (s.modFp f).lastRun = s.lastRun := rfl
@[simp] theorem modFp_profile : (s.modFp f).profile = s.profile := rfl
@[simp] theorem modFp_domains : (s.modFp f).domains = s.domains := rfl
@[simp] theorem modFp_galleys : (s.modFp f).galleys = s.galleys := rfl
@[simp] theorem modFp_formes : (s.modFp f).formes = s.formes := rfl
@[simp] theorem modFp_platens : (s.modFp f).platens = s.platens := rfl
@[simp] theorem modFp_hbm : (s.modFp f).hbm = s.hbm := rfl
@[simp] theorem modFp_fabric : (s.modFp f).fabric = s.fabric := rfl
@[simp] theorem modFp_answers : (s.modFp f).answers = s.answers := rfl
@[simp] theorem modFp_gathers : (s.modFp f).gathers = s.gathers := rfl
@[simp] theorem modFp_tables : (s.modFp f).tables = s.tables := rfl
@[simp] theorem modFp_generations : (s.modFp f).generations = s.generations := rfl
@[simp] theorem modFp_mem : (s.modFp f).mem = s.mem := rfl
@[simp] theorem modFp_poison : (s.modFp f).poison = s.poison := rfl
@[simp] theorem modFp_lostMem : (s.modFp f).lostMem = s.lostMem := rfl
@[simp] theorem modFp_hostMem : (s.modFp f).hostMem = s.hostMem := rfl
@[simp] theorem modFp_corrected : (s.modFp f).corrected = s.corrected := rfl
@[simp] theorem modFp_ctxs : (s.modFp f).ctxs = s.ctxs := rfl
@[simp] theorem modFp_queues : (s.modFp f).queues = s.queues := rfl
@[simp] theorem modFp_fences : (s.modFp f).fences = s.fences := rfl
@[simp] theorem modFp_seals : (s.modFp f).seals = s.seals := rfl
@[simp] theorem modFp_sealCount : (s.modFp f).sealCount = s.sealCount := rfl
@[simp] theorem modFp_steps : (s.modFp f).steps = s.steps := rfl
@[simp] theorem modFp_nextStep : (s.modFp f).nextStep = s.nextStep := rfl
@[simp] theorem modFp_useCount : (s.modFp f).useCount = s.useCount := rfl
@[simp] theorem modFp_resident : (s.modFp f).resident = s.resident := rfl
@[simp] theorem modFp_switches : (s.modFp f).switches = s.switches := rfl
@[simp] theorem modFp_switching : (s.modFp f).switching = s.switching := rfl
@[simp] theorem modFp_upd : (s.modFp f).upd = s.upd := rfl
@[simp] theorem modFp_serve : (s.modFp f).serve = s.serve := rfl
@[simp] theorem modFp_host : (s.modFp f).host = s.host := rfl
@[simp] theorem modFp_net : (s.modFp f).net = s.net := rfl
@[simp] theorem modFp_fm : (s.modFp f).fm = s.fm := rfl
@[simp] theorem modFp_bnd : (s.modFp f).bnd = { s.bnd with fp := f s.bnd.fp } := rfl
@[simp] theorem modFp_sec : (s.modFp f).sec = s.sec := rfl
@[simp] theorem modFp_mgmt : (s.modFp f).mgmt = s.mgmt := rfl
@[simp] theorem modFp_tele : (s.modFp f).tele = s.tele := rfl
@[simp] theorem modFp_out : (s.modFp f).out = s.out := rfl
@[simp] theorem modFp_pending : (s.modFp f).pending = s.pending := rfl

end

/-! ### setPower -/

section
variable (x : Power)

@[simp] theorem setPower_now : (s.setPower x).now = s.now := rfl
@[simp] theorem setPower_fresh : (s.setPower x).fresh = s.fresh := rfl
@[simp] theorem setPower_lastRun : (s.setPower x).lastRun = s.lastRun := rfl
@[simp] theorem setPower_profile : (s.setPower x).profile = s.profile := rfl
@[simp] theorem setPower_domains : (s.setPower x).domains = s.domains := rfl
@[simp] theorem setPower_galleys : (s.setPower x).galleys = s.galleys := rfl
@[simp] theorem setPower_formes : (s.setPower x).formes = s.formes := rfl
@[simp] theorem setPower_platens : (s.setPower x).platens = s.platens := rfl
@[simp] theorem setPower_hbm : (s.setPower x).hbm = s.hbm := rfl
@[simp] theorem setPower_fabric : (s.setPower x).fabric = s.fabric := rfl
@[simp] theorem setPower_answers : (s.setPower x).answers = s.answers := rfl
@[simp] theorem setPower_gathers : (s.setPower x).gathers = s.gathers := rfl
@[simp] theorem setPower_tables : (s.setPower x).tables = s.tables := rfl
@[simp] theorem setPower_generations : (s.setPower x).generations = s.generations := rfl
@[simp] theorem setPower_mem : (s.setPower x).mem = s.mem := rfl
@[simp] theorem setPower_poison : (s.setPower x).poison = s.poison := rfl
@[simp] theorem setPower_lostMem : (s.setPower x).lostMem = s.lostMem := rfl
@[simp] theorem setPower_hostMem : (s.setPower x).hostMem = s.hostMem := rfl
@[simp] theorem setPower_corrected : (s.setPower x).corrected = s.corrected := rfl
@[simp] theorem setPower_ctxs : (s.setPower x).ctxs = s.ctxs := rfl
@[simp] theorem setPower_queues : (s.setPower x).queues = s.queues := rfl
@[simp] theorem setPower_fences : (s.setPower x).fences = s.fences := rfl
@[simp] theorem setPower_seals : (s.setPower x).seals = s.seals := rfl
@[simp] theorem setPower_sealCount : (s.setPower x).sealCount = s.sealCount := rfl
@[simp] theorem setPower_steps : (s.setPower x).steps = s.steps := rfl
@[simp] theorem setPower_nextStep : (s.setPower x).nextStep = s.nextStep := rfl
@[simp] theorem setPower_useCount : (s.setPower x).useCount = s.useCount := rfl
@[simp] theorem setPower_resident : (s.setPower x).resident = s.resident := rfl
@[simp] theorem setPower_switches : (s.setPower x).switches = s.switches := rfl
@[simp] theorem setPower_switching : (s.setPower x).switching = s.switching := rfl
@[simp] theorem setPower_upd : (s.setPower x).upd = s.upd := rfl
@[simp] theorem setPower_serve : (s.setPower x).serve = s.serve := rfl
@[simp] theorem setPower_host : (s.setPower x).host = s.host := rfl
@[simp] theorem setPower_net : (s.setPower x).net = s.net := rfl
@[simp] theorem setPower_fm : (s.setPower x).fm = s.fm := rfl
@[simp] theorem setPower_bnd : (s.setPower x).bnd = { s.bnd with power := x } := rfl
@[simp] theorem setPower_sec : (s.setPower x).sec = s.sec := rfl
@[simp] theorem setPower_mgmt : (s.setPower x).mgmt = s.mgmt := rfl
@[simp] theorem setPower_tele : (s.setPower x).tele = s.tele := rfl
@[simp] theorem setPower_out : (s.setPower x).out = s.out := rfl
@[simp] theorem setPower_pending : (s.setPower x).pending = s.pending := rfl

end

/-! ### Reading back an element that was written -/

theorem vget_vset_same {α : Type} {n : Nat} (v : Vector α n) {i : Nat} (x d : α) (h : i < n) : vget (vset v i x) i d = x := by
  simp [vget, vset, h]

theorem vget_vset_ne {α : Type} {n : Nat} (v : Vector α n) {i j : Nat} (x d : α) (h : j ≠ i) :
    vget (vset v i x) j d = vget v j d := by
  unfold vget vset
  split
  · simp [Ne.symm h]
  · rfl

theorem galley_modGalley_same {g : Nat} (f : GalleySt → GalleySt) (h : g < 64) : (s.modGalley g f).galley g = f (s.galley g) :=
  vget_vset_same _ _ _ h

theorem galley_modGalley_ne {g j : Nat} (f : GalleySt → GalleySt) (h : j ≠ g) : (s.modGalley g f).galley j = s.galley j :=
  vget_vset_ne _ _ _ h

theorem platen_modPlaten_same {k : Nat} (f : PlatenSt → PlatenSt) (h : k < 8) : (s.modPlaten k f).platen k = f (s.platen k) :=
  vget_vset_same _ _ _ h

theorem platen_modPlaten_ne {k j : Nat} (f : PlatenSt → PlatenSt) (h : j ≠ k) : (s.modPlaten k f).platen j = s.platen j :=
  vget_vset_ne _ _ _ h

theorem forme_setForme_same {k : Nat} (x : FormeSt) (h : k < 8) : (s.setForme k x).forme k = x :=
  vget_vset_same _ _ _ h

theorem forme_setForme_ne {k j : Nat} (x : FormeSt) (h : j ≠ k) : (s.setForme k x).forme j = s.forme j :=
  vget_vset_ne _ _ _ h

theorem stack_modStack_same {k : Nat} (f : StackSt → StackSt) (h : k < 8) : (s.modStack k f).stack k = f (s.stack k) :=
  vget_vset_same _ _ _ h

theorem stack_modStack_ne {k j : Nat} (f : StackSt → StackSt) (h : j ≠ k) : (s.modStack k f).stack j = s.stack j :=
  vget_vset_ne _ _ _ h

@[simp] theorem inst_modInst_same (k : Nat) (f : InstSt → InstSt) : (s.modInst k f).inst k = f (s.inst k) := by
  show (tget (tput s.host.insts k (f (s.inst k))) k).getD InstSt.fresh = _
  rw [tget_tput_same]; rfl

theorem inst_modInst_ne {k j : Nat} (f : InstSt → InstSt) (h : j ≠ k) : (s.modInst k f).inst j = s.inst j := by
  show (tget (tput s.host.insts k (f (s.inst k))) j).getD InstSt.fresh = _
  rw [tget_tput_ne _ _ h]; rfl

theorem queue_modQueue_same (k : Nat) (f : QueueSt → QueueSt) :
    tget (s.modQueue k f).queues k = (tget s.queues k).map f := tget_tmod_same _ _ _

theorem queue_modQueue_ne {k j : Nat} (f : QueueSt → QueueSt) (h : j ≠ k) :
    tget (s.modQueue k f).queues j = tget s.queues j := tget_tmod_ne _ _ h

theorem step_modStep_same (k : Nat) (f : StepRec → StepRec) :
    tget (s.modStep k f).steps k = (tget s.steps k).map f := tget_tmod_same _ _ _

theorem step_modStep_ne {k j : Nat} (f : StepRec → StepRec) (h : j ≠ k) :
    tget (s.modStep k f).steps j = tget s.steps j := tget_tmod_ne _ _ h

theorem ctx_modCtx_same (k : Nat) (f : CtxSt → CtxSt) : tget (s.modCtx k f).ctxs k = (tget s.ctxs k).map f := tget_tmod_same _ _ _

theorem ctx_modCtx_ne {k j : Nat} (f : CtxSt → CtxSt) (h : j ≠ k) : tget (s.modCtx k f).ctxs j = tget s.ctxs j :=
  tget_tmod_ne _ _ h

theorem table_modTable_same (k : Nat) (f : TableDesc → TableDesc) :
    tget (s.modTable k f).tables k = (tget s.tables k).map f := tget_tmod_same _ _ _

theorem table_modTable_ne {k j : Nat} (f : TableDesc → TableDesc) (h : j ≠ k) :
    tget (s.modTable k f).tables j = tget s.tables j := tget_tmod_ne _ _ h

end Sys2Proof.Laws
end

