-- ==== Sys2Proof/WellFormed.lean ====
section
/-! DEFINITION. Which commands name things the block has: each number of a galley, a sliver, a queue and so on within
the range the spec gives it (01_architecture.md Table 01-1 and the ranges of the chapters named below). -/

namespace Sys2Proof

/-- Logical galleys 0 to 63 (01_architecture.md R28). -/
def okGalley (g : Nat) : Bool := decide (g < 64)
/-- Slivers of a galley: 16 sticks of 16 (04_galleys.md R132). -/
def okSliver (sl : Nat) : Bool := decide (sl < 256)
/-- A sort's core, or a galley's compositor pair. -/
def okCore (c : CoreId) : Bool :=
  okGalley c.galley && (match c.sliver with | some sl => okSliver sl | none => true)
/-- Formes, stacks, platens, domains and proof slices are 0 to 7. -/
def okForme (f : Nat) : Bool := decide (f < 8)
/-- Stream tags 0 to 7 of a sort (03_sort.md R111). -/
def okStreamTag (k : Nat) : Bool := decide (k < 8)
/-- Move tags 0 to 15 of a galley (04_galleys.md Table 04-8). -/
def okMoveTag (k : Nat) : Bool := decide (k < 16)
/-- A barrier's place: four of each stick, and four of the galley (03_sort.md R114). -/
def okBarrier (k : Nat) : Bool := decide (k < 64)
/-- Queues 0 to 2047 (10_queues.md R334). -/
def okQueue (q : Nat) : Bool := decide (q < 2048)
/-- Instances and functions 0 to 255 (12_host_port.md R406). -/
def okInst (i : Nat) : Bool := decide (i < 256)
/-- Contexts 0 to 4095 (10_queues.md R334). -/
def okCtx (c : Nat) : Bool := decide (c < 4096)
/-- Update rings 0 to 3 of a context (07_updates.md R245). -/
def okRing (k : Nat) : Bool := decide (k < 4)
/-- Table IDs (05_tables.md Table 05-2). -/
def okTable (t : Nat) : Bool := decide (t < 65536)
/-- Pseudo-channels of a stack (08_memory.md Table 08-3). -/
def okChannel (k : Nat) : Bool := decide (k < 64)
/-- MSI-X vectors of a function (12_host_port.md R419). -/
def okVector (v : Nat) : Bool := decide (v < 2048)
/-- Stream pairs 0 to 7 of an instance (12_host_port.md R434). -/
def okPair (p : Nat) : Bool := decide (p < 8)
/-- Logical ports (13_network.md R441). -/
def okPort (p : Nat) : Bool := decide (p < 8)
/-- Priorities of a port (13_network.md R445). -/
def okPri (k : Nat) : Bool := decide (k < 8)
/-- Connections 0 to 1023 (13_network.md R449). -/
def okConn (n : Nat) : Bool := decide (n < 1024)
/-- Physical sticks 0 to 1121 (14_recovery.md Table 14-2). -/
def okStick (n : Nat) : Bool := decide (n < 1122)
/-- Key slots 0 to 255 (15_security.md R526). -/
def okKeySlot (n : Nat) : Bool := decide (n < 256)
/-- Fabric links by their number over the block: at most 85 (01_architecture.md R42). -/
def okLink (k : Nat) : Bool := decide (k < 85)
/-- Fields of a message or register of the width named. -/
def okU8 (n : Nat) : Bool := decide (n < 2 ^ 8)
def okU16 (n : Nat) : Bool := decide (n < 2 ^ 16)
def okU32 (n : Nat) : Bool := decide (n < 2 ^ 32)
def okU48 (n : Nat) : Bool := decide (n < 2 ^ 48)
def okU64 (n : Nat) : Bool := decide (n < 2 ^ 64)
def okU128 (n : Nat) : Bool := decide (n < 2 ^ 128)
/-- Access widths of a register, and its byte enables (00_scope.md R12). -/
def okWidth (w : Nat) : Bool := w == 1 || w == 2 || w == 4 || w == 8
def okEnables (e : Nat) : Bool := decide (e < 256)
/-- A register space names a function the block has. -/
def okSpace (sp : RegSpace) : Bool :=
  match sp with | .bar0 fn => okInst fn | .config fn _ => okInst fn | .prot => true | .flash => true
/-- A management session is named by its 32-bit SESSION (16_dictionary.md R563). -/
def okRequester (r : Requester) : Bool := match r with | .session n => okU32 n | .mailbox => true
/-- A list's source: a ticket 0 to 3 of a sliver, or a remote gather. -/
def okSrc (x : LkSrc) : Bool :=
  match x with | .sliver g sl k _ => okGalley g && okSliver sl && decide (k < 4) | .gather _ => true
def okUpd (x : UpdSrc) : Bool :=
  match x with | .cmd q _ => okQueue q | .ring c k => okCtx c && okRing k | .net n _ => okConn n
def okReader (r : HostReader) : Bool :=
  match r with | .fetch q => okQueue q | .command q => okQueue q | .move g t => okGalley g && okMoveTag t
def okLate (l : Late) : Bool :=
  match l with
  | .inGalley c g => okCtx c && okGalley g
  | .inPlaten c f => okCtx c && okForme f
  | .inCentral c => okCtx c
  | .galley g => okGalley g
  | .forme f => okForme f
  | .start => true
def okUnit (u : FaultUnit) : Bool :=
  match u with
  | .galley g => okGalley g
  | .stick g j => okGalley g && decide (j < 16)
  | .platen f => okForme f
  | .controller f => okForme f
  | .hostPort => true
  | .control u => okU8 u
  | .other u => okU8 u
def okRail (r : Rail) : Bool := match r with | .sort f => okForme f | .fab => true | .memc => true | .aon => true

/-- Every operand names something the block has. -/
def Instr.wf (i : Instr) : Bool :=
  match i with
  | .alu c _ _ _ _ => okCore c
  | .mul c _ _ _ _ => okCore c
  | .div c _ _ _ _ => okCore c
  | .cmp c _ _ _ _ => okCore c
  | .count c _ _ _ _ => okCore c
  | .aluImm c _ _ _ _ => okCore c
  | .lui c _ _ => okCore c
  | .branch c _ _ _ _ => okCore c
  | .jal c _ _ => okCore c
  | .jalr c _ _ _ => okCore c
  | .load c _ _ _ _ => okCore c
  | .store c _ _ _ _ => okCore c
  | .vld g sl _ _ _ => okGalley g && okSliver sl
  | .vldb g sl _ _ _ => okGalley g && okSliver sl
  | .vst g sl _ _ _ => okGalley g && okSliver sl
  | .tld g sl _ _ _ => okGalley g && okSliver sl
  | .tst g sl _ _ _ => okGalley g && okSliver sl
  | .tzero g sl _ _ _ => okGalley g && okSliver sl
  | .trv g sl _ _ _ => okGalley g && okSliver sl
  | .twv g sl _ _ _ => okGalley g && okSliver sl
  | .vArith g sl _ _ _ _ _ _ => okGalley g && okSliver sl
  | .vsqrt g sl _ _ _ _ _ => okGalley g && okSliver sl
  | .vMinMax g sl _ _ _ _ _ _ => okGalley g && okSliver sl
  | .vSign g sl _ _ _ _ _ _ => okGalley g && okSliver sl
  | .vCmp g sl _ _ _ _ _ _ => okGalley g && okSliver sl
  | .vhsum g sl _ _ _ _ => okGalley g && okSliver sl
  | .vhmax g sl _ _ _ _ => okGalley g && okSliver sl
  | .vfma g sl _ _ _ _ _ _ => okGalley g && okSliver sl
  | .vfnma g sl _ _ _ _ _ _ => okGalley g && okSliver sl
  | .vInt g sl _ _ _ _ _ => okGalley g && okSliver sl
  | .vLogic g sl _ _ _ _ _ => okGalley g && okSliver sl
  | .vShift g sl _ _ _ _ _ => okGalley g && okSliver sl
  | .vIMinMax g sl _ _ _ _ _ => okGalley g && okSliver sl
  | .vsel g sl _ _ _ _ => okGalley g && okSliver sl
  | .vperm g sl _ _ _ _ => okGalley g && okSliver sl
  | .vbcst g sl _ _ _ _ => okGalley g && okSliver sl
  | .vext g sl _ _ _ _ => okGalley g && okSliver sl
  | .vcvt g sl _ _ _ _ _ _ => okGalley g && okSliver sl
  | .vmx g sl _ _ _ _ _ _ _ => okGalley g && okSliver sl
  | .vdqmx g sl _ _ _ _ _ _ _ => okGalley g && okSliver sl
  | .mma g sl _ _ _ _ _ _ => okGalley g && okSliver sl
  | .mscl g sl _ _ => okGalley g && okSliver sl
  | .smovCs g sl _ _ _ _ => okGalley g && okSliver sl
  | .smovSc g sl _ _ _ _ => okGalley g && okSliver sl
  | .smovCg g sl _ _ _ _ => okGalley g && okSliver sl
  | .smovGc g sl _ _ _ _ => okGalley g && okSliver sl
  | .smovSg g sl _ _ _ _ => okGalley g && okSliver sl
  | .smovGs g sl _ _ _ _ => okGalley g && okSliver sl
  | .streamMoveDone g sl tag => okGalley g && okSliver sl && okStreamTag tag
  | .swait g sl _ _ => okGalley g && okSliver sl
  | .lkup g sl _ _ _ => okGalley g && okSliver sl
  | .lwait g sl _ => okGalley g && okSliver sl
  | .lstat g sl _ _ => okGalley g && okSliver sl
  | .barS g sl _ _ _ => okGalley g && okSliver sl
  | .barG g sl _ _ _ => okGalley g && okSliver sl
  | .barrierRelease g _ key => okGalley g && okBarrier key
  | .msend g sl _ _ _ => okGalley g && okSliver sl
  | .messageDelivery g sender dest => okGalley g && okSliver sender && okSliver dest
  | .mrecv g sl _ => okGalley g && okSliver sl
  | .mpoll g sl _ => okGalley g && okSliver sl
  | .slug g sl _ _ _ => okGalley g && okSliver sl
  | .slugOverrun g sl => okGalley g && okSliver sl
  | .sdone g sl => okGalley g && okSliver sl
  | .systemNop g sl => okGalley g && okSliver sl
  | .srd g sl _ _ => okGalley g && okSliver sl
  | .swr g sl _ _ => okGalley g && okSliver sl
  | .rctlInj g sl _ _ _ => okGalley g && okSliver sl
  | .sortAdoptionDone g sl => okGalley g && okSliver sl
  | .stickReplacementDone g => okGalley g
  | .dstart g _ _ _ => okGalley g
  | .dwait g _ _ _ => okGalley g
  | .dstat g _ _ _ => okGalley g
  | .gmove g _ _ _ => okGalley g
  | .moveDone g tag => okGalley g && okMoveTag tag
  | .gmwait g _ _ _ => okGalley g
  | .gflush g _ _ _ => okGalley g
  | .qwait g _ _ _ => okGalley g
  | .qtake g _ _ _ => okGalley g
  | .qdone g _ _ _ => okGalley g
  | .qinfo g _ _ _ => okGalley g
  | .qexit g _ _ _ => okGalley g
  | .lockstepCheck g _ => okGalley g
  | .imageLoadVerify g => okGalley g
  | .listCheck src => okSrc src
  | .lookupEntry g f => okGalley g && okForme f
  | .endMark g f => okGalley g && okForme f
  | .entryAdmit g f => okGalley g && okForme f
  | .tokenRefill => true
  | .windowClose f => okForme f
  | .sheetReadDone f _ _ => okForme f
  | .windowComplete f _ => okForme f
  | .bagSettle f src _ => okForme f && okSrc src
  | .listComplete src => okSrc src
  | .unitResetResponse g f => okGalley g && okForme f
  | .codebookLoadDone f t => okForme f && okTable t
  | .sketchHalving => true
  | .insertPlace f => okForme f
  | .quarantineRelease f => okForme f
  | .freqIncrement f => okForme f
  | .clockAgeing => true
  | .mirrorResyncGranule t => okTable t
  | .tableDefine q => okQueue q
  | .tableDefineDone t => okTable t
  | .tableRetire q => okQueue q
  | .tableRetireDone t => okTable t
  | .tableAdopt q => okQueue q
  | .updateRows q => okQueue q
  | .updateRecord src => okUpd src
  | .write _ => true
  | .writeInsert _ => true
  | .delete _ => true
  | .pin _ => true
  | .unpin _ => true
  | .rawSheets _ => true
  | .pad c k => okCtx c && okRing k
  | .updateRingRegister q => okQueue q
  | .updateRingRemove q => okQueue q
  | .updateRingPoll c k => okCtx c && okRing k
  | .epochFence q => okQueue q
  | .epochFenceDone q _ => okQueue q
  | .recentWriteRotate => true
  | .scrubStep f => okForme f
  | .frameRetireDone f => okForme f
  | .flashListAppend f => okForme f
  | .ceTrackerClear => true
  | .writeQueueTurn f pc => okForme f && okChannel pc
  | .refresh f => okForme f
  | .stackTempRead f _ => okForme f
  | .trainingRecordWrite f _ => okForme f
  | .fullTrainingDone f _ _ => okForme f
  | .warmRestoreDone f _ _ _ => okForme f
  | .zeroFillDone f => okForme f
  | .selfRefreshTimeout f => okForme f
  | .stepConfig q => okQueue q
  | .stepModel q => okQueue q
  | .seqOpen q => okQueue q
  | .seqSignal q => okQueue q
  | .seqClose q => okQueue q
  | .seqQuery q => okQueue q
  | .stepBuild d => okForme d
  | .dlmReport g => okGalley g
  | .batchRetire _ => true
  | .proofRound v => okForme v
  | .sliceRestore v _ => okForme v
  | .sliceWriteBack v => okForme v
  | .nop q => okQueue q
  | .launch q => okQueue q
  | .waitValue q => okQueue q
  | .waitValueReread q => okQueue q
  | .writeValue q => okQueue q
  | .fenceReset q => okQueue q
  | .query q => okQueue q
  | .sealProgram q => okQueue q
  | .unseal q => okQueue q
  | .map q => okQueue q
  | .unmap q => okQueue q
  | .mapAttr q => okQueue q
  | .ctxCreate q => okQueue q
  | .ctxDestroy q => okQueue q
  | .queueCreate q => okQueue q
  | .queueDestroy q => okQueue q
  | .queueBind q => okQueue q
  | .queueFlush q => okQueue q
  | .fenceCreate q => okQueue q
  | .fenceDestroy q => okQueue q
  | .quotaSet q => okQueue q
  | .resetContext q => okQueue q
  | .resetQueue q => okQueue q
  | .resetInstance q => okQueue q
  | .resetGalley q => okQueue q
  | .resetForme q => okQueue q
  | .resetBlock q => okQueue q
  | .dbTail fn q value => okInst fn && okQueue q && okU32 value
  | .dbCqHead fn q value => okInst fn && okQueue q && okU32 value
  | .flush fn q => okInst fn && okQueue q
  | .commandFetch q => okQueue q
  | .stalledRefetch q => okQueue q
  | .spreadClaim q g => okQueue q && okGalley g
  | .kqEnable fn v => okInst fn && okU32 v
  | .kqDisable fn v => okInst fn && okU32 v
  | .registerWrite sp _ width value en => okSpace sp && okWidth width && okU64 value && okEnables en
  | .preemptSaveDone _ => true
  | .deadlineBudgetRefill => true
  | .ledgerFlush => true
  | .periodClose => true
  | .journalAppend => true
  | .grant q => okQueue q
  | .revoke q => okQueue q
  | .poolAdd q => okQueue q
  | .poolRemove q => okQueue q
  | .aperture q => okQueue q
  | .hdm q => okQueue q
  | .staging q => okQueue q
  | .trackStart q => okQueue q
  | .trackStop q => okQueue q
  | .dirty q => okQueue q
  | .readPages q => okQueue q
  | .writePages q => okQueue q
  | .freeze q => okQueue q
  | .freezeQuiet i => okInst i
  | .freezeTimeout i => okInst i
  | .save q => okQueue q
  | .restore q => okQueue q
  | .thaw q => okQueue q
  | .bceWeight q => okQueue q
  | .streamOpen q => okQueue q
  | .streamClose q => okQueue q
  | .instanceResetDone i => okInst i
  | .flrVf i => okInst i
  | .flrPf => true
  | .d3hotToD0 i => okInst i
  | .vfEnableSet n => okInst n
  | .vfEnableClear n => okInst n
  | .msixUnmask fn vec => okInst fn && okVector vec
  | .hdmDecoderCommit _ _ => true
  | .apertureRead fn _ _ => okInst fn
  | .apertureWrite fn _ _ => okInst fn
  | .cxlMemRead _ _ => true
  | .cxlMemWrite _ _ => true
  | .hostReadTimeout r => okReader r
  | .linkTraining _ => true
  | .linkDown => true
  | .linkLost => true
  | .bounceWrite i p => okInst i && okPair p
  | .bounceRead i p => okInst i && okPair p
  | .bouncePad i p => okInst i && okPair p
  | .parkedReadRecheck _ => true
  | .bceSegmentDone _ => true
  | .outboundMessageSend i p => okInst i && okPair p
  | .fnBncKick i v => okInst i && okU32 v
  | .bounceProdPoll => true
  | .bncEnable i v => okInst i && okU32 v
  | .bncDisable i v => okInst i && okU32 v
  | .portLinkDown p => okPort p
  | .remoteGather p _ => okPort p
  | .gatherExecutionDone _ => true
  | .gatherReply p _ => okPort p
  | .tableUpdate p _ => okPort p
  | .ingest p _ => okPort p
  | .ack p _ => okPort p
  | .nack p _ => okPort p
  | .rawFrameIngest p _ => okPort p
  | .pfcFrame p _ => okPort p
  | .pfcRefresh p => okPort p
  | .pfcXon p pri => okPort p && okPri pri
  | .sendRingPoll n => okConn n
  | .ackSend n => okConn n
  | .rtoExpiry n _ => okConn n
  | .gatherReplyTimeout n _ => okConn n
  | .ingestConsPoll n => okConn n
  | .fnFltEnable fn v => okInst fn && okU32 v
  | .faultFlush => true
  | .wgmScan => true
  | .queueWatchdog q => okQueue q
  | .kqWatchdog q => okQueue q
  | .contextTeardownDone c => okCtx c
  | .ladderBoundMissed l => okLate l
  | .galleyResetDone g _ _ => okGalley g
  | .formeResetDone f _ _ => okForme f
  | .mcHeartbeatMiss => true
  | .mcWatchdog => true
  | .rotatingTestStart n => okStick n
  | .iftDone n _ _ => okStick n
  | .keyInfo q => okQueue q
  | .genPair q => okQueue q
  | .keyAttest q => okQueue q
  | .agree q => okQueue q
  | .erase q => okQueue q
  | .assign q => okQueue q
  | .sessionKeys q => okQueue q
  | .keySlotCommit n => okKeySlot n
  | .tamperN => true
  | .protLock => true
  | .getVersion i => okInst i
  | .getCapabilities i _ => okInst i
  | .negotiateAlgorithms i => okInst i
  | .getDigests i => okInst i
  | .getCertificate i _ _ _ => okInst i
  | .challenge i _ _ => okInst i
  | .getMeasurements i _ _ _ => okInst i
  | .keyExchange i _ _ => okInst i
  | .spdmFinish i => okInst i
  | .endSession i => okInst i
  | .heartbeat i => okInst i
  | .keyUpdate i _ => okInst i
  | .getCsr i _ => okInst i
  | .setCertificate i _ _ _ => okInst i
  | .spdmUnsupportedRequest i => okInst i
  | .mbxGo => true
  | .mgtIrq _ => true
  | .macphyRetry _ => true
  | .neighbourSolicitation target mac src => okU128 target && okU48 mac && okU128 src
  | .hello _ => true
  | .apgusFinish _ => true
  | .handshakeTimeout _ => true
  | .record _ => true
  | .sessionIdleTimeout _ => true
  | .get r tag i sub => okRequester r && okU16 tag && okU16 i && okU8 sub
  | .set r tag i sub _ => okRequester r && okU16 tag && okU16 i && okU8 sub
  | .apgusInfo r tag i sub => okRequester r && okU16 tag && okU16 i && okU8 sub
  | .blobRead r tag i sub _ _ => okRequester r && okU16 tag && okU16 i && okU8 sub
  | .blobWrite r tag i sub _ _ _ => okRequester r && okU16 tag && okU16 i && okU8 sub
  | .subscribe r tag _ => okRequester r && okU16 tag
  | .close r tag => okRequester r && okU16 tag
  | .telemetryTick => true
  | .beacon => true
  | .connectionOpen r tag c => okRequester r && okU16 tag && okConn c
  | .connectionDisable r tag c => okRequester r && okU16 tag && okConn c
  | .modeChange r tag i sub _ => okRequester r && okU16 tag && okU16 i && okU8 sub
  | .prepareDeadline _ => true
  | .modeCommit => true
  | .confirmDeadline _ => true
  | .nextProfile r tag p => okRequester r && okU16 tag && okU8 p
  | .quotaObjectWrite r tag i sub _ => okRequester r && okU16 tag && okU16 i && okU8 sub
  | .resetReqWarm r tag => okRequester r && okU16 tag
  | .resetReqCold r tag => okRequester r && okU16 tag
  | .resetReqPowerCycle r tag => okRequester r && okU16 tag
  | .alertAck r tag _ => okRequester r && okU16 tag
  | .release r tag f => okRequester r && okU16 tag && okForme f
  | .trainReq r tag k => okRequester r && okU16 tag && okForme k
  | .wallSet r tag _ => okRequester r && okU16 tag
  | .install r tag _ _ => okRequester r && okU16 tag
  | .claim r tag _ => okRequester r && okU16 tag
  | .debugToken r tag _ => okRequester r && okU16 tag
  | .fwImage r tag _ => okRequester r && okU16 tag
  | .verify r tag => okRequester r && okU16 tag
  | .stage r tag => okRequester r && okU16 tag
  | .activate r tag => okRequester r && okU16 tag
  | .trialEnd _ => true
  | .confirm r tag => okRequester r && okU16 tag
  | .selectFs1 r tag => okRequester r && okU16 tag
  | .fwAbort r tag => okRequester r && okU16 tag
  | .arbCommit r tag => okRequester r && okU16 tag
  | .fwRevoke r tag _ => okRequester r && okU16 tag
  | .profileSelect q => okQueue q
  | .profileCancel q => okQueue q
  | .profileRead q => okQueue q
  | .setCustom q => okQueue q
  | .porNAssert => true
  | .porNRelease _ => true
  | .warmN => true
  | .coldStartDone => true
  | .warmStartDone => true
  | .startFailed _ => true
  | .startRetry => true
  | .refclkLoss => true
  | .refclkReturn => true
  | .vriAck f => okForme f
  | .vriAckTimeout f => okForme f
  | .railTrip r => okRail r
  | .powerSample _ => true
  | .dieTempRead _ _ => true
  | .voltageBandChange f => okForme f
  | .thermtrip => true
  | .fpRead _ _ => true
  | .fpProgram _ _ => true
  | .fpErase4k _ _ => true
  | .fpBlankCheck _ _ => true
  | .fpResetDevice _ => true
  | .fpOperationDone _ => true
  | .fpTimeout => true
  | .storeCompaction => true
  | .illegalInstr c _ => okCore c
  | .unitFault u => okUnit u
  | .fabricLinkFault k _ _ => okLink k
  | .portLinkUp p => okPort p
  | .tamperNDeassert => true
  | .pfcQuantaExpiry p pri => okPort p && okPri pri
  | .keyCellFailure n => okKeySlot n

end Sys2Proof
end

section
/-! PROOFS. Integer MMA (02_arithmetic.md R77): lanes and flags of packed numbers, and the clamped sums of a tile. -/

namespace Sys2Proof.Machine

/-! ### Lanes and bits of a number -/

theorem bit_eq_testBit (x i : Nat) : bit x i = x.testBit i := by
  rw [bit, Nat.testBit_eq_decide_div_mod_eq]; rfl

theorem packLanes_lt (w : Nat) (l : List Nat) : packLanes w l < 2 ^ (w * l.length) := by
  induction l with
  | nil => simp [packLanes]
  | cons a l ih =>
    have ha : a % 2 ^ w < 2 ^ w := Nat.mod_lt _ (Nat.two_pow_pos w)
    calc a % 2 ^ w + 2 ^ w * packLanes w l
        < 2 ^ w * (packLanes w l + 1) := by rw [Nat.mul_succ]; omega
      _ ≤ 2 ^ w * 2 ^ (w * l.length) := Nat.mul_le_mul_left _ ih
      _ = 2 ^ (w * (a :: l).length) := by rw [← Nat.pow_add, List.length_cons, Nat.mul_succ, Nat.add_comm]

/-- A packed list reads back lane by lane. -/
theorem lane_packLanes (w : Nat) (l : List Nat) (i : Nat) (h : i < l.length) :
    lane w (packLanes w l) i = l[i] % 2 ^ w := by
  induction l generalizing i with
  | nil => simp at h
  | cons a l ih =>
    cases i with
    | zero => simp [lane, packLanes]
    | succ i =>
      have hrest : packLanes w (a :: l) / 2 ^ w = packLanes w l := by
        rw [packLanes, Nat.add_mul_div_left _ _ (Nat.two_pow_pos w),
          Nat.div_eq_of_lt (Nat.mod_lt _ (Nat.two_pow_pos w)), Nat.zero_add]
      rw [lane, Nat.mul_succ, Nat.add_comm, Nat.pow_add, ← Nat.div_div_eq_div_mul, hrest]
      exact ih i (Nat.lt_of_succ_lt_succ h)

theorem ofSigned_lt (w : Nat) (x : Int) : ofSigned w x < 2 ^ w := by
  have hpos : (0 : Int) < 2 ^ w := by positivity
  have hlt := Int.emod_lt_of_pos x hpos
  have hcast : ((2 ^ w : Nat) : Int) = 2 ^ w := by push_cast; rfl
  unfold ofSigned
  omega

/-! ### Sticky flags -/

/-- The OR of a list of flag sets holds a flag exactly when one of the sets does. -/
theorem getLsbD_foldl_or (l : List Flags) (f : Flags) (i : Nat) :
    (l.foldl (· ||| ·) f).getLsbD i = true ↔ f.getLsbD i = true ∨ ∃ x ∈ l, x.getLsbD i = true := by
  induction l generalizing f with
  | nil => simp
  | cons x l ih => simp [ih, or_assoc]

/-- Bit i of SSR after an instruction sets its flags: set before, or among the flags. -/
theorem bit_ssr_flag (t : SortSt) (f : Flags) (i : Nat) :
    bit (t.flag f).ssr.toNat i = true ↔ bit t.ssr.toNat i = true ∨ f.getLsbD i = true := by
  have hi : f.getLsbD i = true → i < 32 := fun h => by
    have := BitVec.lt_of_getLsbD h; omega
  simp only [bit_eq_testBit, BitVec.testBit_toNat, SortSt.flag, BitVec.getLsbD_or, BitVec.getLsbD_setWidth,
    Bool.or_eq_true, Bool.and_eq_true, decide_eq_true_eq]
  tauto

/-! ### Tiles -/

theorem ga_sa_same (t : SortSt) {r : Nat} (x : Nat) (h : r < 8) : (t.sa r x).ga r = BitVec.ofNat 2048 x :=
  vget_vset_same _ _ _ _ h

theorem toNat_ofNat_of_lt {n x : Nat} (h : x < 2 ^ n) : (BitVec.ofNat n x).toNat = x := by
  rw [BitVec.toNat_ofNat, Nat.mod_eq_of_lt h]

theorem toNat_ga_sa_same (t : SortSt) {r x : Nat} (h : r < 8) (hx : x < 2 ^ 2048) : ((t.sa r x).ga r).toNat = x := by
  rw [ga_sa_same t x h, toNat_ofNat_of_lt hx]

theorem ga_sa_ne (t : SortSt) {r n : Nat} (x : Nat) (h : n ≠ r) : (t.sa r x).ga n = t.ga n :=
  vget_vset_ne _ _ _ _ _ h

/-! ### Integer MMA (R77) -/

/-- What R77 makes of an exact sum: its 32-bit code after clamping, and SAT when clamping changes it. -/
def clampSum (x : Int) : Nat × Flags :=
  (ofSigned 32 (max (-(2 ^ 31)) (min (2 ^ 31 - 1) x)), if x < -(2 ^ 31) ∨ 2 ^ 31 - 1 < x then Flags.sat else 0)

/-- The exact sum of element C[i][j] of a tile over K products of signed w-bit elements, in rows of 64 bits. -/
def exactMmaSum (w k va vb tile i j : Nat) : Int :=
  toSigned 32 (lane 32 tile (8 * i + j)) + ((List.range k).map (fun n =>
    toSigned w (lane w (va / 2 ^ (64 * i)) n) * toSigned w (lane w (vb / 2 ^ (64 * j)) n))).sum

/-- The tile and the flags of 64 clamped sums. -/
def clampTile (sum : Nat → Nat → Int) : Nat × Flags :=
  let cells := (List.range 64).map (fun n => clampSum (sum (n / 8) (n % 8)))
  (packLanes 32 (cells.map (·.1)), (cells.map (·.2)).foldl (· ||| ·) 0)

theorem mmaDotInt_eq_clampSum (w : Nat) (a b : List Nat) (c : Nat) :
    mmaDotInt w a b c =
      clampSum (toSigned 32 c + ((a.zip b).map (fun p => toSigned w p.1 * toSigned w p.2)).sum) := by
  unfold mmaDotInt
  generalize toSigned 32 c + _ = x
  unfold clampSum
  rcases lt_or_ge (2 ^ 31 - 1) x with hhi | hhi
  · rw [if_pos hhi, if_pos (.inr hhi), show max (-(2 ^ 31)) (min (2 ^ 31 - 1) x) = 2 ^ 31 - 1 by omega]
    rfl
  rcases lt_or_ge x (-(2 ^ 31)) with hlo | hlo
  · rw [if_neg hhi.not_gt, if_pos hlo, if_pos (.inl hlo),
      show max (-(2 ^ 31)) (min (2 ^ 31 - 1) x) = -(2 ^ 31) by omega]
    rfl
  · rw [if_neg hhi.not_gt, if_neg hlo.not_gt, if_neg (not_or.mpr ⟨hlo.not_gt, hhi.not_gt⟩),
      show max (-(2 ^ 31)) (min (2 ^ 31 - 1) x) = x by omega]

/-- An integer MMA of rows of 64 bits clamps the exact sum of every element. -/
theorem mmaTile_eq_clampTile (k w : Nat) (e : Elem) (he : e.width = w) (mx : Bool) (xa xb va vb tile : Nat) :
    mmaTile ⟨k, 64, false, true⟩ e e mx xa xb va vb tile = clampTile (exactMmaSum w k va vb tile) := by
  have hcell (n : Nat) : mmaDotInt w (lanes w k (va / 2 ^ (64 * (n / 8)))) (lanes w k (vb / 2 ^ (64 * (n % 8))))
      (lane 32 tile n) = clampSum (exactMmaSum w k va vb tile (n / 8) (n % 8)) := by
    rw [mmaDotInt_eq_clampSum, exactMmaSum, Nat.div_add_mod, lanes, lanes, List.zip_map', List.map_map]
    rfl
  simp only [mmaTile, clampTile, mmaRow, he, if_true, hcell]

/-- The integer formats of Table 02-10: INT8 in rows of 8, INT4 in rows of 16. -/
theorem mma_int (t : SortSt) {fmt : BitVec 4} {w k : Nat} (ad : BitVec 3) (va vb : Reg)
    (hfmt : (fmt = 9 ∧ w = 8 ∧ k = 8) ∨ (fmt = 10 ∧ w = 4 ∧ k = 16)) :
    ∃ e : Elem, e.width = w ∧ mma t fmt fmt false ad va vb = some (fun u =>
      let q := mmaTile ⟨k, 64, false, true⟩ e e false t.xa.toNat t.xb.toNat (t.gv va).toNat (t.gv vb).toNat
        (t.ga ad.toNat).toNat
      (u.sa ad.toNat q.1).flag q.2) := by
  obtain ⟨rfl, rfl, rfl⟩ | ⟨rfl, rfl, rfl⟩ := hfmt
  · exact ⟨.int 8, rfl, rfl⟩
  · exact ⟨.int 4, rfl, rfl⟩

/-- An integer MMA completes with the clamped sums in the tile and their flags in SSR. -/
theorem exec_mma_int {s : State} {g sl : Nat} {t : SortSt} {fmt : BitVec 4} {w k : Nat} (ad : BitVec 3) (va vb : Reg)
    (hrun : s.Runs g sl t) (hfmt : (fmt = 9 ∧ w = 8 ∧ k = 8) ∨ (fmt = 10 ∧ w = 4 ∧ k = 16)) :
    exec (.mma g sl fmt fmt false ad va vb) s =
      let q := clampTile (exactMmaSum w k (t.gv va).toNat (t.gv vb).toNat (t.ga ad.toNat).toNat)
      .next (s.afterUnit g sl 1 ((t.sa ad.toNat q.1).flag q.2)) := by
  obtain ⟨e, he, hmma⟩ := mma_int t ad va vb hfmt
  have ⟨_, _, hinj, _⟩ := hrun
  have hcls : ¬ (fmt.toNat = 1 ∨ fmt.toNat = 2) := by
    obtain ⟨rfl, -⟩ | ⟨rfl, -⟩ := hfmt <;> decide
  show execMma g sl fmt fmt false ad va vb s = _
  rw [execMma, if_neg hcls]
  congr 1
  refine runUnit_next hrun ?_ rfl
  simp only [hmma, checked_none hinj, mmaTile_eq_clampTile k w e he]

/-! #### What the clamped tile holds -/

theorem clampTile_lt (sum : Nat → Nat → Int) : (clampTile sum).1 < 2 ^ 2048 := by
  have h := packLanes_lt 32 (((List.range 64).map (fun n => clampSum (sum (n / 8) (n % 8)))).map (·.1))
  rwa [List.length_map, List.length_map, List.length_range, show 32 * 64 = 2048 from rfl] at h

theorem lane_clampTile (sum : Nat → Nat → Int) {i j : Nat} (hi : i < 8) (hj : j < 8) :
    lane 32 (clampTile sum).1 (8 * i + j) = (clampSum (sum i j)).1 := by
  have hrow : (8 * i + j) / 8 = i := by omega
  have hcol : (8 * i + j) % 8 = j := by omega
  rw [clampTile, lane_packLanes _ _ _ (by simp; omega)]
  simp only [List.getElem_map, List.getElem_range, hrow, hcol]
  exact Nat.mod_eq_of_lt (ofSigned_lt 32 _)

theorem clampSum_sat (x : Int) : (clampSum x).2.getLsbD 5 = true ↔ x < -(2 ^ 31) ∨ 2 ^ 31 - 1 < x := by
  unfold clampSum
  split <;> rename_i h
  · exact iff_of_true (by decide : Flags.sat.getLsbD 5 = true) h
  · exact iff_of_false (by decide : ¬ (0 : Flags).getLsbD 5 = true) h

/-- The tile's flags hold SAT exactly when clamping changes the sum of one of its elements. -/
theorem clampTile_sat (sum : Nat → Nat → Int) : (clampTile sum).2.getLsbD 5 = true ↔
    ∃ i j, i < 8 ∧ j < 8 ∧ (sum i j < -(2 ^ 31) ∨ 2 ^ 31 - 1 < sum i j) := by
  have hcells : (clampTile sum).2.getLsbD 5 = true ↔
      ∃ n < 64, (clampSum (sum (n / 8) (n % 8))).2.getLsbD 5 = true := by
    rw [clampTile, getLsbD_foldl_or]
    simp [-BitVec.getLsbD_eq_getElem]
  simp only [hcells, clampSum_sat]
  constructor
  · rintro ⟨n, hn, h⟩
    exact ⟨n / 8, n % 8, by omega, by omega, h⟩
  · rintro ⟨i, j, hi, hj, h⟩
    refine ⟨8 * i + j, by omega, ?_⟩
    rwa [show (8 * i + j) / 8 = i by omega, show (8 * i + j) % 8 = j by omega]

/-! #### A sort whose integer MMA saturates -/

/-- A running sort whose tile 0 begins with the largest 32-bit integer and whose v1 begins with the element 1. -/
def saturatingSort : SortSt := (SortSt.zero.sv 1 1).sa 0 (2 ^ 31 - 1)

theorem saturatingSort_runs : (State.reset.setSliver 0 0 saturatingSort).Runs 0 0 saturatingSort :=
  ⟨sliver_setSliver _ _ _ _ (by decide), rfl, rfl, by decide⟩

theorem saturatingSort_sum : exactMmaSum 8 8 (saturatingSort.gv 1).toNat (saturatingSort.gv 1).toNat
    (saturatingSort.ga 0).toNat 0 0 = 2 ^ 31 := by
  decide +kernel

end Sys2Proof.Machine

open Sys2Proof Sys2Proof.Machine

/-- Settles O14: the instruction writes the clamped exact sums (`exec_mma_int`), whose lanes and SAT flag
`lane_clampTile` and `clampTile_sat` read back. -/
theorem integerMatrixMultiply : Obligations.IntegerMatrixMultiply := by
  unfold Obligations.IntegerMatrixMultiply
  intro s g sl t fmt ad va vb w k sum hrun hfmt hsum
  have hexact : sum = exactMmaSum w k (t.gv va).toNat (t.gv vb).toNat (t.ga ad.toNat).toNat :=
    funext₂ hsum
  refine ⟨(t.sa ad.toNat (clampTile sum).1).flag (clampTile sum).2, ?_, ?_, ?_, ?_, rfl, rfl, rfl⟩
  · rw [hexact]
    exact exec_mma_int ad va vb hrun hfmt
  · intro i j hi hj
    have htile := toNat_ga_sa_same t ad.isLt (clampTile_lt sum)
    exact (congrArg (lane 32 · (8 * i + j)) htile).trans (lane_clampTile sum hi hj)
  · rw [bit_ssr_flag, clampTile_sat]
    rfl
  · intro n hn _
    exact ga_sa_ne t _ hn

/-- A run that meets O14's hypotheses and clamps: 2^31 - 1 + 1 × 1 leaves 2^31 - 1 in the tile and sets SAT. -/
theorem integerMatrixMultiply_witness : ∃ t' : SortSt,
    exec (.mma 0 0 9 9 false 0 1 1) (State.reset.setSliver 0 0 saturatingSort) =
      .next ((State.reset.setSliver 0 0 saturatingSort).afterUnit 0 0 1 t') ∧
    lane 32 (t'.ga 0).toNat 0 = 2 ^ 31 - 1 ∧ bit t'.ssr.toNat 5 = true := by
  obtain ⟨t', hexec, htile, hsat, -⟩ := integerMatrixMultiply _ 0 0 saturatingSort 9 0 1 1 8 8
    (exactMmaSum 8 8 (saturatingSort.gv 1).toNat (saturatingSort.gv 1).toNat (saturatingSort.ga 0).toNat)
    saturatingSort_runs (.inl ⟨rfl, rfl, rfl⟩) (fun _ _ => rfl)
  refine ⟨t', hexec, ?_, hsat.mpr (.inr ⟨0, 0, by decide, by decide, .inr ?_⟩)⟩
  · refine (htile 0 0 (by decide) (by decide)).trans ?_
    rw [saturatingSort_sum]
    decide
  · rw [saturatingSort_sum]
    decide

end

section
/-! PROOFS. Division (03_sort.md R102) and misaligned case accesses (03_sort.md R94) of a sort. -/

namespace Sys2Proof.Machine

/-! ### Division (R102) -/

/-- A quotient by 0 is all ones and a remainder by 0 is the dividend. -/
theorem divOp_zero (op : DivOp) (x : W64) :
    divOp op x 0 = match op with
      | .divu | .divs => BitVec.allOnes 64
      | .remu | .rems => x := by
  cases op <;> simp [divOp]

/-- Signed division by −1 negates modulo 2^64, so that −2^63 stays itself. -/
theorem divOp_divs_neg_one (x : W64) : divOp .divs x (BitVec.allOnes 64) = -x :=
  calc divOp .divs x (BitVec.allOnes 64)
      = BitVec.ofInt 64 (-x.toInt) := by simp [divOp]
    _ = -x := by rw [BitVec.ofInt_neg, BitVec.ofInt_toInt]

/-- Every remainder by −1 is 0. -/
theorem divOp_rems_neg_one (x : W64) : divOp .rems x (BitVec.allOnes 64) = 0 := by
  simp [divOp]

section
variable {s : State} {g sl : Nat} {t : SortSt}

/-- A running sort takes a legal write of a scalar register and goes on. -/
theorem scalarWrite_next (hrun : s.Runs g sl t) (chk : Bool) (rd : Reg) (val : (Reg → W64) → W64) :
    s.scalarWrite ⟨g, some sl⟩ chk false rd val = s.after g sl (t.ss rd (val t.gs)) := by
  have ⟨_, _, hinj, _⟩ := hrun
  exact run_next (f := fun _ u => u.maybeChecked chk (fun u => u.ss rd (val u.gs))) hrun (maybeChecked_none hinj chk _)
    (ss_pc t rd _)

theorem exec_div_next (hrun : s.Runs g sl t) (op : DivOp) (rd rs rt : Reg) :
    exec (.div ⟨g, some sl⟩ op rd rs rt) s = .next (s.after g sl (t.ss rd (divOp op (t.gs rs) (t.gs rt)))) := by
  rw [← scalarWrite_next hrun true rd (fun x => divOp op (x rs) (x rt))]
  rfl

/-- The sliver that completed an instruction runs at the next one. -/
theorem sliver_after (u : SortSt) (hg : g < 64) :
    ((s.after g sl u).galley g).sliver sl = some { u with pc := u.pc + 4, status := .running } :=
  sliver_setSliver s g sl _ hg

/-! ### Misaligned case accesses (R94) -/

/-- The alignment check comes before every other check of a case access (R130). -/
theorem caseCheck_misaligned {a n : Nat} (h : a % n ≠ 0) : caseCheck a n = some .misaligned := if_pos h

theorem caseLoad_misaligned {a n : Nat} (h : a % n ≠ 0) (k : Nat → SortSt) : t.caseLoad a n k = .exc .misaligned := by
  rw [SortSt.caseLoad, caseCheck_misaligned h]

theorem caseStore_misaligned {a n : Nat} (h : a % n ≠ 0) (x : Nat) : t.caseStore a n x = .exc .misaligned := by
  rw [SortSt.caseStore, caseCheck_misaligned h]

/-- An instruction of a running sort that raises MISALIGNED raises it in the state it found. -/
theorem next_misaligned {f : SortEnv → SortSt → SortRes} (hrun : s.Runs g sl t)
    (hf : f (s.sortEnv g sl) t = .exc .misaligned) :
    (.next (s.runSort g sl isRunning f) : Res) = .next (s.coreException ⟨g, some sl⟩ .misaligned t.pc.toNat) := by
  rw [run_exc hrun hf]

end

/-! ### A sort that divides by 0 and addresses byte 1 of its case -/

/-- A running sort whose s1 holds 1, at PC 0. -/
def oneInS1Sort : SortSt := SortSt.zero.ss 1 1

theorem oneInS1Sort_runs : (State.reset.setSliver 0 0 oneInS1Sort).Runs 0 0 oneInS1Sort :=
  ⟨sliver_setSliver _ _ _ _ (by decide), rfl, rfl, by decide⟩

theorem oneInS1Sort_ea : oneInS1Sort.ea 1 0 = 1 := by decide

end Sys2Proof.Machine

open Sys2Proof Sys2Proof.Machine

/-- Settles O5: the results by 0 are `divOp_zero`, those of −2^63 ÷ −1 are a negation modulo 2^64 and 0
(`divOp_divs_neg_one`, `divOp_rems_neg_one`), and `exec_div_next` leaves the sort at the next instruction. -/
theorem divideNeverTraps : Obligations.DivideNeverTraps := by
  unfold Obligations.DivideNeverTraps
  refine ⟨fun x => ⟨divOp_zero .divu x, divOp_zero .divs x, divOp_zero .remu x, divOp_zero .rems x⟩, ?_, ?_, ?_⟩
  · rw [divOp_divs_neg_one, BitVec.neg_intMin]
  · exact divOp_rems_neg_one _
  · intro s g sl t op rd rs rt hrun
    have ⟨hsliver, _⟩ := hrun
    refine ⟨_, _, exec_div_next hrun op rd rs rt, sliver_after _ (galley_lt hsliver), rfl, ?_⟩
    exact congrArg (· + 4) (ss_pc t rd _)

/-- A run that meets O5's hypothesis: the sort divides 1 by s0, which reads 0, and goes on at PC 4. -/
theorem divideNeverTraps_witness : ∃ s' t',
    exec (.div ⟨0, some 0⟩ .divs 2 1 0) (State.reset.setSliver 0 0 oneInS1Sort) = .next s' ∧
    (s'.galley 0).sliver 0 = some t' ∧ t'.status = .running ∧ t'.pc = 4 := by
  obtain ⟨-, -, -, hgoesOn⟩ := divideNeverTraps
  exact hgoesOn _ 0 0 oneInS1Sort .divs 2 1 0 oneInS1Sort_runs

/-- Settles O10: the alignment check is the first of a case access, and each load and store of the case is one
access of its size (`caseLoad_misaligned`, `caseStore_misaligned`). -/
theorem misalignedCaseAccess : Obligations.MisalignedCaseAccess := by
  unfold Obligations.MisalignedCaseAccess
  refine ⟨rfl, fun s g sl t rs rd imm hrun => ⟨?load, ?store, ?vldb, ?vector, ?tile⟩⟩
  case load => exact fun op h => next_misaligned hrun (caseLoad_misaligned h _)
  case store => exact fun op h => next_misaligned hrun (caseStore_misaligned h _)
  case vldb => exact fun h => next_misaligned hrun (caseLoad_misaligned h _)
  case vector =>
    exact fun h => ⟨next_misaligned hrun (caseLoad_misaligned h _), next_misaligned hrun (caseStore_misaligned h _)⟩
  case tile =>
    refine fun h => ⟨next_misaligned hrun (caseStore_misaligned h _), fun hrd => ?_⟩
    exact next_misaligned hrun ((if_neg hrd.not_ge).trans (caseLoad_misaligned h _))

/-- A run that meets O10's hypotheses: an LH and a TLD from byte 1 of the case raise MISALIGNED. -/
theorem misalignedCaseAccess_witness :
    exec (.load ⟨0, some 0⟩ .lh 2 1 0) (State.reset.setSliver 0 0 oneInS1Sort) =
      .next ((State.reset.setSliver 0 0 oneInS1Sort).coreException ⟨0, some 0⟩ .misaligned 0) ∧
    exec (.tld 0 0 2 1 0) (State.reset.setSliver 0 0 oneInS1Sort) =
      .next ((State.reset.setSliver 0 0 oneInS1Sort).coreException ⟨0, some 0⟩ .misaligned 0) := by
  obtain ⟨-, hmis⟩ := misalignedCaseAccess
  obtain ⟨hload, -, -, -, htile⟩ := hmis _ 0 0 oneInS1Sort 1 2 0 oneInS1Sort_runs
  rw [oneInS1Sort_ea] at hload htile
  exact ⟨hload .lh (by decide), (htile (by decide)).2 (by decide)⟩

end

section
/-! PROOFS. MSI-X messages of a function (12_host_port.md R419): a raise is sent, held pending or dropped, and
unmasking sends what was held. -/

namespace Sys2Proof.Machine

theorem Msix.holds_iff (m : Msix) (vec : Nat) : m.holds vec = true ↔ m.allMasked = true ∨ vec ∉ m.unmasked := by
  simp [Msix.holds]

theorem Msix.holds_eq_false_iff (m : Msix) (vec : Nat) :
    m.holds vec = false ↔ m.allMasked = false ∧ vec ∈ m.unmasked := by
  simp [Msix.holds]

/-- MSI-X state once a raise of a vector is held. -/
def Msix.hold (m : Msix) (vec : Nat) : Msix := { m with pend := m.pend.insert vec }

/-- MSI-X state, not masked as a whole, once a vector is unmasked: nothing of the vector is held any more. -/
def Msix.unmask (m : Msix) (vec : Nat) : Msix :=
  { m with unmasked := m.unmasked.insert vec, pend := m.pend.filter (· != vec) }

theorem Msix.mem_pend_hold (m : Msix) (vec : Nat) : vec ∈ (m.hold vec).pend := List.mem_insert_self

theorem Msix.mem_unmasked_unmask (m : Msix) (vec : Nat) : vec ∈ (m.unmask vec).unmasked := List.mem_insert_self

theorem Msix.not_mem_pend_unmask (m : Msix) (vec : Nat) : vec ∉ (m.unmask vec).pend := by
  simp [Msix.unmask]

/-- The MSI-X state of one function is replaced. -/
def State.setMsix (s : State) (fn : Nat) (m : Msix) : State := s.modInst fn (fun x => { x with msix := m })

theorem msix_setMsix (s : State) (fn : Nat) (m : Msix) : ((s.setMsix fn m).inst fn).msix = m :=
  congrArg InstSt.msix (Laws.inst_modInst_same s fn _)

section
variable {s : State} {fn vec : Nat}

/-! ### What a raise does -/

theorem raise_dropped (hoff : (s.inst fn).msix.enable = false) : s.raise fn vec = s := by
  simp [State.raise, hoff]

theorem raise_sent (hvec : vec ≠ 0xFFFF) (hon : (s.inst fn).msix.enable = true)
    (hopen : (s.inst fn).msix.holds vec = false) : s.raise fn vec = { s with out := s.out ++ [.msix fn vec] } := by
  simp [State.raise, hvec, hon, hopen]

theorem raise_held (hvec : vec ≠ 0xFFFF) (hon : (s.inst fn).msix.enable = true)
    (hheld : (s.inst fn).msix.holds vec = true) :
    s.raise fn vec = s.setMsix fn ((s.inst fn).msix.hold vec) := by
  simp [State.raise, hvec, hon, hheld, Msix.hold, State.setMsix]

/-! ### What MSIX_UNMASK does -/

theorem exec_msixUnmask (hserve : s.fnServes fn = true) : exec (.msixUnmask fn vec) s = .next (s.unmask fn vec) :=
  if_pos hserve

/-- Unmasking a vector whose raise was held takes it out of the pending ones and raises it again. -/
theorem unmask_pending (hall : (s.inst fn).msix.allMasked = false) (hpend : vec ∈ (s.inst fn).msix.pend) :
    s.unmask fn vec = (s.setMsix fn ((s.inst fn).msix.unmask vec)).raise fn vec := by
  simp [State.unmask, hall, hpend, Msix.unmask, State.setMsix]

/-- The raise of a vector that has just been unmasked is sent. -/
theorem unmask_sends (hvec : vec ≠ 0xFFFF) (hon : (s.inst fn).msix.enable = true)
    (hall : (s.inst fn).msix.allMasked = false) (hpend : vec ∈ (s.inst fn).msix.pend) :
    s.unmask fn vec = { s.setMsix fn ((s.inst fn).msix.unmask vec) with out := s.out ++ [.msix fn vec] } := by
  have hopen : ((s.inst fn).msix.unmask vec).holds vec = false :=
    (Msix.holds_eq_false_iff _ _).mpr ⟨hall, Msix.mem_unmasked_unmask _ _⟩
  rw [unmask_pending hall hpend]
  exact raise_sent hvec (by rwa [msix_setMsix]) (by rwa [msix_setMsix])

end

/-! ### A function that has vector 1 unmasked and vector 5 masked -/

/-- Function 0 is enabled, with MSI-X on and vector 1 unmasked; function 1 has MSI-X off. -/
def vectorOneOpenState : State :=
  (State.reset.setPower .running).modInst 0 (fun x =>
    { x with state := .enabled, msix := { x.msix with enable := true, unmasked := [1] } })

end Sys2Proof.Machine

open Sys2Proof Sys2Proof.Machine

/-- Settles O44: the three outcomes of a raise are `raise_sent`, `raise_held` and `raise_dropped`; unmasking a vector
raises what was held of it once more (`unmask_sends`). -/
theorem interruptMessages : Obligations.InterruptMessages := by
  unfold Obligations.InterruptMessages
  refine fun s fn vec hvec => ⟨?sent, ?held, raise_dropped, ?unmasked⟩
  case sent => exact fun hon hall hopen => raise_sent hvec hon ((Msix.holds_eq_false_iff _ _).mpr ⟨hall, hopen⟩)
  case held =>
    intro hon hmask
    rw [raise_held hvec hon ((Msix.holds_iff _ _).mpr hmask), msix_setMsix]
    exact ⟨rfl, Msix.mem_pend_hold _ _⟩
  case unmasked =>
    intro hserve hon hall hpend
    have hmsix : ((s.unmask fn vec).inst fn).msix = (s.inst fn).msix.unmask vec := by
      rw [unmask_sends hvec hon hall hpend]
      exact msix_setMsix s fn _
    refine ⟨_, exec_msixUnmask hserve, by rw [unmask_sends hvec hon hall hpend], ?_, ?_⟩
    · rw [hmsix]
      exact Msix.mem_unmasked_unmask _ _
    · rw [hmsix]
      exact Msix.not_mem_pend_unmask _ _

/-- States that meet the hypotheses of each clause of O44: vector 1 of function 0 is sent; vector 5 is masked, and its
message is held until MSIX_UNMASK; function 1 has MSI-X off. -/
theorem interruptMessages_witness :
    vectorOneOpenState.raise 0 1 = { vectorOneOpenState with out := [.msix 0 1] } ∧
    (vectorOneOpenState.raise 0 5).out = [] ∧
    (∃ t, exec (.msixUnmask 0 5) (vectorOneOpenState.raise 0 5) = .next t ∧ t.out = [.msix 0 5]) ∧
    vectorOneOpenState.raise 1 5 = vectorOneOpenState := by
  obtain ⟨hsent, -⟩ := interruptMessages vectorOneOpenState 0 1 (by decide)
  obtain ⟨-, hheld, -⟩ := interruptMessages vectorOneOpenState 0 5 (by decide)
  obtain ⟨-, -, hdropped, -⟩ := interruptMessages vectorOneOpenState 1 5 (by decide)
  obtain ⟨-, -, -, hunmasked⟩ := interruptMessages (vectorOneOpenState.raise 0 5) 0 5 (by decide)
  obtain ⟨hout, hpend⟩ := hheld rfl (.inr (by decide))
  obtain ⟨t, hexec, htout, -⟩ := hunmasked rfl rfl rfl hpend
  rw [hout] at htout
  exact ⟨hsent rfl rfl (by decide), hout, ⟨t, hexec, htout⟩, hdropped rfl⟩

end

section
/-! PROOFS. Management-only safe mode (16_dictionary.md R583): what is served, how every other object answers, and
RESET_REQ (R588). -/

namespace Sys2Proof.Machine

section
variable {s t : State} {r : Requester} {op tag i sub n x : Nat} {o : Obj}

/-! ### What safe mode serves -/

theorem mgmtUp_of_safe (hsafe : s.bnd.power = .safe) : s.mgmtUp = true := by
  simp [State.mgmtUp, hsafe]

theorem takes_mailbox_of_safe (hsafe : s.bnd.power = .safe) : s.Takes .mailbox op tag i sub s :=
  ⟨.inr hsafe, rfl⟩

/-- A range of the dictionary is the indices that share their upper digits. -/
theorem served_iff_of_safe (hsafe : s.bnd.power = .safe) (i : Nat) : s.served i = true ↔
    (0x1000 ≤ i ∧ i < 0x2000) ∨ i = 0x2020 ∨ (0x4000 ≤ i ∧ i < 0x6000) ∨ (0x9000 ≤ i ∧ i < 0xA000) := by
  have hdown : s.up = false := by simp [State.up, hsafe]
  have hranges : s.served i = true ↔
      i / 0x1000 = 1 ∨ i = 0x2020 ∨ i / 0x1000 = 4 ∨ i / 0x1000 = 5 ∨ i / 0x1000 = 9 := by
    simp [State.served, hdown, or_assoc]
  rw [hranges]
  omega

theorem served_resetReq (s : State) : s.served 0x2020 = true := by simp [State.served]

/-! ### An object that is not served -/

/-- UNAVAILABLE comes before every other refusal of an object that exists. -/
theorem accessFail_unserved (hobj : objInfo i sub = some o) (hdown : s.served i = false) (w : Bool) :
    s.accessFail r i sub w = some 9 := by
  simp [State.accessFail, hobj, hdown]

theorem doGet_refused {st : Nat} (hfail : t.accessFail r i sub false = some st) (hst : st ≠ 2) :
    t.doGet r tag i sub = t.reply r 1 tag i sub st false [] := by
  simp [State.doGet, hfail, hst]

/-- A GET that is taken and refused, other than of a WO object, answers the status and no value. -/
theorem exec_get_refused {st : Nat} (htake : s.Takes r 1 tag i sub t) (hfail : t.accessFail r i sub false = some st)
    (hst : st ≠ 2) : exec (.get r tag i sub) s = .next (t.reply r 1 tag i sub st false []) := by
  rw [← doGet_refused hfail hst, ← request_takes htake (fun u => u.doGet r tag i sub)]
  rfl

/-! ### RESET_REQ -/

/-- RESET_REQ (Table 16-8): 1 warm, 2 cold, 3 power cycle. -/
def resetReqObj : Obj := oWO (.enum [1, 2, 3]) 2 false 0 0

theorem objInfo_resetReq : objInfo 0x2020 1 = some resetReqObj := rfl

/-- The request that a value of RESET_REQ makes. -/
def State.resetAs (s : State) (x : Nat) : State :=
  if x = 1 then s.triggerWarm else if x = 2 then s.triggerCold else s.requestPowerCycle 0

theorem roleOf_session {x : SessSt} (hsess : tget s.mgmt.sessions n = some x) : s.roleOf (.session n) = x.role := by
  simp [State.roleOf, hsess]

/-- Taking a message keeps the session's role. -/
theorem roleOf_of_takes (htake : s.Takes (.session n) op tag i sub t) : t.roleOf (.session n) = s.roleOf (.session n) := by
  obtain ⟨x, hsess, -, -, -, rfl, -⟩ := htake
  simp [State.roleOf, hsess]

/-- No power state closes RESET_REQ to an operator's session. -/
theorem accessFail_resetReq (hrole : 2 ≤ t.roleOf (.session n)) : t.accessFail (.session n) 0x2020 1 true = none := by
  simpa [State.accessFail, objInfo_resetReq, resetReqObj, oWO, served_resetReq, State.diagOff, Requester.isMbx]
    using Nat.lt_of_succ_le hrole

theorem valueFail_resetReq (hx : x = 1 ∨ x = 2 ∨ x = 3) (t : State) :
    t.valueFail resetReqObj 0x2020 1 [BitVec.ofNat 8 x] = none := by
  obtain rfl | rfl | rfl := hx <;> rfl

theorem writes_resetReq (htake : s.Takes (.session n) 2 tag 0x2020 1 t) (hrole : 2 ≤ t.roleOf (.session n))
    (hx : x = 1 ∨ x = 2 ∨ x = 3) : s.Writes (.session n) tag 0x2020 1 [BitVec.ofNat 8 x] resetReqObj t :=
  ⟨htake, accessFail_resetReq hrole, objInfo_resetReq, valueFail_resetReq hx t, fun h => OAcc.noConfusion h.1⟩

theorem setValue_resetReq (t : State) (r : Requester) (tag : Nat) (o : Obj) (v : List Byte) :
    t.setValue r 2 tag 0x2020 1 o v = t.resetReq (t.roleOf r == 3) (leNat v) := by
  simp [State.setValue, modeUnits_none t 0x2020 1 (by decide)]

/-- An owner's value of RESET_REQ is answered, then acts. -/
theorem setValue_resetReq_owner (howner : t.roleOf r = 3) (hx : x = 1 ∨ x = 2 ∨ x = 3) (tag : Nat) (o : Obj) :
    t.setValue r 2 tag 0x2020 1 o [BitVec.ofNat 8 x] = .done t (·.resetAs x) := by
  have hvalue : leNat [BitVec.ofNat 8 x] = x := by obtain rfl | rfl | rfl := hx <;> rfl
  rw [setValue_resetReq, hvalue, howner]
  exact if_neg (by simp)

/-- In every power state that serves sessions, an owner's RESET_REQ is answered OK, then acts. -/
theorem exec_set_resetReq (htake : s.Takes (.session n) 2 tag 0x2020 1 t) (howner : t.roleOf (.session n) = 3)
    (hx : x = 1 ∨ x = 2 ∨ x = 3) : exec (.set (.session n) tag 0x2020 1 [BitVec.ofNat 8 x]) s =
      .next ((t.reply (.session n) 2 tag 0x2020 1 0 false []).resetAs x).settle := by
  have hset := setRequest_writes (writes_resetReq htake (by omega) hx)
  rw [setValue_resetReq_owner howner hx] at hset
  exact congrArg Host.Outcome.next hset

end

/-! ### Safe mode with the owner's session open -/

/-- An open session of the owner, with nothing answered in it yet. -/
def ownerSession : SessSt :=
  { opened := true, entry := 0, role := 3, slot := 0, digest := 0, z := 0, since := 0, lastIn := 0, lastOut := 0,
    mask := 0, replies := [], blob := none }

/-- The block in safe mode, with the owner's session 0 open. -/
def safeOwnerState : State :=
  { State.reset.setPower .safe with mgmt := { MgmtSt.zero with sessions := [(0, ownerSession)] } }

theorem safeOwnerState_takes (op tag i sub : Nat) : safeOwnerState.Takes (.session 0) op tag i sub safeOwnerState :=
  ⟨ownerSession, rfl, rfl, rfl, rfl, rfl, rfl, rfl⟩

end Sys2Proof.Machine

open Sys2Proof Sys2Proof.Machine

/-- Settles O53: the served indices are `served_iff_of_safe`, and the refusal of every other object comes first
(`accessFail_unserved`); RESET_REQ is among the served objects, and an owner's write of it acts (`exec_set_resetReq`). -/
theorem safeModeObjects : Obligations.SafeModeObjects := by
  unfold Obligations.SafeModeObjects
  refine fun s hsafe => ⟨mgmtUp_of_safe hsafe, served_iff_of_safe hsafe, ?access, ?get, served_resetReq s, ?reset⟩
  case access => exact fun r i sub w o hobj hdown => accessFail_unserved hobj hdown w
  case get =>
    exact fun tag i sub o hobj hdown =>
      exec_get_refused (takes_mailbox_of_safe hsafe) (accessFail_unserved hobj hdown false) (by decide)
  case reset =>
    intro tag x hx n sess t hsess hrole htake
    have howner : t.roleOf (.session n) = 3 := by rw [roleOf_of_takes htake, roleOf_session hsess, hrole]
    exact ⟨_, exec_set_resetReq htake howner hx, rfl⟩

/-- A state that meets the hypotheses of each clause of O53: in safe mode NEXT_PROFILE answers UNAVAILABLE in the
mailbox, and the owner's RESET_REQ 2 is answered and asks for a cold start. -/
theorem safeModeObjects_witness :
    exec (.get .mailbox 7 0x2000 2) safeOwnerState =
      .next (safeOwnerState.reply .mailbox 1 7 0x2000 2 9 false []) ∧
    exec (.set (.session 0) 8 0x2020 1 [2]) safeOwnerState =
      .next (safeOwnerState.reply (.session 0) 2 8 0x2020 1 0 false []).triggerCold.settle := by
  obtain ⟨-, -, -, hget, -, hreset⟩ := safeModeObjects safeOwnerState rfl
  obtain ⟨u, hset, rfl⟩ := hreset 8 2 (by decide) 0 ownerSession safeOwnerState rfl rfl (safeOwnerState_takes 2 8 0x2020 1)
  exact ⟨hget 7 0x2000 2 _ rfl rfl, hset⟩

end

section
/-! PROOFS. The scalar register instructions of a sort and of a compositor pair (03_sort.md R90, R100 to R103;
04_galleys.md R149): one write of a scalar register, and nothing else. -/

namespace Sys2Proof.Machine

/-! ### A legal write of a scalar register on a compositor pair -/

section
variable {s : State} {g : Nat} {k : CompSt}

/-- A running compositor pair takes a legal write of a scalar register and goes on. -/
theorem scalarWrite_comp_next (hrun : s.CompRuns g k) (chk : Bool) (rd : Reg) (val : (Reg → W64) → W64) :
    s.scalarWrite ⟨g, none⟩ chk false rd val = s.compAfter g (k.ss rd (val k.gs)) :=
  runComp_next (f := fun _ k => .next (k.ss rd (val k.gs))) hrun rfl (comp_ss_pc k rd _)

end

/-! ### What such a write leaves unchanged -/

section
variable (t : SortSt) (rd : Reg) (x : W64)

/-- A write of a scalar register changes the scalar registers only. -/
theorem ss_eq : t.ss rd x = { t with s := (t.ss rd x).s } := by
  unfold SortSt.ss
  split <;> rfl

variable (s : State) (g sl : Nat)

/-- The state after an instruction differs in the galleys only. -/
theorem after_eq : s.after g sl t = { s with galleys := (s.after g sl t).galleys } := rfl

theorem galley_after_ne {h : Nat} (e : h ≠ g) : (s.after g sl t).galley h = s.galley h := galley_setGalley_ne s g h _ e

variable {g}

theorem galley_after (hg : g < 64) : (s.after g sl t).galley g =
    { s.galley g with slivers := tput (s.galley g).slivers sl { t with pc := t.pc + 4, status := .running } } :=
  galley_setGalley s g _ hg

/-- No other sliver of the galley changes. -/
theorem sliver_after_ne {j : Nat} (hg : g < 64) (hj : j ≠ sl) :
    ((s.after g sl t).galley g).sliver j = (s.galley g).sliver j := by
  rw [galley_after t s sl hg]
  exact tget_tput_ne _ _ hj

end

/-- The frame of an instruction of a sort that ends with one write of a scalar register. -/
theorem scalarWrite_frame {s : State} {g sl : Nat} {t : SortSt} (hrun : s.Runs g sl t) (rd : Reg) (x : W64) :
    ∃ s' t', (.next (s.after g sl (t.ss rd x)) : Res) = .next s' ∧ (s'.galley g).sliver sl = some t' ∧
      (∀ r, r ≠ rd → t'.gs r = t.gs r) ∧ t'.v = t.v ∧ t'.a = t.a ∧ t'.xa = t.xa ∧ t'.xb = t.xb ∧ t'.ssr = t.ssr ∧
      t'.dcase = t.dcase ∧ t'.icase = t.icase ∧ t'.tags = t.tags ∧ t'.tickets = t.tickets ∧ t'.inbox = t.inbox ∧ t'.book = t.book ∧
      (∀ j, j ≠ sl → (s'.galley g).sliver j = (s.galley g).sliver j) ∧ (∀ h, h ≠ g → s'.galley h = s.galley h) ∧
      (s'.galley g).store = (s.galley g).store ∧ (s'.galley g).comp = (s.galley g).comp ∧
      s' = { s with galleys := s'.galleys } := by
  have hg : g < 64 := galley_lt hrun.1
  have hss := ss_eq t rd x
  refine ⟨_, _, rfl, sliver_after _ hg, fun r hr => gs_ss_ne t x hr, ?_⟩
  rw [galley_after _ s sl hg, hss]
  refine ⟨rfl, rfl, rfl, rfl, rfl, rfl, rfl, rfl, rfl, rfl, rfl, fun j hj => tget_tput_ne _ _ hj,
    fun h e => galley_after_ne _ s g sl e, rfl, rfl, after_eq ..⟩

/-- The compositor pair of galley 0 at PC 0. -/
def runningComp : CompSt := { CompSt.zero with status := .running }

theorem runningComp_runs :
    (State.reset.modGalley 0 (fun y => { y with comp := runningComp })).CompRuns 0 runningComp :=
  ⟨by decide, congrArg GalleySt.comp (galley_setGalley _ 0 _ (by decide)), rfl, by decide⟩

end Sys2Proof.Machine

open Sys2Proof Sys2Proof.Machine

/-- Settles O4: each of the instructions is one legal write of a scalar register, on either core. -/
theorem scalarInstructions : Obligations.ScalarInstructions := by
  refine ⟨fun s g sl t hrun => ?sort, fun s g k hrun => ?comp⟩
  case sort =>
    have hw (chk : Bool) (rd : Reg) (val : (Reg → W64) → W64) :
        (.next (s.scalarWrite ⟨g, some sl⟩ chk false rd val) : Res) = .next (s.after g sl (t.ss rd (val t.gs))) :=
      congrArg Host.Outcome.next (scalarWrite_next hrun chk rd val)
    refine ⟨fun op rd rs rt => hw _ rd fun x => aluOp op (x rs) (x rt), fun op rd rs rt => hw _ rd fun x => mulOp op (x rs) (x rt),
      fun op rd rs rt => hw _ rd fun x => divOp op (x rs) (x rt), fun op rd rs rt => hw _ rd fun x => cmpOp op (x rs) (x rt),
      fun op rd rs => hw _ rd fun x => countOp op (x rs), fun op rd rs imm himm => ?_, fun rd imm => hw _ rd fun _ => luiVal imm⟩
    show execAluImm ⟨g, some sl⟩ op rd rs imm s = _
    rw [execAluImm, himm]
    exact hw _ rd fun x => immOp op (x rs) imm
  case comp =>
    have hw (chk : Bool) (rd : Reg) (val : (Reg → W64) → W64) :
        (.next (s.scalarWrite ⟨g, none⟩ chk false rd val) : Res) = .next (s.compAfter g (k.ss rd (val k.gs))) :=
      congrArg Host.Outcome.next (scalarWrite_comp_next hrun chk rd val)
    refine ⟨fun op rd rs rt => hw (aluChecked op) rd fun x => aluOp op (x rs) (x rt),
      fun op rd rs rt => hw true rd fun x => mulOp op (x rs) (x rt),
      fun op rd rs rt => hw true rd fun x => divOp op (x rs) (x rt), fun op rd rs rt => hw false rd fun x => cmpOp op (x rs) (x rt),
      fun op rd rs => hw false rd fun x => countOp op (x rs), fun op rd rs imm himm => ?_, fun rd imm => hw false rd fun _ => luiVal imm⟩
    show execAluImm ⟨g, none⟩ op rd rs imm s = _
    rw [execAluImm, himm]
    exact hw (op == .addi) rd fun x => immOp op (x rs) imm

/-- A run that meets O4's first hypothesis: the sort adds s1, which holds 1, to itself. -/
theorem scalarInstructions_witness : exec (.alu ⟨0, some 0⟩ .add 2 1 1) (State.reset.setSliver 0 0 oneInS1Sort) =
    .next ((State.reset.setSliver 0 0 oneInS1Sort).after 0 0 (oneInS1Sort.ss 2 2)) :=
  (scalarInstructions.1 _ 0 0 oneInS1Sort oneInS1Sort_runs).1 .add 2 1 1

/-- A run that meets O4's second hypothesis: the compositor loads the upper immediate 1. -/
theorem scalarInstructions_comp_witness :
    exec (.lui ⟨0, none⟩ 1 1) (State.reset.modGalley 0 (fun y => { y with comp := runningComp })) =
      .next ((State.reset.modGalley 0 (fun y => { y with comp := runningComp })).compAfter 0
        (runningComp.ss 1 (luiVal 1))) :=
  (scalarInstructions.2 _ 0 runningComp runningComp_runs).2.2.2.2.2.2 1 1

/-- Settles O6: O4's ALU clause with s0 as destination, where the write is `ss_zero`. -/
theorem registerZeroDiscardsWrites : Obligations.RegisterZeroDiscardsWrites :=
  ⟨fun _ _ => ⟨rfl, rfl⟩, fun s g sl t op rs rt hrun => (scalarInstructions.1 s g sl t hrun).1 op 0 rs rt,
    fun s g k op rs rt hrun => (scalarInstructions.2 s g k hrun).1 op 0 rs rt⟩

/-- A run that meets O6's hypothesis: an ADD to s0 leaves the sort's registers as they were. -/
theorem registerZeroDiscardsWrites_witness : exec (.alu ⟨0, some 0⟩ .add 0 1 1) (State.reset.setSliver 0 0 oneInS1Sort) =
    .next ((State.reset.setSliver 0 0 oneInS1Sort).after 0 0 oneInS1Sort) :=
  registerZeroDiscardsWrites.2.1 _ 0 0 oneInS1Sort .add 1 1 oneInS1Sort_runs

/-- Settles O7: every instruction of the list completes with one write of a scalar register (O4), whose frame is
`scalarWrite_frame`. -/
theorem scalarInstructionFrame : Obligations.ScalarInstructionFrame := by
  intro s g sl t hrun c rd hc
  obtain ⟨halu, hmul, hdiv, hcmp, hcount, -, hlui⟩ := scalarInstructions.1 s g sl t hrun
  obtain ⟨op, rs, rt, rfl⟩ | ⟨op, rs, rt, rfl⟩ | ⟨op, rs, rt, rfl⟩ | ⟨op, rs, rt, rfl⟩ | ⟨op, rs, rfl⟩ | ⟨imm, rfl⟩ := hc
  · rw [halu]; exact scalarWrite_frame hrun rd _
  · rw [hmul]; exact scalarWrite_frame hrun rd _
  · rw [hdiv]; exact scalarWrite_frame hrun rd _
  · rw [hcmp]; exact scalarWrite_frame hrun rd _
  · rw [hcount]; exact scalarWrite_frame hrun rd _
  · rw [hlui]; exact scalarWrite_frame hrun rd _

/-- A run that meets O7's hypotheses: after a POPC into s2, s1 and the case are as before. -/
theorem scalarInstructionFrame_witness : ∃ s' t',
    exec (.count ⟨0, some 0⟩ .popc 2 1 0) (State.reset.setSliver 0 0 oneInS1Sort) = .next s' ∧
    (s'.galley 0).sliver 0 = some t' ∧ t'.gs 1 = 1 ∧ t'.dcase = [] := by
  obtain ⟨s', t', hexec, hsliver, hregs, -, -, -, -, -, hcase, -⟩ :=
    scalarInstructionFrame _ 0 0 oneInS1Sort oneInS1Sort_runs (.count ⟨0, some 0⟩ .popc 2 1 0) 2
      (.inr (.inr (.inr (.inr (.inl ⟨_, _, rfl⟩)))))
  exact ⟨s', t', hexec, hsliver, hregs 1 (by decide), hcase⟩

end

section
/-! PROOFS. The step itself, the state after reset, and the refill of token buckets (06_platens.md R216, 17_boundary.md
R586). -/

namespace Sys2Proof.Machine

/-! ### What a tick leaves unchanged -/

/-- Nothing is queued, no byte changes and no time passes from s to t. -/
structure State.StandsStill (s t : State) : Prop where
  pending : t.pending = s.pending
  mem : t.mem = s.mem
  hostMem : t.hostMem = s.hostMem
  now : t.now = s.now

theorem State.StandsStill.refl (s : State) : s.StandsStill s := ⟨rfl, rfl, rfl, rfl⟩

theorem State.StandsStill.trans {a b c : State} (h : a.StandsStill b) (k : b.StandsStill c) : a.StandsStill c :=
  ⟨k.pending.trans h.pending, k.mem.trans h.mem, k.hostMem.trans h.hostMem, k.now.trans h.now⟩

theorem foldl_standsStill {α : Type} {f : State → α → State} (hf : ∀ (s : State) x, s.StandsStill (f s x)) (l : List α) (s : State) :
    s.StandsStill (l.foldl f s) := by
  induction l generalizing s with
  | nil => exact .refl s
  | cons x l ih => exact (hf s x).trans (ih _)

theorem account_standsStill (s : State) (ctx : Option Nat) (inst : Nat) (a : Account) :
    s.StandsStill (s.account ctx inst a) := by
  unfold State.account
  cases ctx <;> exact ⟨rfl, rfl, rfl, rfl⟩

theorem tickGalley_standsStill (s : State) (g : Nat) : s.StandsStill (s.tickGalley g) := by
  unfold State.tickGalley
  split
  · exact .refl s
  split
  · exact .refl s
  next k _ _ p _ =>
    have hstep : s.StandsStill (s.modStep k fun p => { p with ticks := p.ticks + 1 }) := ⟨rfl, rfl, rfl, rfl⟩
    have hacc := hstep.trans (account_standsStill _ (some p.ctx) p.inst { Account.zero with ticks := 1, pj := energyOf 0 1 })
    dsimp only
    split
    · exact hacc.trans ⟨rfl, rfl, rfl, rfl⟩
    · exact hacc

/-- The counters that run while the block is up. -/
theorem tickUnits_standsStill (s : State) :
    s.StandsStill (((List.range 64).foldl State.tickGalley s.tickSorts).tickQueues) := by
  have hsorts : s.StandsStill s.tickSorts := by unfold State.tickSorts; exact ⟨rfl, rfl, rfl, rfl⟩
  have hqueues (t : State) : t.StandsStill t.tickQueues := ⟨rfl, rfl, rfl, rfl⟩
  refine (hsorts.trans (foldl_standsStill (f := State.tickGalley) tickGalley_standsStill (List.range 64) s.tickSorts)).trans ?_
  exact hqueues _

theorem tickEnergy_standsStill (s : State) : s.StandsStill s.tickEnergy := by
  unfold State.tickEnergy
  split <;> exact ⟨rfl, rfl, rfl, rfl⟩

/-- While time runs, a tick is one tick of device time, and the rest of it stands still. -/
theorem tick_of_timeRuns {s : State} (h : s.timeRuns = true) : { s with now := s.now + 1 }.StandsStill s.tick := by
  rw [State.tick, if_pos h]
  refine .trans ?_ (tickEnergy_standsStill _)
  split
  · exact tickUnits_standsStill _
  · exact .refl _

theorem tick_of_not_timeRuns {s : State} (h : s.timeRuns = false) : s.tick = s := by simp [State.tick, h]

theorem step_idle {s : State} (h : s.pending = []) : step s = .next s.tick := by rw [step, h]

/-! ### Token buckets -/

theorem refill_of_limited {b : Bucket} (hrate : b.newRate = none) (hlim : b.limited = true) (now : Nat) :
    b.refill now = { b with count := min (b.count + (b.rate : Int)) (b.depth : Int) } := by
  unfold Bucket.refill
  simp only [hrate, hlim, if_true]

/-- What a limited table-token quota is checked for (R216). -/
theorem quotaFail_tokens {mask rate : Nat} (depth : Nat) (hmask : mask ≠ 0) (hrate : rate ≠ 0xFFFFFFFF) :
    quotaFail 0 mask rate depth = none ↔ rate ≤ 800000 ∧ rate ≤ depth ∧ depth ≤ 8 * rate := by
  simp only [quotaFail, within]
  simp [hmask, hrate]
  split
  · simp; omega
  · have hle : rate ≤ 800000 := by omega
    simp [hle]

/-- A bucket that owes 5 tokens and gains 2. -/
def owingBucket : Bucket := { rate := 2, depth := 16, limited := true, count := -5, newRate := none }

end Sys2Proof.Machine

open Sys2Proof Sys2Proof.Machine

/-- Settles O1: `step` is the case split on the queue. -/
theorem stepRunsTheFrontCommand : Obligations.StepRunsTheFrontCommand := fun _ _ _ => rfl

/-- Settles O2: a tick is one tick of device time while time runs (`tick_of_timeRuns`), and nothing otherwise. -/
theorem idleStepSpendsOneTick : Obligations.IdleStepSpendsOneTick := by
  intro s hidle
  refine ⟨s.tick, step_idle hidle, ?_⟩
  cases hrun : s.timeRuns with
  | true =>
    have h := tick_of_timeRuns hrun
    exact ⟨h.pending.trans hidle, h.mem, h.hostMem, fun _ => h.now, fun e => absurd e (by decide)⟩
  | false =>
    rw [tick_of_not_timeRuns hrun]
    exact ⟨hidle, rfl, rfl, fun e => absurd e (by decide), fun _ => rfl⟩

/-- A run that meets O2's hypotheses: with REFCLK running in safe mode one step ends at tick 1. -/
theorem idleStepSpendsOneTick_witness : ∃ t,
    step ({ State.reset.setPower .safe with bnd := { (State.reset.setPower .safe).bnd with refclk := true } }) = .next t ∧
      t.now = 1 := by
  obtain ⟨t, hstep, -, -, -, hnow, -⟩ := idleStepSpendsOneTick
    { State.reset.setPower .safe with bnd := { (State.reset.setPower .safe).bnd with refclk := true } } rfl
  exact ⟨t, hstep, hnow rfl⟩

/-- Settles O23: the checks of a quota, the 100 µs boundary, the gain of one bucket, and a bucket that stays negative. -/
theorem bucketRefill : Obligations.BucketRefill := by
  refine ⟨fun mask rate depth => quotaFail_tokens depth, fun s hnow hperiod hlast => if_pos ?_,
    fun b now hrate hlim => refill_of_limited hrate hlim now, owingBucket, rfl, by decide, by decide⟩
  simpa [State.due, Periodic.period] using ⟨⟨hnow, hperiod⟩, hlast⟩

/-- A run that meets the hypotheses of O23's refill: tick 10,000 is a boundary. -/
theorem bucketRefill_witness : exec .tokenRefill { State.reset with now := 10000 } =
    .next (({ State.reset with now := 10000 }.mapPlatens (fun p =>
      { p with buckets := tmap p.buckets (fun _ b => b.refill 10000) })).ran .tokens) :=
  bucketRefill.2.1 { State.reset with now := 10000 } (by decide) (by decide) (by decide)

/-- Settles O58: every field is that of `State.reset`, whose formes are all in reset. -/
theorem resetState : Obligations.ResetState := by
  refine ⟨⟨rfl, rfl, rfl, rfl, rfl, rfl, rfl, rfl, rfl, rfl, rfl, fun g hg => ?_⟩, by decide, fun _ => rfl,
    fun h => absurd h (by decide), fun _ => rfl, rfl, rfl⟩
  have hforme : (State.reset.forme (formeOf g)).status ≠ .inService := by
    have hf : formeOf g < 8 := by unfold formeOf; omega
    have hreset : State.reset.forme (formeOf g) = ⟨.resetting, 16, false⟩ := by
      simp [State.forme, vget, State.reset, hf]
    rw [hreset]
    decide
  simp [State.galleyUp, hforme]

end

section
/-! PROOFS. Every function of the machine keeps the queue of waiting commands and a legal state: one lemma for each, in the order
of the model. A lemma extends a chain of operations that began at s0 (Laws.Keeps) by one more. -/

namespace Sys2Proof.Laws
open Sys2Proof Sys2Proof.Machine
variable {s0 s : State}

/-- What a record's result keeps. -/
def KeepsA (s0 : State) : Applied → Prop
  | .done t _ _ => Keeps s0 t
  | .queued t => Keeps s0 t
  | _ => True

/-- What the effect of an object's write keeps. -/
def KeepsW (s0 : State) : Wr → Prop
  | .done t f => Keeps s0 t ∧ ∀ u, Keeps s0 u → Keeps s0 (f u)
  | .wait t => Keeps s0 t
  | .fail _ => True

theorem keeps_fields {now_ : Nat} {fresh_ : Nat} {lastRun_ : Tab Nat} {galleys_ : Vector GalleySt 64} {formes_ : Vector FormeSt 8} {platens_ : Vector PlatenSt 8} {hbm_ : Vector StackSt 8} {fabric_ : Tab (List LkMsg)} {answers_ : List (Nat × LkEntry)} {gathers_ : Tab GatherSt} {tables_ : Tab TableDesc} {generations_ : Tab Nat} {mem_ : Mem} {hostMem_ : Mem} {poison_ : List Nat} {lostMem_ : Tab (List (Nat × Nat))} {corrected_ : Nat} {ctxs_ : Tab CtxSt} {queues_ : Tab QueueSt} {fences_ : Tab FenceSt} {seals_ : Tab SealSt} {sealCount_ : Nat} {steps_ : Tab StepRec} {nextStep_ : Nat} {useCount_ : Nat} {resident_ : Tab Nat} {switches_ : Tab (List (Nat × Nat))} {switching_ : Tab (Nat × Nat × List Nat)} {upd_ : UpdSt} {serve_ : ServeSt} {host_ : HostSt} {net_ : NetSt} {fm_ : FmSt} {bnd_ : BndSt} {sec_ : SecSt} {mgmt_ : MgmtSt} {tele_ : Tab Nat} {out_ : List Out} (h : Keeps s0 s)
    (hm : memWf s.mem = true → memWf mem_ = true) (hh : memWf s.hostMem = true → memWf hostMem_ = true) : 
    Keeps s0 
      (State.mk now_ fresh_ lastRun_ s.profile s.domains galleys_ formes_ platens_ hbm_ fabric_ answers_ gathers_ tables_ generations_ mem_ poison_ lostMem_ hostMem_ corrected_ ctxs_ queues_ fences_ seals_ sealCount_ steps_ nextStep_ useCount_ resident_ switches_ switching_ upd_ serve_ host_ net_ fm_ bnd_ sec_ mgmt_ tele_ out_ s.pending) := h.updMem rfl rfl rfl hm hh

/-- A branch. -/
theorem Keeps.ite {p : Prop} [Decidable p] {a b : State} (ha : p → Keeps s0 a) (hb : ¬p → Keeps s0 b) :
    Keeps s0 (if p then a else b) := by
  split
  · exact ha ‹_›
  · exact hb ‹_›

theorem KeepsR.ite {p : Prop} [Decidable p] {a b : Res} (ha : p → KeepsR s0 a) (hb : ¬p → KeepsR s0 b) :
    KeepsR s0 (if p then a else b) := by
  split
  · exact ha ‹_›
  · exact hb ‹_›

/-- Device memory is written in the canonical form. -/
theorem keeps_mem {m : Mem} (h : Keeps s0 s) (hm : memWf s.mem = true → memWf m = true) : Keeps s0 { s with mem := m } :=
  h.updMem rfl rfl rfl hm id

theorem memWf_foldl {α : Type} {f : Mem → α → Mem} (hf : ∀ m x, memWf m = true → memWf (f m x) = true) {m : Mem} (l : List α)
    (h : memWf m = true) : memWf (l.foldl f m) = true := by
  induction l generalizing m with
  | nil => exact h
  | cons x l ih => exact ih (hf m x h)

theorem memWf_mstore {m : Mem} (a n v : Nat) (h : memWf m = true) : memWf (mstore m a n v) = true := memWf_mwrite a _ h

theorem memWf_mcopy {m t : Mem} (a b n : Nat) (h : memWf t = true) : memWf (mcopy m a t b n) = true :=
  memWf_foldl (fun _ _ => memWf_mput _ _) _ (memWf_mclear b n h)


/-- The state of a pair, by the pair's value. -/
theorem keeps_snd {α : Type} {p : α × State} (h : ∀ a t, p = (a, t) → Keeps s0 t) : Keeps s0 p.2 := h _ _ rfl

theorem keeps_fst {α : Type} {p : State × α} (h : ∀ a t, p = (t, a) → Keeps s0 t) : Keeps s0 p.1 := h _ _ rfl

theorem keeps_ran {a1} (h : Keeps s0 s) : Keeps s0 (State.ran s a1) := keeps_fields h id id

theorem keeps_setGalley {a1} {a2} (h : Keeps s0 s) : Keeps s0 (State.setGalley s a1 a2) := keeps_fields h id id

theorem keeps_modGalley {a1} {a2} (h : Keeps s0 s) : Keeps s0 (State.modGalley s a1 a2) := keeps_setGalley h

theorem keeps_setPlaten {a1} {a2} (h : Keeps s0 s) : Keeps s0 (State.setPlaten s a1 a2) := keeps_fields h id id

theorem keeps_modPlaten {a1} {a2} (h : Keeps s0 s) : Keeps s0 (State.modPlaten s a1 a2) := keeps_setPlaten h

theorem keeps_mapPlatens {a1} (h : Keeps s0 s) : Keeps s0 (State.mapPlatens s a1) := keeps_fields h id id

theorem keeps_setForme {a1} {a2} (h : Keeps s0 s) : Keeps s0 (State.setForme s a1 a2) := keeps_fields h id id

theorem keeps_count {a1} {a2} {a3} (h : Keeps s0 s) : Keeps s0 (State.count s a1 a2 a3) := keeps_fields h id id

theorem keeps_heal {a1} {a2} (h : Keeps s0 s) : Keeps s0 (State.heal s a1 a2) := by
  grind [State.heal, keeps_fields]

theorem keeps_modStack {a1} {a2} (h : Keeps s0 s) : Keeps s0 (State.modStack s a1 a2) := keeps_fields h id id

theorem keeps_setInst {a1} {a2} (h : Keeps s0 s) : Keeps s0 (State.setInst s a1 a2) := keeps_fields h id id

theorem keeps_modInst {a1} {a2} (h : Keeps s0 s) : Keeps s0 (State.modInst s a1 a2) := keeps_setInst h

theorem keeps_modFn {a1} {a2} (h : Keeps s0 s) : Keeps s0 (State.modFn s a1 a2) := keeps_modInst h

theorem keeps_modCtx {a1} {a2} (h : Keeps s0 s) : Keeps s0 (State.modCtx s a1 a2) := keeps_fields h id id

theorem keeps_account {a1} {a2} {a3} (h : Keeps s0 s) : Keeps s0 (State.account s a1 a2 a3) := by
  unfold State.account
  split <;> grind [keeps_modCtx, keeps_modInst]

theorem keeps_cmdBytes {a1} {a2} {a3} (h : Keeps s0 s) : Keeps s0 (State.cmdBytes s a1 a2 a3) := keeps_fields h id id

theorem keeps_stepCharge {a1} {a2} (h : Keeps s0 s) : Keeps s0 (State.stepCharge s a1 a2) := by
  grind [State.stepCharge, keeps_cmdBytes, keeps_account]

theorem keeps_tagCmd {a1} {a2} (h : Keeps s0 s) : Keeps s0 (State.tagCmd s a1 a2) := by
  grind [State.tagCmd, keeps_cmdBytes]

theorem keeps_chargeTo {a1} {a2} {a3} {a4} (h : Keeps s0 s) : Keeps s0 (State.chargeTo s a1 a2 a3 a4) := by
  grind [State.chargeTo, keeps_modStack, keeps_count, keeps_account, keeps_modPlaten]

theorem keeps_charge {a1} {a2} {a3} (h : Keeps s0 s) : Keeps s0 (State.charge s a1 a2 a3) := keeps_chargeTo h

theorem keeps_memLog {a1} {a2} {a3} (h : Keeps s0 s) : Keeps s0 (State.memLog s a1 a2 a3) := keeps_modStack h

theorem keeps_memNews {a1} {a2} (h : Keeps s0 s) : Keeps s0 (State.memNews s a1 a2) := keeps_modStack (keeps_memLog h)

theorem keeps_decodeGroup {a1} (h : Keeps s0 s) : Keeps s0 (State.decodeGroup s a1) := by
  grind [State.decodeGroup, keeps_modStack, keeps_memNews, keeps_fields, memWf_mwrite]

theorem keeps_decodeRange {a1} {a2} (h : Keeps s0 s) : Keeps s0 (State.decodeRange s a1 a2) := by
  grind [State.decodeRange, keeps_decodeGroup, Keeps.foldl]

theorem keeps_noteDirty {a1} {a2} (h : Keeps s0 s) : Keeps s0 (State.noteDirty s a1 a2) := by
  grind [State.noteDirty, keeps_fields]

theorem keeps_devWrite {a1} {a2} {a3} (h : Keeps s0 s) : Keeps s0 (State.devWrite s a1 a2 a3) := by
  unfold State.devWrite
  extract_lets n f whole ends s1 bad s2 mem s3 s4 s5
  refine Keeps.ite (fun _ => h) fun _ => ?_
  have h1 : Keeps s0 s1 := Keeps.foldl h fun _ _ => keeps_decodeGroup
  have h2 : Keeps s0 s2 := keeps_modStack h1
  have hm : memWf s2.mem = true → memWf mem = true := by
    intro h
    unfold mem
    split
    · exact memWf_mwrite _ _ h
    · exact memWf_foldl (fun _ _ => memWf_mput _ _) _ h
  have h3 : Keeps s0 s3 := keeps_heal (keeps_mem h2 hm)
  have h4 : Keeps s0 s4 := keeps_noteDirty (Keeps.foldl h3 fun _ _ => keeps_memNews)
  have h5 : Keeps s0 s5 := keeps_modStack h4
  split
  · exact h5
  · exact keeps_modPlaten h5

theorem keeps_readSheet {a1} {a2} {a3} (h : Keeps s0 s) : Keeps s0 (State.readSheet s a1 a2 a3).2 := by
  grind [State.readSheet, keeps_decodeRange, keeps_charge, keeps_devWrite]

theorem keeps_noteRecent {a1} {a2} (h : Keeps s0 s) : Keeps s0 (State.noteRecent s a1 a2) := by
  grind [State.noteRecent, keeps_modStack]

theorem keeps_tableWrite {a1} {a2} {a3} {a4} (h : Keeps s0 s) : Keeps s0 (State.tableWrite s a1 a2 a3 a4) := by
  grind [State.tableWrite, keeps_charge, keeps_devWrite, keeps_noteRecent, keeps_fields]

theorem keeps_modTable {a1} {a2} (h : Keeps s0 s) : Keeps s0 (State.modTable s a1 a2) := keeps_fields h id id

theorem keeps_modDyn {a1} {a2} (h : Keeps s0 s) : Keeps s0 (State.modDyn s a1 a2) := keeps_modTable h

theorem keeps_setAlloc {a1} {a2} {a3} (h : Keeps s0 s) : Keeps s0 (State.setAlloc s a1 a2 a3) := keeps_modPlaten h

theorem keeps_popFree {a1} {a2} (h : Keeps s0 s) : Keeps s0 (popFree s a1 a2).2.2  := by
  induction a2 generalizing s with
  | zero => exact h
  | succ n ih => grind [popFree, keeps_decodeRange]

theorem keeps_takeSlot {a1} {a2} (h : Keeps s0 s) : Keeps s0 (State.takeSlot s a1 a2).2 := by
  grind [State.takeSlot, keeps_popFree, keeps_setAlloc, keeps_modDyn]

theorem keeps_freeSlot {a1} {a2} {a3} (h : Keeps s0 s) : Keeps s0 (State.freeSlot s a1 a2 a3) := by
  grind [State.freeSlot, keeps_modPlaten]

theorem keeps_evict {a1} {a2} {a3} {a4} (h : Keeps s0 s) : Keeps s0 (State.evict s a1 a2 a3 a4) := by
  unfold State.evict
  split
  next => grind [keeps_readSheet]
  next l s1 h1 =>
    replace h1 := Keeps.ofPair h1 (keeps_readSheet h)
    extract_lets sh e s2 s3
    have h2 : Keeps s0 s2 := keeps_tableWrite h1
    have h3 : Keeps s0 s3 := keeps_modDyn (keeps_freeSlot h2)
    clear_value s3
    grind [keeps_readSheet, keeps_tableWrite]

theorem keeps_writeSlot {a1} {a2} {a3} {a4} {a5} (h : Keeps s0 s) : Keeps s0 (State.writeSlot s a1 a2 a3 a4 a5).2 := by
  grind [State.writeSlot, keeps_tableWrite, keeps_readSheet]

theorem keeps_defaultRow {a1} (h : Keeps s0 s) : Keeps s0 (State.defaultRow s a1).2 := by
  unfold State.defaultRow
  split
  · exact h
  · refine Keeps.foldlSnd h fun p i hp => ?_
    grind [keeps_readSheet]

theorem keeps_slotWithRow {a1} {a2} {a3} {n} (h : Keeps s0 s) : Keeps s0 (State.slotWithRow s a1 a2 a3 n).2  := by
  induction n generalizing s with
  | zero => exact h
  | succ n ih => grind [State.slotWithRow, keeps_takeSlot, keeps_writeSlot]

theorem keeps_readIfNot {p : Prop} [Decidable p] {d : TableDesc} {m : Bool} {a : Nat} (h : Keeps s0 s) :
    Keeps s0 (if p then (none, s) else s.readSheet d m a).2 := by
  split
  · exact h
  · exact keeps_readSheet h

/-- The kick of the coldest entry to its other bucket reads that bucket at most. -/
theorem keeps_kick {d : TableDesc} {i1 : Nat} {b1 : BucketSheet} (h : Keeps s0 s) :
    Keeps s0 (if d.flags.kick then
              match b1.coldest (fun e => !e.alt) with
              | none => (none, s)
              | some (p, _) =>
                let e := b1.get p
                let i3 := hash2 d e.id
                if i3 = i1 then (none, s)
                else match s.readSheet d false (d.bucketAddr i3) with
                  | (none, s) => (none, s)
                  | (some l3, s) =>
                    let b3 := decodeBucket l3
                    match b3.free with
                    | none => (none, s)
                    | some _ => (some (p, e, i3, b3), s)
            else (none, s) : Option (Nat × BEntry × Nat × BucketSheet) × State).2 := by
  split
  · split
    · exact h
    · extract_lets e3 i3
      clear_value i3
      split
      · exact h
      · split
        next e => exact Keeps.ofPair e (keeps_readSheet h)
        next e =>
          have h3 := Keeps.ofPair e (keeps_readSheet h)
          extract_lets b3
          split <;> exact h3
  · exact h

theorem keeps_placeEntry {a1} {a2} {a3} {a4} {a5} (h : Keeps s0 s) : Keeps s0 (State.placeEntry s a1 a2 a3 a4 a5).2 := by
  fun_cases State.placeEntry s a1 a2 a3 a4 a5
  case case1 i1 t e => exact keeps_freeSlot (Keeps.ofPair e (keeps_readSheet h))
  case case2 i1 new live l1 t e _ _ _ =>
    have hl : ∀ {t}, Keeps s0 t → Keeps s0 (live t) := fun ht => keeps_modDyn ht
    clear_value new live
    exact hl (keeps_tableWrite (Keeps.ofPair e (keeps_readSheet h)))
  case case3 i1 i2 new live l1 t e b1 _ l2 t2 e2 b2 bump c _ t3 =>
    have hl : ∀ {t}, Keeps s0 t → Keeps s0 (live t) := fun ht => keeps_modDyn ht
    have h2 : Keeps s0 t2 := Keeps.ofPair e2 (keeps_readIfNot (Keeps.ofPair e (keeps_readSheet h)))
    have h3 : Keeps s0 t3 := keeps_tableWrite h2
    clear_value new live t3
    exact hl (keeps_tableWrite h3)
  case case4 i1 i2 new live l1 t e b1 _ l2 t2 e2 b2 bump _ kick p ent i3 b3 t3 e3 q t4 b1' =>
    have hl : ∀ {t}, Keeps s0 t → Keeps s0 (live t) := fun ht => keeps_modDyn ht
    have hb : ∀ {t b}, Keeps s0 t → Keeps s0 (bump t b) := fun ht => keeps_tableWrite ht
    have h2 : Keeps s0 t2 := Keeps.ofPair e2 (keeps_readIfNot (Keeps.ofPair e (keeps_readSheet h)))
    have h3 : Keeps s0 t3 := Keeps.ofPair e3 (keeps_kick h2)
    have h4 : Keeps s0 t4 := keeps_tableWrite h3
    clear_value new live bump t4
    exact hl (hb h4)
  case case5 i1 i2 l1 t e b1 _ l2 t2 e2 b2 _ kick t3 e3 _ =>
    have h2 : Keeps s0 t2 := Keeps.ofPair e2 (keeps_readIfNot (Keeps.ofPair e (keeps_readSheet h)))
    exact keeps_freeSlot (Keeps.ofPair e3 (keeps_kick h2))
  case case6 i1 i2 l1 t e b1 _ l2 t2 e2 b2 _ kick t3 e3 p c _ t4 t5 e5 =>
    have h2 : Keeps s0 t2 := Keeps.ofPair e2 (keeps_readIfNot (Keeps.ofPair e (keeps_readSheet h)))
    exact keeps_freeSlot (Keeps.ofPair e5 (keeps_readSheet (keeps_evict (Keeps.ofPair e3 (keeps_kick h2)))))
  case case7 i1 i2 new live l1 t e b1 _ l2 t2 e2 b2 bump _ kick t3 e3 p c _ t4 l5 t5 e5 alt t6 =>
    have hl : ∀ {t}, Keeps s0 t → Keeps s0 (live t) := fun ht => keeps_modDyn ht
    have hb : ∀ {t b}, Keeps s0 t → Keeps s0 (bump t b) := fun ht => keeps_tableWrite ht
    have h2 : Keeps s0 t2 := Keeps.ofPair e2 (keeps_readIfNot (Keeps.ofPair e (keeps_readSheet h)))
    have h5 : Keeps s0 t5 := Keeps.ofPair e5 (keeps_readSheet (keeps_evict (Keeps.ofPair e3 (keeps_kick h2))))
    have h6 : Keeps s0 t6 := by
      unfold t6
      clear_value bump alt
      split
      · split
        next e6 => exact hb (Keeps.ofPair e6 (keeps_readSheet h5))
        next e6 => exact Keeps.ofPair e6 (keeps_readSheet h5)
      · exact h5
    clear_value new live t6 alt
    exact hl (keeps_tableWrite h6)

theorem keeps_readIf {p : Prop} [Decidable p] {d : TableDesc} {m : Bool} {a : Nat} (h : Keeps s0 s) :
    Keeps s0 (if p then s.readSheet d m a else (none, s)).2 := by
  split
  · exact keeps_readSheet h
  · exact h

/-- The second bucket's lookup. -/
theorem keeps_findSecond {p : Prop} [Decidable p] {d : TableDesc} {m : Bool} {a v : Nat} (h : Keeps s0 s) :
    Keeps s0 (if p then
        match s.readSheet d m a with
        | (some l, s) => ((decodeBucket l).find v, true, s)
        | (none, s) => (none, false, s)
      else (none, true, s)).2.2 := by
  split
  · split
    next e => exact Keeps.ofPair e (keeps_readSheet h)
    next e => exact Keeps.ofPair e (keeps_readSheet h)
  · exact h

/-- The new row, given or the default. -/
theorem keeps_rowOr {r : Option (List Byte × Nat)} {d : TableDesc} (h : Keeps s0 s) :
    Keeps s0 (match r with | some x => (some x.1, s) | none => s.defaultRow d).2 := by
  split
  · exact h
  · exact keeps_defaultRow h

/-- The victim, if there is one, is evicted. -/
theorem keeps_evictSome {v : Option (Nat × Nat)} {t : Nat} {d : TableDesc} (h : Keeps s0 s) :
    Keeps s0 (match v with | some (b, p) => s.evict t d b p | none => s) := by
  split
  · exact keeps_evict h
  · exact h

theorem keeps_placeInsert {a1} {a2} {a3} {a4} (h : Keeps s0 s) : Keeps s0 (State.placeInsert s a1 a2 a3 a4).2 := by
  fun_cases State.placeInsert s a1 a2 a3 a4
  case case1 i1 t e => exact Keeps.ofPair e (keeps_readSheet h)
  case case2 i1 l1 t e b1 c e2 => exact Keeps.ofPair e (keeps_readSheet h)
  case case3 i1 i2 l1 s1 e b1 _ _ _ t e2 => exact Keeps.ofTriple e2 (keeps_findSecond (Keeps.ofPair e (keeps_readSheet h)))
  case case4 i1 i2 l1 s1 e b1 _ t e2 => exact Keeps.ofTriple e2 (keeps_findSecond (Keeps.ofPair e (keeps_readSheet h)))
  case case5 i1 i2 l1 s1 e b1 _ s2 e2 full two s3 _ _ _ =>
    exact keeps_readIf (Keeps.ofTriple e2 (keeps_findSecond (Keeps.ofPair e (keeps_readSheet h))))
  case case6 i1 i2 l1 s1 e b1 _ s2 e2 full two s3 _ out _ s4 s5 e5 _ s6 e6 => 
    have h3 : Keeps s0 s3 := keeps_readIf (Keeps.ofTriple e2 (keeps_findSecond (Keeps.ofPair e (keeps_readSheet h))))
    exact keeps_freeSlot (Keeps.ofPair e6 (keeps_takeSlot (Keeps.ofPair e5 (keeps_rowOr (keeps_evictSome h3)))))
  case case7 i1 i2 l1 s1 e b1 _ s2 e2 full two s3 _ out _ s4 s5 e5 s6 e6 => 
    have h3 : Keeps s0 s3 := keeps_readIf (Keeps.ofTriple e2 (keeps_findSecond (Keeps.ofPair e (keeps_readSheet h))))
    exact Keeps.ofPair e6 (keeps_takeSlot (Keeps.ofPair e5 (keeps_rowOr (keeps_evictSome h3))))
  case case8 i1 i2 l1 s1 e b1 _ s2 e2 full two s3 _ out _ s4 _ s5 e5 _ s6 e6 => 
    have h3 : Keeps s0 s3 := keeps_readIf (Keeps.ofTriple e2 (keeps_findSecond (Keeps.ofPair e (keeps_readSheet h))))
    exact Keeps.ofPair e6 (keeps_slotWithRow (Keeps.ofPair e5 (keeps_rowOr (keeps_evictSome h3))))
  case case9 i1 i2 l1 s1 e b1 _ s2 e2 full two s3 _ out _ s4 _ s5 e5 _ s6 e6 => 
    have h3 : Keeps s0 s3 := keeps_readIf (Keeps.ofTriple e2 (keeps_findSecond (Keeps.ofPair e (keeps_readSheet h))))
    exact keeps_placeEntry (Keeps.ofPair e6 (keeps_slotWithRow (Keeps.ofPair e5 (keeps_rowOr (keeps_evictSome h3)))))

theorem keeps_modTicket {a1} {a2} (h : Keeps s0 s) : Keeps s0 (State.modTicket s a1 a2) := by
  unfold State.modTicket
  split <;> grind [keeps_modGalley, keeps_fields]

theorem keeps_resWrite {a1} {a2} {a3} (h : Keeps s0 s) : Keeps s0 (State.resWrite s a1 a2 a3) := by
  grind [State.resWrite, keeps_stepCharge, keeps_modGalley, keeps_fields]

theorem keeps_writeHeader {a1} {a2} (h : Keeps s0 s) : Keeps s0 (State.writeHeader s a1 a2) := by
  grind [State.writeHeader, keeps_modTicket, keeps_resWrite]

theorem keeps_modBag {a1} {a2} {a3} (h : Keeps s0 s) : Keeps s0 (State.modBag s a1 a2 a3) := by
  grind [State.modBag, keeps_modPlaten]

theorem keeps_endSettled {a1} {a2} (h : Keeps s0 s) : Keeps s0 (State.endSettled s a1 a2) := keeps_modPlaten h

theorem keeps_settleEntry {a1} {a2} {a3} {a4} (h : Keeps s0 s) : Keeps s0 (State.settleEntry s a1 a2 a3 a4) := by
  unfold State.settleEntry
  split <;> grind [keeps_count, keeps_resWrite, keeps_modBag, keeps_modTicket, keeps_endSettled]

theorem keeps_windowRead {a1} {a2} {a3} {a4} {a5} (h : Keeps s0 s) : Keeps s0 (State.windowRead s a1 a2 a3 a4 a5).2 := by
  grind [State.windowRead, keeps_decodeRange, keeps_setPlaten, keeps_account, keeps_count, keeps_chargeTo]

theorem keeps_queueInsert {a1} {a2} {a3} {a4} (h : Keeps s0 s) : Keeps s0 (State.queueInsert s a1 a2 a3 a4).2 := by
  grind [State.queueInsert, keeps_setPlaten]

theorem keeps_countHit {a1} {a2} {a3} {a4} (h : Keeps s0 s) : Keeps s0 (State.countHit s a1 a2 a3 a4) := by
  grind [State.countHit, keeps_modPlaten]

theorem keeps_missEntry {a1} {a2} {a3} {a4} (h : Keeps s0 s) : Keeps s0 (State.missEntry s a1 a2 a3 a4).2 := by
  grind [State.missEntry, keeps_queueInsert, keeps_settleEntry]

theorem keeps_onSheet {a1} {a2} {a3} {a4} {a5} {a6} (h : Keeps s0 s) : Keeps s0 (State.onSheet s a1 a2 a3 a4 a5 a6).2 := by
  fun_cases State.onSheet s a1 a2 a3 a4 a5 a6
  all_goals grind [keeps_settleEntry, keeps_missEntry, keeps_countHit]

theorem keeps_setSliver {a1} {a2} {a3} (h : Keeps s0 s) : Keeps s0 (State.setSliver s a1 a2 a3) := keeps_modGalley h

theorem keeps_hostWrite {a1} {a2} (h : Keeps s0 s) : Keeps s0 (State.hostWrite s a1 a2) := by
  unfold State.hostWrite
  split
  · exact keeps_fields h id (memWf_mwrite _ _)
  · exact keeps_fields h id id

theorem keeps_kernelWrite {a1} {a2} {a3} (h : Keeps s0 s) : Keeps s0 (State.kernelWrite s a1 a2 a3).2 := by
  grind [State.kernelWrite, keeps_charge, keeps_devWrite, keeps_account, keeps_hostWrite]

theorem keeps_raise {a1} {a2} (h : Keeps s0 s) : Keeps s0 (State.raise s a1 a2) := by
  grind [State.raise, keeps_modInst, keeps_fields]

theorem keeps_chargeHost {a1} {a2} {a3} (h : Keeps s0 s) : Keeps s0 (State.chargeHost s a1 a2 a3) := keeps_account h

theorem keeps_ctxReadPiece {a1} {a2} {a3} {a4} (h : Keeps s0 s) : Keeps s0 (State.ctxReadPiece s a1 a2 a3 a4).2 := by
  grind [State.ctxReadPiece, keeps_chargeHost, keeps_chargeTo, keeps_decodeRange]

theorem keeps_ctxRead {a1} {a2} {a3} (h : Keeps s0 s) : Keeps s0 (State.ctxRead s a1 a2 a3).2 := by
  unfold State.ctxRead
  split
  · exact h
  · refine Keeps.foldlSnd h fun p i hp => ?_
    grind [keeps_ctxReadPiece]

theorem keeps_ctxWritePiece {a1} {a2} {a3} {a4} (h : Keeps s0 s) : Keeps s0 (State.ctxWritePiece s a1 a2 a3 a4).2 := by
  grind [State.ctxWritePiece, keeps_chargeHost, keeps_hostWrite, keeps_chargeTo, keeps_devWrite]

theorem keeps_ctxWrite {a1} {a2} {a3} (h : Keeps s0 s) : Keeps s0 (State.ctxWrite s a1 a2 a3).2 := by
  unfold State.ctxWrite
  split
  · exact h
  · refine Keeps.foldlSnd h fun p i hp => ?_
    grind [keeps_ctxWritePiece]

theorem keeps_deliver {a1} {a2} {a3} (h : Keeps s0 s) : Keeps s0 (State.deliver s a1 a2 a3) := by
  unfold State.deliver
  extract_lets x s1
  have h1 : Keeps s0 s1 := keeps_kernelWrite h
  exact Keeps.ite (fun _ => h) fun _ => Keeps.ite (fun _ => keeps_modFn h) fun _ => keeps_raise (keeps_modFn h1)

theorem keeps_record {a1} {a2} (h : Keeps s0 s) : Keeps s0 (State.record s a1 a2) := by
  grind [State.record, keeps_deliver, keeps_fields, Keeps.foldl]

theorem keeps_modQueue {a1} {a2} (h : Keeps s0 s) : Keeps s0 (State.modQueue s a1 a2) := keeps_fields h id id

theorem keeps_modCmd {a1} {a2} {a3} (h : Keeps s0 s) : Keeps s0 (State.modCmd s a1 a2 a3) := keeps_modQueue h

theorem keeps_finish {a1} {a2} {a3} {a4} (h : Keeps s0 s) : Keeps s0 (State.finish s a1 a2 a3 a4) := keeps_modQueue h

theorem keeps_modStep {a1} {a2} (h : Keeps s0 s) : Keeps s0 (State.modStep s a1 a2) := keeps_fields h id id

theorem keeps_endStep {a1} {a2} (h : Keeps s0 s) : Keeps s0 (State.endStep s a1 a2) := by
  unfold State.endStep
  split <;> grind [keeps_modCmd, keeps_modGalley, keeps_modCtx, keeps_fields, Keeps.foldl]

theorem keeps_breakLost {a1} (h : Keeps s0 s) : Keeps s0 (State.breakLost s a1) := by
  grind [State.breakLost, keeps_record, keeps_fields, Keeps.foldl]

theorem keeps_loseContext {a1} {a2} {a3} (h : Keeps s0 s) : Keeps s0 (State.loseContext s a1 a2 a3) := by
  unfold State.loseContext
  split <;> grind [keeps_record, keeps_finish, keeps_endStep, keeps_modCtx, keeps_breakLost, keeps_fields, Keeps.foldl]

theorem keeps_accFault {a1} {a2} {a3} (h : Keeps s0 s) : Keeps s0 (State.accFault s a1 a2 a3) := by
  unfold State.accFault
  split <;> grind [keeps_loseContext]

theorem keeps_wake {a1} (h : Keeps s0 s) : Keeps s0 (State.wake s a1) := by
  unfold State.wake
  split <;> grind [keeps_fields]

theorem keeps_signal {a1} (h : Keeps s0 s) : Keeps s0 (State.signal s a1) := by
  grind [State.signal, keeps_ctxWrite, keeps_accFault, keeps_wake, keeps_raise, keeps_fields]

theorem keeps_writeEntry {a1} {a2} {a3} {a4} {a5} (h : Keeps s0 s) : Keeps s0 (State.writeEntry s a1 a2 a3 a4 a5) := by
  grind [State.writeEntry, keeps_kernelWrite, keeps_wake, keeps_ctxWrite, keeps_accFault, keeps_signal, keeps_raise, keeps_modQueue]

theorem keeps_drain {q} {n} (h : Keeps s0 s) : Keeps s0 (State.drain q n s) := by
  induction n generalizing s with
  | zero => exact h
  | succ n ih =>
    unfold State.drain
    (repeat' split) <;> first | exact h | exact ih (keeps_writeEntry h)

theorem keeps_noteBatch {a1} {a2} (h : Keeps s0 s) : Keeps s0 (State.noteBatch s a1 a2) := by
  grind [State.noteBatch, keeps_fields]

theorem keeps_noteBatches {a0} {a1} (h : Keeps s0 s) : Keeps s0 (State.noteBatches a0 a1 s) := by
  grind [State.noteBatches, keeps_noteBatch, Keeps.foldl]

theorem keeps_flushEnd {a1} (h : Keeps s0 s) : Keeps s0 (State.flushEnd s a1) := by
  unfold State.flushEnd
  split <;> grind [keeps_finish, keeps_modQueue, keeps_modFn, keeps_fields, Keeps.foldl]

theorem keeps_pumpPass (h : Keeps s0 s) : Keeps s0 (State.pumpPass s) := by
  grind [State.pumpPass, keeps_flushEnd, keeps_noteBatches, keeps_drain, Keeps.foldl]

theorem keeps_pump (h : Keeps s0 s) : Keeps s0 (State.pump s) := by
  grind [State.pump, keeps_pumpPass, Keeps.foldl]

theorem keeps_modFp {a1} (h : Keeps s0 s) : Keeps s0 (State.modFp s a1) := keeps_fields h id id

theorem keeps_flashWrite {a1} {a2} (h : Keeps s0 s) : Keeps s0 (State.flashWrite s a1 a2) := keeps_modFp h

theorem keeps_flashErase {a1} {a2} (h : Keeps s0 s) : Keeps s0 (State.flashErase s a1 a2) := keeps_modFp h

theorem keeps_draw {a1} (h : Keeps s0 s) : Keeps s0 (State.draw s a1).2 := keeps_fields h id id

theorem keeps_modSlot {a1} {a2} (h : Keeps s0 s) : Keeps s0 (State.modSlot s a1 a2) := keeps_fields h id id

theorem keeps_fillSlot {a1} {a2} {a3} {a4} {a5} {a6} {a7} (h : Keeps s0 s) : Keeps s0 (State.fillSlot s a1 a2 a3 a4 a5 a6 a7) :=
  keeps_modSlot h

theorem keeps_useSlot {a1} (h : Keeps s0 s) : Keeps s0 (State.useSlot s a1) := keeps_modSlot h

theorem keeps_unuseSlot {a1} (h : Keeps s0 s) : Keeps s0 (State.unuseSlot s a1) := keeps_modSlot h

theorem keeps_modSess {a1} {a2} (h : Keeps s0 s) : Keeps s0 (State.modSess s a1 a2) := keeps_fields h id id

theorem keeps_sendDatagram {a1} {a2} {a3} (h : Keeps s0 s) : Keeps s0 (State.sendDatagram s a1 a2 a3) := by
  grind [State.sendDatagram, keeps_fields]

theorem keeps_sendRecord {a1} {a2} (h : Keeps s0 s) : Keeps s0 (State.sendRecord s a1 a2) := by
  grind [State.sendRecord, keeps_sendDatagram, keeps_modSess]

theorem keeps_replySession {a1} {a2} {a3} {a4} {a5} {a6} {a7} {a8} (h : Keeps s0 s) :
    Keeps s0 (State.replySession s a1 a2 a3 a4 a5 a6 a7 a8) := by
  grind [State.replySession, keeps_sendRecord, keeps_modSess]

theorem keeps_replyMailbox {a1} {a2} {a3} {a4} {a5} {a6} {a7} (h : Keeps s0 s) :
    Keeps s0 (State.replyMailbox s a1 a2 a3 a4 a5 a6 a7) := by
  grind [State.replyMailbox, keeps_raise, keeps_fields]

theorem keeps_answer {a1} {a2} {a3} {a4} (h : Keeps s0 s) : Keeps s0 (State.answer s a1 a2 a3 a4) := by
  unfold State.answer
  split <;> grind [keeps_finish, keeps_replySession, keeps_replyMailbox]

theorem keeps_emptySlot {a1} (h : Keeps s0 s) : Keeps s0 (State.emptySlot s a1) := by
  grind [State.emptySlot, keeps_answer, keeps_modSlot]

theorem keeps_notify {a1} {a2} (h : Keeps s0 s) : Keeps s0 (State.notify s a1 a2) := by
  grind [State.notify, keeps_sendRecord, Keeps.foldl]

theorem keeps_raiseAlert {a1} (h : Keeps s0 s) : Keeps s0 (State.raiseAlert s a1) := by
  grind [State.raiseAlert, keeps_notify, keeps_fields]

theorem keeps_endSession {a1} (h : Keeps s0 s) : Keeps s0 (State.endSession s a1) := by
  grind [State.endSession, keeps_emptySlot, keeps_fields]

theorem keeps_fault {a1} {a2} (h : Keeps s0 s) : Keeps s0 (State.fault s a1 a2) := by
  grind [State.fault, keeps_record, keeps_raiseAlert, keeps_notify]

theorem keeps_ladderRecord {a1} {a2} {a3} (h : Keeps s0 s) : Keeps s0 (State.ladderRecord s a1 a2 a3) := by
  grind [State.ladderRecord, keeps_fault]

theorem keeps_lockViolation {a1} {a2} (h : Keeps s0 s) : Keeps s0 (State.lockViolation s a1 a2) := by
  unfold State.lockViolation
  split <;> grind [keeps_fault, keeps_modFn, keeps_fields]

theorem keeps_evalFaultPin (h : Keeps s0 s) : Keeps s0 (State.evalFaultPin s) := keeps_fields h id id

theorem keeps_nextRetire {a1} (h : Keeps s0 s) : Keeps s0 (State.nextRetire s a1) := by
  grind [State.nextRetire, keeps_modStack, keeps_fault]

theorem keeps_retireFrame {a1} {a2} (h : Keeps s0 s) : Keeps s0 (State.retireFrame s a1 a2) := by
  grind [State.retireFrame, keeps_nextRetire, keeps_modStack]

theorem keeps_laneHit {a1} {a2} {a3} {a4} (h : Keeps s0 s) : Keeps s0 (State.laneHit s a1 a2 a3 a4) := by
  grind [State.laneHit, keeps_modStack, keeps_fault, keeps_count]

theorem keeps_memReport {a1} {a2} (h : Keeps s0 s) : Keeps s0 (State.memReport s a1 a2) := by
  grind [State.memReport, keeps_count, keeps_fault, keeps_retireFrame, keeps_laneHit, keeps_modStack, Keeps.foldl]

theorem keeps_reportMem (h : Keeps s0 s) : Keeps s0 (State.reportMem s) := by
  grind [State.reportMem, keeps_memReport, keeps_modStack, Keeps.foldl]

theorem keeps_layFriskets {a1} (h : Keeps s0 s) : Keeps s0 (State.layFriskets s a1) := by
  unfold State.layFriskets
  extract_lets gs bigs smalls big small clean es mem changed s1
  have hclean (h : memWf s.mem = true) : memWf clean = true := memWf_foldl (fun _ a => memWf_mclear a _) gs h
  have hmem (h : memWf s.mem = true) : memWf mem = true := memWf_foldl (fun m e h => by grind [memWf_mstore]) es (hclean h)
  have h1 : Keeps s0 s1 := Keeps.foldl (keeps_mem h hmem) fun _ _ => keeps_noteDirty
  exact h1.upd rfl rfl rfl rfl rfl

theorem keeps_writeRecord {a1} (h : Keeps s0 s) : Keeps s0 (State.writeRecord s a1) := by
  grind [State.writeRecord, keeps_devWrite]

theorem keeps_writeRecords {a1} (h : Keeps s0 s) : Keeps s0 (State.writeRecords s a1) := by
  grind [State.writeRecords, keeps_writeRecord, Keeps.foldl]

theorem keeps_friskChanged {a1} (h : Keeps s0 s) : Keeps s0 (State.friskChanged s a1) := keeps_writeRecords (keeps_layFriskets h)

theorem keeps_evictCtx {a1} (h : Keeps s0 s) : Keeps s0 (State.evictCtx s a1) := keeps_writeRecord (keeps_modCtx h)

theorem keeps_loadCtx {a1} (h : Keeps s0 s) : ∀ t, State.loadCtx s a1 = some t → Keeps s0 t := by
  unfold State.loadCtx
  (repeat' split) <;> grind [keeps_modCtx, keeps_writeRecord, keeps_evictCtx, keeps_fields]

theorem keeps_keepTokens {a1} (h : Keeps s0 s) : Keeps s0 (State.keepTokens a1 s) := h.upd rfl rfl rfl rfl rfl

theorem keeps_saveStep {a1} {a2} (h : Keeps s0 s) : Keeps s0 (State.saveStep s a1 a2).2 := by
  refine Keeps.foldlSnd h fun p g hp => Keeps.foldlSnd hp fun r q hr => ?_
  grind [keeps_ctxWrite]

theorem keeps_restoreGalley {a1} {a2} {a3} {a4} (h : Keeps s0 s) : Keeps s0 (State.restoreGalley s a1 a2 a3 a4).2 := by
  fun_cases State.restoreGalley s a1 a2 a3 a4
  all_goals
    rename State → Nat → Nat → Except AccErr (List Byte) × State => rd
    have hrd : ∀ {t a n}, Keeps s0 t → Keeps s0 (rd t a n).2 := fun ht => keeps_ctxRead ht
    clear_value rd
    rename (rd s 0 96 = _) => e1
    have h1 := Keeps.ofPair e1 (hrd h)
    clear e1
  case case1 | case2 => exact h1
  case case3 | case4 =>
    rename (rd _ 40960 _ = _) => e2
    have h2 := Keeps.ofPair e2 (hrd h1)
    rename Except AccErr GalleySt × State => r
    have hr : Keeps s0 r.2 := by
      refine Keeps.foldlSnd h2 fun p q hp => ?_
      split
      · exact hp
      · split
        · exact hp
        · extract_lets ent
          split
          next e => exact Keeps.ofPair e (hrd hp)
          next e => exact Keeps.ofPair e (hrd hp)
    rename (r = _) => e3
    exact Keeps.ofPair e3 hr
  case case5 => 
    rename (rd _ 2560 _ = _) => e2
    exact Keeps.ofPair e2 (hrd h1)
  case case6 => 
    rename (rd _ 4096 _ = _) => e2
    exact Keeps.ofPair e2 (hrd h1)
  case case7 => 
    rename (rd _ 8192 _ = _) => e2
    exact Keeps.ofPair e2 (hrd h1)
  case case8 => 
    rename (rd _ 40960 _ = _) => e2
    exact Keeps.ofPair e2 (hrd h1)

theorem keeps_giveGalley {a1} {a2} {a3} {a4} (h : Keeps s0 s) : Keeps s0 (State.giveGalley s a1 a2 a3 a4) := keeps_modGalley h

theorem keeps_openMailbox {a1} {a2} {a3} (h : Keeps s0 s) : Keeps s0 (State.openMailbox s a1 a2 a3) := by
  grind [State.openMailbox, keeps_modGalley]

theorem keeps_writeVerdict {a1} {a2} (h : Keeps s0 s) : Keeps s0 (State.writeVerdict s a1 a2) := keeps_modGalley h

theorem keeps_rewriteMailbox {a1} {a2} {a3} (h : Keeps s0 s) : Keeps s0 (State.rewriteMailbox s a1 a2 a3) := by
  grind [State.rewriteMailbox, keeps_writeVerdict, keeps_openMailbox]

theorem keeps_forwardReport {a1} {a2} {a3} (h : Keeps s0 s) : Keeps s0 (State.forwardReport s a1 a2 a3) := by
  grind [State.forwardReport, keeps_fields]

theorem keeps_noteModel {a1} (h : Keeps s0 s) : Keeps s0 (State.noteModel s a1) := by
  grind [State.noteModel, keeps_account, keeps_fields]

theorem keeps_startStep {a1} {a2} (h : Keeps s0 s) : Keeps s0 (State.startStep s a1 a2) := by
  unfold State.startStep
  extract_lets resumed s1 s2 r s3 s4 s5 s6 g r2
  have h1 : Keeps s0 s1 := keeps_noteModel h
  have hr : Keeps s0 r.2 := by
    unfold r
    split
    · refine Keeps.foldlSnd h1 fun p g hp => ?_
      split
      · next f _ _ _ _ =>
        have hg := fun x => keeps_restoreGalley (a1 := a2) (a2 := f) (a3 := g) (a4 := x) hp
        split
        · next e => exact keeps_setGalley (Keeps.ofPair e (hg _))
        · next e => exact Keeps.ofPair e (hg _)
        · next e => exact Keeps.ofPair e (hg _)
      · exact hp
    · exact h1
  clear_value r
  have h3 : Keeps s0 s3 := keeps_keepTokens hr
  clear_value s3
  split
  · have h4 : Keeps s0 s4 := Keeps.foldl h3 fun t g ht => keeps_giveGalley ht
    clear_value s4
    have h5 : Keeps s0 s5 := Keeps.ite (fun _ => Keeps.foldl h4 fun t g ht => Keeps.ite (fun _ => keeps_rewriteMailbox ht) fun _ => ht) fun _ => h4
    exact keeps_modStep (keeps_modCtx h5)
  · exact keeps_loseContext h3
  · exact keeps_accFault h3

theorem keeps_noteTook {a1} (h : Keeps s0 s) : Keeps s0 (State.noteTook s a1) := by
  grind [State.noteTook, keeps_fields]

theorem keeps_askStop {a1} (h : Keeps s0 s) : Keeps s0 (State.askStop s a1) := by
  grind [State.askStop, keeps_modGalley, keeps_modStep, Keeps.foldl]

theorem keeps_tryGrant {a1} (h : Keeps s0 s) : Keeps s0 (State.tryGrant s a1) := by
  grind [State.tryGrant, keeps_loadCtx, keeps_startStep, keeps_askStop, Keeps.foldl]

theorem keeps_schedule (h : Keeps s0 s) : Keeps s0 (State.schedule s) := by
  grind [State.schedule, keeps_tryGrant, Keeps.foldl]

theorem keeps_settle (h : Keeps s0 s) : Keeps s0 (State.settle s) := by
  grind [State.settle, keeps_pump, keeps_schedule, keeps_reportMem]

theorem keeps_send {a1} {a2} {a3} (h : Keeps s0 s) : Keeps s0 (State.send s a1 a2 a3) := keeps_fields h id id

theorem keeps_routeFill {a1} {a2} (h : Keeps s0 s) : Keeps s0 (State.routeFill s a1 a2) := by
  grind [State.routeFill, keeps_modGalley]

theorem keeps_sendList {a1} {a2} (h : Keeps s0 s) : Keeps s0 (State.sendList s a1 a2) := by
  grind [State.sendList, keeps_send, keeps_routeFill, keeps_modTicket, Keeps.foldl]

theorem keeps_execListCheck {a0} : KeepsR s (execListCheck a0 s) := by
  grind [execListCheck, keeps_sendList, keeps_writeHeader, keeps_modTicket, KeepsR.next, Keeps.refl]

theorem keeps_popStream {a1} {a2} (h : Keeps s0 s) : Keeps s0 (State.popStream s a1 a2) := keeps_fields h id id

theorem keeps_execLookupEntry {a0} {a1} : KeepsR s (execLookupEntry a0 a1 s) := by
  unfold execLookupEntry
  split <;> grind [keeps_settleEntry, keeps_popStream, keeps_modPlaten, KeepsR.next, Keeps.refl]

theorem keeps_execEndMark {a0} {a1} : KeepsR s (execEndMark a0 a1 s) := by
  grind [execEndMark, keeps_modPlaten, keeps_popStream, KeepsR.next, Keeps.refl]

theorem keeps_requestCodebook {a1} {a2} {a3} (h : Keeps s0 s) : Keeps s0 (State.requestCodebook s a1 a2 a3) := by
  grind [State.requestCodebook, keeps_setPlaten]

theorem keeps_execEntryAdmit {a0} {a1} : KeepsR s (execEntryAdmit a0 a1 s)  := by
  unfold execEntryAdmit
  extract_lets p
  split
  · exact .next (.refl s)
  split
  · exact .next (keeps_settleEntry (keeps_setPlaten (.refl s)))
  next e _ d _ =>
    extract_lets opened want s1 s2
    have h2 : Keeps s s2 := keeps_modBag (keeps_setPlaten (.refl s))
    refine KeepsR.ite (fun _ => .next (.refl s)) fun _ => KeepsR.ite (fun _ => .next (.refl s)) fun _ =>
      KeepsR.ite (fun _ => .next (keeps_requestCodebook (.refl s))) fun _ => ?_
    split
    · exact .next (keeps_settleEntry h2)
    · exact .next (keeps_modPlaten h2)

theorem keeps_execTokenRefill : KeepsR s (execTokenRefill s) := by
  grind [execTokenRefill, keeps_ran, keeps_mapPlatens, KeepsR.next, Keeps.refl]

theorem keeps_execWindowClose {a0} : KeepsR s (execWindowClose a0 s) := by
  grind [execWindowClose, keeps_setPlaten, KeepsR.next, Keeps.refl]

theorem keeps_feed {a1} {a2} {a3} {a4} {a5} (h : Keeps s0 s) : Keeps s0 (State.feed s a1 a2 a3 a4 a5).2 := by
  induction a5 generalizing s with
  | nil => exact h
  | cons e l ih => grind [State.feed, keeps_onSheet]

theorem keeps_execSheetReadDone {a0} {a1} {a2} : KeepsR s (execSheetReadDone a0 a1 a2 s) := by
  unfold execSheetReadDone
  (repeat' split) <;> grind [keeps_windowRead, keeps_tagCmd, keeps_readSheet, keeps_feed, keeps_modPlaten, KeepsR.next, Keeps.refl]

theorem keeps_execWindowComplete {a0} {a1} : KeepsR s (execWindowComplete a0 a1 s) := by
  grind [execWindowComplete, keeps_setPlaten, keeps_mapPlatens, KeepsR.next, Keeps.refl]

theorem keeps_writeBag {a1} (h : Keeps s0 s) : Keeps s0 (State.writeBag s a1) := by
  grind [State.writeBag, keeps_resWrite, keeps_modTicket]

theorem keeps_execBagSettle {a0} {a1} {a2} : KeepsR s (execBagSettle a0 a1 a2 s) := by
  unfold execBagSettle
  split <;> grind [keeps_writeBag, keeps_modPlaten, keeps_modTicket, keeps_setPlaten, KeepsR.next, Keeps.refl]

theorem keeps_execListComplete {a0} : KeepsR s (execListComplete a0 s) := by
  grind [execListComplete, keeps_writeHeader, keeps_writeBag, Keeps.foldl, KeepsR.next, Keeps.refl]

theorem keeps_unitReset {a1} {a2} (h : Keeps s0 s) : Keeps s0 (State.unitReset s a1 a2) := by
  unfold State.unitReset
  split <;> grind [keeps_settleEntry, keeps_modPlaten, keeps_endSettled, keeps_modTicket, keeps_send]

theorem keeps_execUnitResetResponse {a0} {a1} : KeepsR s (execUnitResetResponse a0 a1 s) := by
  grind [execUnitResetResponse, keeps_unitReset, keeps_popStream, keeps_fields, KeepsR.next, Keeps.refl]

theorem keeps_execCodebookLoadDone {a0} {a1} : KeepsR s (execCodebookLoadDone a0 a1 s) := by
  unfold execCodebookLoadDone
  split <;> grind [keeps_charge, keeps_modPlaten, keeps_settleEntry, Keeps.foldl, KeepsR.next, Keeps.refl]

theorem keeps_execSketchHalving : KeepsR s (execSketchHalving s) := by
  grind [execSketchHalving, keeps_ran, keeps_mapPlatens, KeepsR.next, Keeps.refl]

theorem keeps_loadStore (h : Keeps s0 s) : Keeps s0 (State.loadStore s).2 := by
  grind [State.loadStore, keeps_flashWrite, keeps_flashErase, keeps_fields]

theorem keeps_storePut {a1} {a2} (h : Keeps s0 s) : ∀ t, State.storePut s a1 a2 = some t → Keeps s0 t := by
  grind [State.storePut, keeps_flashWrite, keeps_fields]

theorem keeps_storeDrop {a1} (h : Keeps s0 s) : Keeps s0 (State.storeDrop s a1) := by
  unfold State.storeDrop
  extract_lets _ s1
  have h1 : Keeps s0 s1 := h.upd rfl rfl rfl rfl rfl
  have := keeps_storePut (a1 := a1) (a2 := [0]) h1
  cases hp : s1.storePut a1 [0] with
  | none => exact h1
  | some t => exact this t hp

theorem keeps_writeBootsel {a1} (h : Keeps s0 s) : Keeps s0 (State.writeBootsel s a1) :=
  keeps_fields (keeps_flashWrite (keeps_flashErase h)) id id

theorem keeps_bootImages (h : Keeps s0 s) : Keeps s0 (State.bootImages s) := by
  grind [State.bootImages, keeps_writeBootsel, keeps_fields]

theorem keeps_coldRoot (h : Keeps s0 s) : Keeps s0 (State.coldRoot s) := by
  grind [State.coldRoot, keeps_draw, keeps_fields]

theorem keeps_deriveSlot {a1} {a2} {a3} {a4} {a5} (h : Keeps s0 s) : Keeps s0 (State.deriveSlot s a1 a2 a3 a4 a5) := by
  grind [State.deriveSlot, keeps_fillSlot]

theorem keeps_coldSlots (h : Keeps s0 s) : Keeps s0 (State.coldSlots s) := by
  grind [State.coldSlots, keeps_deriveSlot, keeps_fields]

theorem keeps_warmSlot (h : Keeps s0 s) : Keeps s0 (State.warmSlot s) := by
  grind [State.warmSlot, keeps_deriveSlot]

theorem keeps_place {a1} {a2} (h : Keeps s0 s) : Keeps s0 (State.place s a1 a2) := by
  grind [State.place, keeps_fields]

theorem keeps_loadObjects (h : Keeps s0 s) : Keeps s0 (State.loadObjects s) := by
  grind [State.loadObjects, keeps_loadStore, keeps_place, Keeps.foldl]

theorem keeps_applyToken (h : Keeps s0 s) : Keeps s0 (State.applyToken s) := by
  grind [State.applyToken, keeps_storeDrop, keeps_fields]

theorem keeps_loadPolicy (h : Keeps s0 s) : Keeps s0 (State.loadPolicy s) := keeps_applyToken (keeps_fields h id id)

theorem keeps_coldTime (h : Keeps s0 s) : Keeps s0 (State.coldTime s) := by
  grind [State.coldTime, keeps_fields, Keeps.foldl]

theorem keeps_modVri {a1} {a2} (h : Keeps s0 s) : Keeps s0 (State.modVri s a1 a2) := keeps_fields h id id

theorem keeps_vriStart (h : Keeps s0 s) : Keeps s0 (State.vriStart s) := by
  grind [State.vriStart, keeps_modVri, Keeps.foldl]

theorem keeps_coldBoot (h : Keeps s0 s) : Keeps s0 (State.coldBoot s)  := by
  unfold State.coldBoot
  extract_lets s1
  have h1 : Keeps s0 s1 := keeps_vriStart (keeps_coldSlots (keeps_loadPolicy (keeps_loadObjects (keeps_bootImages (keeps_coldRoot h)))))
  clear_value s1
  exact h1.upd rfl rfl rfl rfl rfl

theorem keeps_zeroBuckets {a1} (h : Keeps s0 s) : Keeps s0 (State.zeroBuckets s a1) := by
  have hc {s : State} (h : Keeps s0 s) (a n : Nat) : Keeps s0 { s with mem := mclear s.mem a n } :=
    keeps_fields h (memWf_mclear a n) id
  grind [State.zeroBuckets, keeps_heal]

theorem keeps_descWritten {a1} (h : Keeps s0 s) : Keeps s0 (State.descWritten s a1) := keeps_mapPlatens (keeps_fields h id id)

theorem keeps_freeTable {a1} (h : Keeps s0 s) : Keeps s0 (State.freeTable s a1) :=
  keeps_descWritten (keeps_mapPlatens (keeps_fields h id id))

theorem keeps_orphanTables {a1} (h : Keeps s0 s) : Keeps s0 (State.orphanTables s a1) := by
  grind [State.orphanTables, keeps_descWritten, keeps_modTable, keeps_freeTable, Keeps.foldl]

theorem keeps_tablesFormeDown {a1} {a2} (h : Keeps s0 s) : Keeps s0 (State.tablesFormeDown s a1 a2) := keeps_fields h id id

theorem keeps_tablesFormeUp {a1} (h : Keeps s0 s) : Keeps s0 (State.tablesFormeUp s a1) := keeps_fields h id id

theorem keeps_execMirrorResyncGranule {a0} : KeepsR s (execMirrorResyncGranule a0 s)  := by
  unfold execMirrorResyncGranule
  split
  · exact .next (.refl s)
  split
  next g rest _ _ =>
    refine KeepsR.ite (fun _ => .next (.refl s)) fun _ => ?_
    refine .next (keeps_modDyn (keeps_modPlaten (Keeps.foldl (.refl s) fun t a ht => ?_)))
    refine Keeps.ite (fun _ => keeps_fields (keeps_heal (keeps_mem ht (memWf_mcopy _ _ _))) id id) fun _ => ht
  · exact .next (keeps_modDyn (.refl s))
  · exact .next (.refl s)

theorem keeps_pushFree {a1} {a2} {a3} (h : Keeps s0 s) : Keeps s0 (State.pushFree s a1 a2 a3) := by
  grind [State.pushFree, keeps_devWrite, keeps_modDyn, keeps_setAlloc]

theorem keeps_execQuarantineRelease {a0} : KeepsR s (execQuarantineRelease a0 s) := by
  unfold execQuarantineRelease
  split <;> grind [keeps_setPlaten, keeps_pushFree, KeepsR.next, Keeps.refl]

theorem keeps_findId {a1} {a2} (h : Keeps s0 s) : Keeps s0 (State.findId s a1 a2).2 := by
  have h1 := keeps_readSheet h (a1 := a1) (a2 := false) (a3 := a1.bucketAddr (hash1 a1 a2))
  unfold State.findId
  split
  next s1 e => exact Keeps.ofPair e h1
  next l s1 e =>
    replace h1 := Keeps.ofPair e h1
    have h2 := keeps_readSheet h1 (a1 := a1) (a2 := false) (a3 := a1.bucketAddr (hash2 a1 a2))
    extract_lets b1
    split
    · exact h1
    split
    · split
      next e => exact Keeps.ofPair e h2
      next e => exact Keeps.ofPair e h2
    · exact h1

theorem keeps_execFreqIncrement {a0} : KeepsR s (execFreqIncrement a0 s) := by
  fun_cases execFreqIncrement a0 s
  all_goals grind [keeps_setPlaten, keeps_findId, keeps_tableWrite, KeepsR.next, Keeps.refl]

theorem keeps_ageBucket {a1} {a2} {a3} (h : Keeps s0 s) : Keeps s0 (State.ageBucket s a1 a2 a3) := by
  unfold State.ageBucket
  split
  next => grind [keeps_readSheet]
  next l s1 h1 =>
    refine Keeps.foldl ?_ fun t k ht => keeps_evict ht
    grind [keeps_readSheet, keeps_tableWrite]

theorem keeps_execClockAgeing : KeepsR s (execClockAgeing s) := by
  unfold execClockAgeing
  split <;> grind [keeps_ageBucket, keeps_modDyn, keeps_ran, Keeps.foldl, KeepsR.next, Keeps.refl]

theorem keeps_clearGalleys (h : Keeps s0 s) : Keeps s0 (State.clearGalleys s) := keeps_fields h id id

theorem keeps_hostLoss (h : Keeps s0 s) : Keeps s0 (State.hostLoss s) := by
  grind [State.hostLoss, keeps_clearGalleys, keeps_fields]

theorem keeps_zeroFillAll  (h : Keeps s0 s) : Keeps s0 (State.zeroFillAll s) := keeps_fields h (fun _ => rfl) id

theorem keeps_standbyBack {a1} (h : Keeps s0 s) : Keeps s0 (State.standbyBack s a1) := by
  grind [State.standbyBack, keeps_fields, Keeps.foldl]

theorem keeps_abandonResets (h : Keeps s0 s) : Keeps s0 (State.abandonResets s) := keeps_fields h id id

theorem keeps_dropChange (h : Keeps s0 s) : Keeps s0 (State.dropChange s) := by
  grind [State.dropChange, keeps_place, keeps_fields]

theorem keeps_beginWarm (h : Keeps s0 s) : Keeps s0 (State.beginWarm s) := by
  unfold State.beginWarm
  extract_lets scrub s1 s2 _ s3 s4 s5 s6 s7 _ s8 _ _ s9 _
  have h1 : Keeps s0 s1 := keeps_standbyBack (keeps_abandonResets h)
  have h2 : Keeps s0 s2 := keeps_dropChange h1
  have h3 : Keeps s0 s3 := h2.upd rfl rfl rfl rfl rfl
  have h4 : Keeps s0 s4 := Keeps.foldl h3 fun _ _ => keeps_endSession
  have h5 : Keeps s0 s5 := keeps_hostLoss h4
  have h6 : Keeps s0 s6 := Keeps.foldl h5 fun t p ht => by
    split
    · exact keeps_emptySlot ht
    · exact ht
  have h7 : Keeps s0 s7 := keeps_orphanTables h6
  have h8 : Keeps s0 s8 := by
    unfold s8
    split
    · exact (keeps_zeroFillAll h7).upd rfl rfl rfl rfl rfl
    · exact h7
  have h9 : Keeps s0 s9 := h8.upd rfl rfl rfl rfl rfl
  exact h9.upd rfl rfl rfl rfl rfl

theorem keeps_keepThroughCold (h : Keeps s0 s) : Keeps s0 (State.keepThroughCold s) := by
  refine ⟨h.pending, fun hl => ?_⟩
  obtain ⟨-, -, -, -, -, hhost⟩ := h.legal hl
  have hp : s.keepThroughCold.profile = 0 := rfl
  exact ⟨by rw [hp]; decide, fun _ => rfl, fun e => absurd (hp.symm.trans e) (by decide), fun _ => rfl, rfl, hhost⟩

theorem keeps_beginCold (h : Keeps s0 s) : Keeps s0 (State.beginCold s) := by
  grind [State.beginCold, keeps_coldTime, keeps_keepThroughCold, keeps_coldBoot, keeps_fields]

theorem keeps_requestPowerCycle {a1} (h : Keeps s0 s) : Keeps s0 (State.requestPowerCycle s a1) := by
  grind [State.requestPowerCycle, keeps_notify, keeps_fields]

theorem keeps_enterSafe {a1} (h : Keeps s0 s) : Keeps s0 (State.enterSafe s a1) := by
  grind [State.enterSafe, keeps_hostLoss, keeps_abandonResets, keeps_fields]

theorem keeps_levelFive {a1} (h : Keeps s0 s) : Keeps s0 (State.levelFive s a1) := keeps_enterSafe (keeps_requestPowerCycle (keeps_fault h))

theorem keeps_triggerWarm (h : Keeps s0 s) : Keeps s0 (State.triggerWarm s) := by
  grind [State.triggerWarm, keeps_beginWarm]

theorem keeps_triggerCold (h : Keeps s0 s) : Keeps s0 (State.triggerCold s) := by
  grind [State.triggerCold, keeps_beginCold]

theorem keeps_levelFour {a1} {a2} (h : Keeps s0 s) : Keeps s0 (State.levelFour s a1 a2) := by
  grind [State.levelFour, keeps_ladderRecord, keeps_triggerCold, keeps_triggerWarm]

theorem keeps_cutSteps {a1} (h : Keeps s0 s) : Keeps s0 (State.cutSteps s a1) := by
  grind [State.cutSteps, keeps_endStep, keeps_finish, Keeps.foldl]

theorem keeps_dropRecords {a1} (h : Keeps s0 s) : Keeps s0 (State.dropRecords s a1) := keeps_fields h id id

theorem keeps_enterFormeReset {a1} {a2} {a3} (h : Keeps s0 s) : Keeps s0 (State.enterFormeReset s a1 a2 a3) := by
  unfold State.enterFormeReset
  extract_lets mine l s1 s2 isMine taken mineNow _ _ s3 s4 s5 _ s6
  have h1 : Keeps s0 s1 := keeps_ladderRecord (keeps_count h)
  have h2 : Keeps s0 s2 := keeps_cutSteps h1
  have h3 : Keeps s0 s3 := h2.upd rfl rfl rfl rfl rfl
  have h4 : Keeps s0 s4 := Keeps.foldl h3 fun _ _ => keeps_modTicket
  have h5 : Keeps s0 s5 := keeps_modPlaten h4
  have h6 : Keeps s0 s6 := keeps_modStack (keeps_setForme h5)
  exact keeps_evalFaultPin (keeps_tablesFormeDown (keeps_dropRecords h6))

theorem keeps_levelThree {a1} {a2} {a3} (h : Keeps s0 s) : Keeps s0 (State.levelThree s a1 a2 a3) := by
  grind [State.levelThree, keeps_ladderRecord, keeps_enterFormeReset, keeps_fields]

theorem keeps_levelTwo {a1} {a2} {a3} {a4} (h : Keeps s0 s) : Keeps s0 (State.levelTwo s a1 a2 a3 a4) := by
  grind [State.levelTwo, keeps_ladderRecord, keeps_levelThree, keeps_count, keeps_modGalley, keeps_cutSteps, keeps_fields]

theorem keeps_takeFault {a1} {a2} (h : Keeps s0 s) : Keeps s0 (State.takeFault s a1 a2) := by
  unfold State.takeFault
  split <;> grind [keeps_levelTwo, keeps_levelThree, keeps_levelFive, keeps_levelFour, keeps_settle]

theorem keeps_oversLow {a1} {a2} {a3} {a4} {a5} (h : Keeps s0 s) : Keeps s0 (State.oversLow s a1 a2 a3 a4 a5) := by
  grind [State.oversLow, keeps_fault]

theorem keeps_coreException {a1} {a2} {a3} (h : Keeps s0 s) : Keeps s0 (State.coreException s a1 a2 a3) := by
  grind [State.coreException, keeps_settle, keeps_loseContext, keeps_setGalley, keeps_fault]

theorem keeps_residueExhausted {a1} {a2} (h : Keeps s0 s) : Keeps s0 (State.residueExhausted s a1 a2) := by
  grind [State.residueExhausted, keeps_takeFault]

theorem keeps_sparesExhausted {a1} (h : Keeps s0 s) : Keeps s0 (State.sparesExhausted s a1) := keeps_takeFault h

theorem keeps_kernelCharge {a1} {a2} {a3} (h : Keeps s0 s) : Keeps s0 (State.kernelCharge s a1 a2 a3) := keeps_account h

theorem keeps_readSlot {a1} {a2} (h : Keeps s0 s) : Keeps s0 (State.readSlot s a1 a2).2 := by
  grind [State.readSlot, keeps_kernelCharge, keeps_ctxRead]

theorem keeps_readRest {x first n k l} (h : Keeps s0 s) : Keeps s0 (State.readRest x first n k s l).2 := by
  induction k generalizing s l with
  | zero => exact h
  | succ k ih => grind [State.readRest, keeps_readSlot]

theorem keeps_readCommand {a1} {a2} {a3} (h : Keeps s0 s) : Keeps s0 (State.readCommand s a1 a2 a3).2 := by
  unfold State.readCommand
  split
  · exact h
  split
  next e s1 h1 => exact Keeps.ofPair h1 (keeps_readSlot h)
  next b s1 h1 =>
    replace h1 := Keeps.ofPair h1 (keeps_readSlot h)
    extract_lets w
    (repeat' split) <;> first | exact h1 | exact keeps_readRest h1

theorem keeps_fetchCommand {a1} {a2} {a3} (h : Keeps s0 s) : Keeps s0 (State.fetchCommand s a1 a2 a3) := by
  grind [State.fetchCommand, keeps_modQueue, keeps_readCommand, keeps_accFault]

theorem keeps_refuse {a1} {a2} {a3} {a4} (h : Keeps s0 s) : Keeps s0 (State.refuse s a1 a2 a3 a4) := keeps_finish (keeps_modCmd h)

theorem keeps_begin_ {a1} {a2} (h : Keeps s0 s) : Keeps s0 (State.begin_ s a1 a2) := keeps_modQueue h

theorem keeps_runCmd {a1} {a2} {f3 : State → QueueSt → Cmd → State} (h : Keeps s0 s) (hf : ∀ t x1 x2,
    Keeps s0 t → Keeps s0 (f3 t x1 x2)) : Keeps s0 (State.runCmd s a1 a2 f3) := by
  grind [State.runCmd, keeps_settle, keeps_refuse]

theorem keeps_succeed {a1} {a2} {a3} (h : Keeps s0 s) : Keeps s0 (State.succeed s a1 a2 a3) := keeps_finish (keeps_begin_ h)

theorem keeps_parsePublished {x k n l} (h : Keeps s0 s) : Keeps s0 (State.parsePublished x k s n l).2 := by
  induction k generalizing s n l with
  | zero => exact h
  | succ k ih => grind [State.parsePublished, keeps_readCommand]

theorem keeps_applyFlush {a1} {a2} {a3} (h : Keeps s0 s) : Keeps s0 (State.applyFlush s a1 a2 a3) := by
  grind [State.applyFlush, keeps_parsePublished, keeps_endStep, keeps_modQueue, Keeps.foldl]

theorem keeps_queueRead {a1} {a2} {a3} (h : Keeps s0 s) : Keeps s0 (State.queueRead s a1 a2 a3).2 := by
  grind [State.queueRead, keeps_kernelCharge, keeps_ctxRead]

theorem keeps_queueWrite {a1} {a2} {a3} (h : Keeps s0 s) : Keeps s0 (State.queueWrite s a1 a2 a3).2 := by
  grind [State.queueWrite, keeps_kernelWrite, keeps_ctxWrite]

theorem keeps_cmdFault {a1} {a2} {a3} {a4} {a5} {a6} (h : Keeps s0 s) : Keeps s0 (State.cmdFault s a1 a2 a3 a4 a5 a6) := by
  grind [State.cmdFault, keeps_begin_, keeps_accFault, keeps_finish, keeps_fault]

theorem keeps_tagInst {a1} {a2} {a3} {a4} (h : Keeps s0 s) : Keeps s0 (State.tagInst s a1 a2 a3 a4) := keeps_cmdBytes h

theorem keeps_execNop {a0} : KeepsR s (execNop a0 s) := by
  grind [execNop, keeps_runCmd, keeps_succeed, KeepsR.next, Keeps.refl]

theorem keeps_makeStep {a1} {a2} {a3} {a4} {a5} {a6} {a7} {a8} {a9} (h : Keeps s0 s) :
    Keeps s0 (State.makeStep s a1 a2 a3 a4 a5 a6 a7 a8 a9) := by
  grind [State.makeStep, keeps_modQueue, keeps_fields]

theorem keeps_launch {a1} {a2} {a3} (h : Keeps s0 s) : Keeps s0 (State.launch s a1 a2 a3) := by
  unfold State.launch
  extract_lets f handle bad n sb gs
  have hbad : Keeps s0 bad := keeps_refuse h
  split
  next se cx _ _ =>
    refine Keeps.ite (fun _ => hbad) fun _ => ?_
    extract_lets im win pat d
    refine Keeps.ite (fun _ => keeps_refuse h) fun _ => ?_
    have hwin : Keeps s0 win.2 := keeps_ctxRead h
    have hpat : Keeps s0 pat.2 := by
      unfold pat
      split
      · exact hwin
      · exact keeps_ctxRead hwin
    clear_value win pat
    grind [keeps_tagInst, keeps_refuse, keeps_makeStep, keeps_cmdFault]
  · exact hbad

theorem keeps_execLaunch {a0} : KeepsR s (execLaunch a0 s) := by
  grind [execLaunch, keeps_runCmd, keeps_launch, KeepsR.next, Keeps.refl]

theorem keeps_readWait {a1} {a2} {a3} {a4} {a5} (h : Keeps s0 s) : Keeps s0 (State.readWait s a1 a2 a3 a4 a5) := by
  grind [State.readWait, keeps_modQueue, keeps_queueRead, keeps_tagInst, keeps_succeed, keeps_cmdFault]

theorem keeps_execWaitValue {a0} : KeepsR s (execWaitValue a0 s) := by
  grind [execWaitValue, keeps_runCmd, keeps_readWait, KeepsR.next, Keeps.refl]

theorem keeps_execWaitValueReread {a0} : KeepsR s (execWaitValueReread a0 s) := by
  unfold execWaitValueReread
  split <;> grind [keeps_settle, keeps_readWait, KeepsR.next, Keeps.refl]

theorem keeps_execWriteValue {a0} : KeepsR s (execWriteValue a0 s) := by
  unfold execWriteValue
  refine .next (keeps_runCmd (.refl s) fun t x1 x2 h => ?_)
  grind [keeps_queueWrite, keeps_succeed, keeps_wake, keeps_tagInst, keeps_cmdFault, KeepsR.next, Keeps.refl]

theorem keeps_execFenceReset {a0} : KeepsR s (execFenceReset a0 s) := by
  grind [execFenceReset, keeps_runCmd, keeps_refuse, keeps_succeed, keeps_fields, KeepsR.next, Keeps.refl]

theorem keeps_execQuery {a0} : KeepsR s (execQuery a0 s) := by
  unfold execQuery
  refine .next (keeps_runCmd (.refl s) fun t x1 x2 h => ?_)
  grind [keeps_refuse, keeps_queueWrite, keeps_succeed, keeps_tagInst, keeps_cmdFault, keeps_fields, KeepsR.next, Keeps.refl]

theorem keeps_sealProgram {a1} {a2} {a3} (h : Keeps s0 s) : Keeps s0 (State.sealProgram s a1 a2 a3) := by
  fun_cases State.sealProgram s a1 a2 a3
  all_goals grind [keeps_refuse, keeps_ctxRead, keeps_cmdFault, keeps_tagInst, keeps_succeed, keeps_fields]

theorem keeps_execSealProgram {a0} : KeepsR s (execSealProgram a0 s) := by
  grind [execSealProgram, keeps_runCmd, keeps_sealProgram, KeepsR.next, Keeps.refl]

theorem keeps_execUnseal {a0} : KeepsR s (execUnseal a0 s) := by
  unfold execUnseal
  refine .next (keeps_runCmd (.refl s) fun t x1 x2 h => ?_)
  grind [keeps_refuse, keeps_succeed, keeps_fields, KeepsR.next, Keeps.refl]

theorem keeps_countPages {a1} {a2} {a3} {a4} (h : Keeps s0 s) : Keeps s0 (State.countPages s a1 a2 a3 a4) := by
  grind [State.countPages, keeps_fields, Keeps.foldl]

theorem keeps_execMap {a0} : KeepsR s (execMap a0 s) := by
  unfold execMap
  refine .next (keeps_runCmd (.refl s) fun t x1 x2 h => ?_)
  grind [keeps_refuse, keeps_countPages, keeps_modCtx, keeps_succeed, keeps_friskChanged, KeepsR.next, Keeps.refl]

theorem keeps_dropLeaves {a1} {a2} (h : Keeps s0 s) : Keeps s0 (State.dropLeaves s a1 a2) := by
  grind [State.dropLeaves, keeps_countPages, keeps_modCtx, Keeps.foldl]

theorem keeps_execUnmap {a0} : KeepsR s (execUnmap a0 s) := by
  unfold execUnmap
  refine .next (keeps_runCmd (.refl s) fun t x1 x2 h => ?_)
  grind [keeps_refuse, keeps_succeed, keeps_friskChanged, keeps_dropLeaves, KeepsR.next, Keeps.refl]

theorem keeps_execMapAttr {a0} : KeepsR s (execMapAttr a0 s) := by
  refine .next (keeps_runCmd (.refl s) fun t x c ht => ?_)
  extract_lets f cid psize attr n va no sz
  split
  · exact keeps_refuse ht
  · refine Keeps.ite (fun _ => keeps_refuse ht) fun _ => ?_
    split
    · exact keeps_refuse ht
    · extract_lets at_ shared denied t1 t2
      clear_value at_ shared denied
      split
      · exact keeps_refuse ht
      · refine Keeps.ite (fun _ => keeps_refuse ht) fun _ => Keeps.ite (fun _ => keeps_refuse ht) fun _ => ?_
        split
        · exact keeps_refuse ht
        · exact keeps_refuse ht
        · have h1 : Keeps s t1 := Keeps.foldl ht fun u l hu => Keeps.ite (fun _ => hu) fun _ => Keeps.foldl hu fun v p hv => keeps_fields hv id id
          clear_value t1
          exact keeps_succeed (keeps_friskChanged (keeps_modCtx h1))

theorem keeps_execCtxCreate {a0} : KeepsR s (execCtxCreate a0 s) := by
  unfold execCtxCreate
  refine .next (keeps_runCmd (.refl s) fun t x1 x2 h => ?_)
  grind [keeps_refuse, keeps_devWrite, keeps_succeed, keeps_writeRecord, keeps_fields, KeepsR.next, Keeps.refl]

theorem keeps_freeCtx {a1} (h : Keeps s0 s) : Keeps s0 (State.freeCtx s a1) := by
  grind [State.freeCtx, keeps_evictCtx, keeps_dropLeaves, keeps_modInst, keeps_friskChanged, keeps_fields]

theorem keeps_execCtxDestroy {a0} : KeepsR s (execCtxDestroy a0 s) := by
  grind [execCtxDestroy, keeps_runCmd, keeps_refuse, keeps_succeed, keeps_freeCtx, KeepsR.next, Keeps.refl]

/-- What a command does once an ID is picked, or refused with its status, keeps what both outcomes keep. -/
theorem Keeps.picked {r : Except (Nat × Nat) Nat} {no : Nat → Nat → State} {ok : Nat → State} (hno : ∀ st d, Keeps s0 (no st d))
    (hok : ∀ id, Keeps s0 (ok id)) : Keeps s0 (match r with | .error (st, d) => no st d | .ok id => ok id) := by
  rcases r with ⟨st, d⟩ | id
  · exact hno st d
  · exact hok id

theorem keeps_execQueueCreate {a0} : KeepsR s (execQueueCreate a0 s) := by
  refine .next (keeps_runCmd (.refl s) fun t x1 x2 h => ?_)
  extract_lets f kind log2 cid no make pick
  have hno (st d : Nat) : Keeps s (no st d) := keeps_refuse h
  have hmake (id inst ctx : Nat) (ranks : List Nat) : Keeps s (make id inst ctx ranks) := keeps_succeed (h.upd rfl rfl rfl rfl rfl)
  clear_value no make pick
  split
  · exact .picked hno fun _ => hmake ..
  · split
    · exact hno ..
    · refine Keeps.ite (fun _ => hno ..) fun _ => Keeps.ite (fun _ => hno ..) fun _ => .picked hno fun _ => ?_
      split
      · exact hmake ..
      · exact hno ..
      · exact hno ..

theorem keeps_execQueueDestroy {a0} : KeepsR s (execQueueDestroy a0 s) := by
  grind [execQueueDestroy, keeps_runCmd, keeps_refuse, keeps_applyFlush, keeps_begin_, KeepsR.next, Keeps.refl]

theorem keeps_execQueueBind {a0} : KeepsR s (execQueueBind a0 s) := by
  unfold execQueueBind
  refine .next (keeps_runCmd (.refl s) fun t x1 x2 h => ?_)
  grind [keeps_refuse, keeps_modQueue, keeps_succeed, keeps_fields, KeepsR.next, Keeps.refl]

theorem keeps_execQueueFlush {a0} : KeepsR s (execQueueFlush a0 s) := by
  grind [execQueueFlush, keeps_runCmd, keeps_refuse, keeps_applyFlush, keeps_begin_, KeepsR.next, Keeps.refl]

theorem keeps_execFenceCreate {a0} : KeepsR s (execFenceCreate a0 s) := by
  unfold execFenceCreate
  refine .next (keeps_runCmd (.refl s) fun t x1 x2 h => ?_)
  grind [keeps_refuse, keeps_succeed, keeps_fields, KeepsR.next, Keeps.refl]

theorem keeps_execFenceDestroy {a0} : KeepsR s (execFenceDestroy a0 s) := by
  unfold execFenceDestroy
  refine .next (keeps_runCmd (.refl s) fun t x1 x2 h => ?_)
  grind [keeps_refuse, keeps_succeed, keeps_fields, KeepsR.next, Keeps.refl]

theorem keeps_setQuota {a1} {a2} {a3} {a4} {a5} (h : Keeps s0 s) : Keeps s0 (State.setQuota s a1 a2 a3 a4 a5) := by
  unfold State.setQuota
  split <;> grind [keeps_modPlaten, keeps_modInst, Keeps.foldl]

theorem keeps_execQuotaSet {a0} : KeepsR s (execQuotaSet a0 s) := by
  grind [execQuotaSet, keeps_runCmd, keeps_refuse, keeps_succeed, keeps_setQuota, KeepsR.next, Keeps.refl]

theorem keeps_execDbTail {a0} {a1} {a2} : KeepsR s (execDbTail a0 a1 a2 s) := by
  grind [execDbTail, keeps_modQueue, KeepsR.next, Keeps.refl]

theorem keeps_execDbCqHead {q fn v} : KeepsR s (execDbCqHead q fn v s) := by
  unfold execDbCqHead
  split
  · exact .next (.refl s)
  extract_lets h
  split
  · exact .next (keeps_modQueue (.refl s))
  · exact .next (keeps_settle (keeps_modQueue (.refl s)))

theorem keeps_execFlush {a0} {a1} : KeepsR s (execFlush a0 a1 s) := by
  grind [execFlush, keeps_settle, keeps_applyFlush, KeepsR.next, Keeps.refl]

theorem keeps_execCommandFetch {a0} : KeepsR s (execCommandFetch a0 s) := by
  grind [execCommandFetch, keeps_settle, keeps_fetchCommand, KeepsR.next, Keeps.refl]

theorem keeps_execStalledRefetch {a0} : KeepsR s (execStalledRefetch a0 s) := by
  unfold execStalledRefetch
  (repeat' split) <;> grind [keeps_settle, keeps_fetchCommand, keeps_readCommand, keeps_modQueue, keeps_accFault, KeepsR.next,
      Keeps.refl]

theorem keeps_execSpreadClaim {a0} {a1} : KeepsR s (execSpreadClaim a0 a1 s) := by
  grind [execSpreadClaim, keeps_readSlot, keeps_settle, keeps_fetchCommand, KeepsR.next, Keeps.refl]

theorem keeps_kqCreate {a1} (h : Keeps s0 s) : Keeps s0 (State.kqCreate s a1) := by
  grind [State.kqCreate, keeps_modFn, keeps_fields]

theorem keeps_writeKqCtrl {a1} {a2} (h : Keeps s0 s) : Keeps s0 (State.writeKqCtrl s a1 a2) := by
  grind [State.writeKqCtrl, keeps_modFn, keeps_lockViolation, keeps_kqCreate, keeps_settle, keeps_applyFlush]

theorem keeps_execKqEnable {a0} {a1} : KeepsR s (execKqEnable a0 a1 s) := by
  grind [execKqEnable, keeps_writeKqCtrl, KeepsR.next, Keeps.refl]

theorem keeps_execKqDisable {a0} {a1} : KeepsR s (execKqDisable a0 a1 s) := by
  grind [execKqDisable, keeps_writeKqCtrl, KeepsR.next, Keeps.refl]

theorem keeps_execPreemptSaveDone {a0} : KeepsR s (execPreemptSaveDone a0 s)  := by
  unfold execPreemptSaveDone
  split
  · exact .next (.refl s)
  refine KeepsR.ite (fun _ => .next (.refl s)) fun _ => ?_
  split
  · exact .next (.refl s)
  next p _ _ fr _ =>
  dsimp only
  have h1 {p fr} : Keeps s ((State.keepTokens s (s.saveStep p fr).2).tagInst s p.inst p.queue p.no) :=
    keeps_tagInst (keeps_keepTokens (keeps_saveStep (.refl s)))
  split
  · exact .next (keeps_settle (keeps_accFault h1))
  · exact .next (keeps_settle (keeps_endStep (keeps_finish h1)))
  · exact .next (keeps_settle (keeps_account (keeps_modCtx (keeps_modStep (Keeps.foldl h1 fun _ _ => keeps_modGalley)))))

theorem keeps_execDeadlineBudgetRefill : KeepsR s (execDeadlineBudgetRefill s) := by
  grind [execDeadlineBudgetRefill, keeps_settle, keeps_ran, keeps_fields, KeepsR.next, Keeps.refl]

theorem keeps_modLedger {a1} (h : Keeps s0 s) : Keeps s0 (State.modLedger s a1) := keeps_fields h id id

theorem keeps_execLedgerFlush : KeepsR s (execLedgerFlush s) := by
  grind [execLedgerFlush, keeps_modLedger, KeepsR.next, Keeps.refl]

theorem keeps_closePeriod {a1} {a2} {a3} {a4} {a5} (h : Keeps s0 s) : Keeps s0 (State.closePeriod s a1 a2 a3 a4 a5) :=
  keeps_fields (keeps_modLedger h) id id

theorem keeps_execPeriodClose : KeepsR s (execPeriodClose s) := by
  grind [execPeriodClose, keeps_closePeriod, KeepsR.next, Keeps.refl]

theorem keeps_execJournalAppend : KeepsR s (execJournalAppend s) := by
  unfold execJournalAppend
  split
  · exact .next (.refl s)
  · exact .next (keeps_notify (keeps_modLedger (keeps_flashWrite (keeps_flashErase (.refl s)))))

theorem keeps_runIf {a1} {a2} {a3} {f4 : State → QueueSt → Cmd → State} (h : Keeps s0 s) (hf : ∀ t x1 x2,
    Keeps s0 t → Keeps s0 (f4 t x1 x2)) : Keeps s0 (State.runIf s a1 a2 a3 f4) := by
  grind [State.runIf, keeps_runCmd]

theorem keeps_runInst {a1} {a2} {a3} {a4} {f5 : State → QueueSt → Cmd → State} (h : Keeps s0 s) (hf : ∀ t x1 x2,
    Keeps s0 t → Keeps s0 (f5 t x1 x2)) : Keeps s0 (State.runInst s a1 a2 a3 a4 f5) := by
  grind [State.runInst, keeps_runIf, keeps_refuse]

theorem keeps_withBuf {a1} {a2} {a3} {a4} {a5} {f6 : State → List Byte → State} (h : Keeps s0 s) (hf : ∀ t x1,
    Keeps s0 t → Keeps s0 (f6 t x1)) : Keeps s0 (State.withBuf s a1 a2 a3 a4 a5 f6) := by
  grind [State.withBuf, keeps_cmdFault, keeps_tagInst, keeps_kernelCharge]

theorem keeps_withGranules {a1} {a2} {a3} {f4 : State → List ℕ → State} (h : Keeps s0 s) (hf : ∀ t x1,
    Keeps s0 t → Keeps s0 (f4 t x1)) : Keeps s0 (State.withGranules s a1 a2 a3 f4) := by
  grind [State.withGranules, keeps_refuse, keeps_withBuf]

theorem keeps_execGrant {a0} : KeepsR s (execGrant a0 s) := by
  grind [execGrant, keeps_runInst, keeps_withGranules, keeps_refuse, keeps_succeed, keeps_fields, Keeps.foldl, KeepsR.next,
      Keeps.refl]

theorem keeps_execRevoke {a0} : KeepsR s (execRevoke a0 s) := by
  grind [execRevoke, keeps_runInst, keeps_withGranules, keeps_refuse, keeps_succeed, keeps_fields, Keeps.foldl, KeepsR.next,
      Keeps.refl]

theorem keeps_setPool {a1} {a2} {a3} (h : Keeps s0 s) : Keeps s0 (State.setPool s a1 a2 a3) := by
  grind [State.setPool, keeps_fields, Keeps.foldl]

theorem keeps_execPoolAdd {a0} : KeepsR s (execPoolAdd a0 s) := by
  grind [execPoolAdd, keeps_runInst, keeps_withGranules, keeps_refuse, keeps_succeed, keeps_friskChanged, keeps_setPool,
      KeepsR.next, Keeps.refl]

theorem keeps_execPoolRemove {a0} : KeepsR s (execPoolRemove a0 s) := by
  grind [execPoolRemove, keeps_runInst, keeps_withGranules, keeps_refuse, keeps_succeed, keeps_setPool, KeepsR.next, Keeps.refl]

theorem keeps_execAperture {a0} : KeepsR s (execAperture a0 s) := by
  grind [execAperture, keeps_runIf, keeps_refuse, keeps_succeed, keeps_modInst, KeepsR.next, Keeps.refl]

theorem keeps_execHdm {a0} : KeepsR s (execHdm a0 s) := by
  grind [execHdm, keeps_runIf, keeps_refuse, keeps_withBuf, keeps_succeed, keeps_fields, KeepsR.next, Keeps.refl]

theorem keeps_execStaging {a0} : KeepsR s (execStaging a0 s) := by
  grind [execStaging, keeps_runInst, keeps_refuse, keeps_withBuf, keeps_succeed, keeps_modInst, KeepsR.next, Keeps.refl]

theorem keeps_execTrackStart {a0} : KeepsR s (execTrackStart a0 s) := by
  grind [execTrackStart, keeps_runInst, keeps_succeed, keeps_modInst, keeps_fields, KeepsR.next, Keeps.refl]

theorem keeps_execTrackStop {a0} : KeepsR s (execTrackStop a0 s) := by
  grind [execTrackStop, keeps_runInst, keeps_succeed, keeps_modInst, KeepsR.next, Keeps.refl]

theorem keeps_execDirty {a0} : KeepsR s (execDirty a0 s) := by
  grind [execDirty, keeps_runInst, keeps_tagInst, keeps_kernelWrite, keeps_succeed, keeps_fields, Keeps.foldl, KeepsR.next,
      Keeps.refl]

theorem keeps_withPages {a1} {a2} {a3} {f4 : State → List (List Byte) → State} (h : Keeps s0 s) (hf : ∀ t x1,
    Keeps s0 t → Keeps s0 (f4 t x1)) : Keeps s0 (State.withPages s a1 a2 a3 f4) := by
  grind [State.withPages, keeps_refuse, keeps_withBuf]

theorem keeps_readPage {a1} (h : Keeps s0 s) : Keeps s0 (State.readPage s a1).2.2 := by
  grind [State.readPage, keeps_decodeRange, Keeps.foldl]

theorem keeps_execReadPages {a0} : KeepsR s (execReadPages a0 s) := by
  unfold execReadPages
  grind [keeps_runInst, keeps_withPages, keeps_readPage, keeps_hostWrite, keeps_succeed, Keeps.foldl,
      KeepsR.next, Keeps.refl]

theorem keeps_poisonSheets {a1} {a2} (h : Keeps s0 s) : Keeps s0 (State.poisonSheets s a1 a2) := by
  grind [State.poisonSheets, keeps_fields, Keeps.foldl]

theorem keeps_execWritePages {a0} : KeepsR s (execWritePages a0 s)  := by
  refine .next (keeps_runInst (.refl s) fun t x c h => keeps_withPages h fun t ds h => ?_)
  have hr : Keeps s (ds.foldl (fun (r : Option Nat × State) d =>
      match r.1 with
      | some _ => r
      | none => match r.2.hostRead (field d 8 8) 65536 with
        | none => (some (field d 8 8), r.2)
        | some l => (none, (r.2.devWrite (field d 0 8) l false).poisonSheets (field d 0 8) (field d 32 32))) (none, t)).2 :=
    Keeps.foldlSnd h fun r d hr => by grind [keeps_devWrite, keeps_poisonSheets]
  grind [keeps_cmdFault, keeps_succeed]

theorem keeps_withdraw {a1} (h : Keeps s0 s) : Keeps s0 (State.withdraw s a1) := by
  grind [State.withdraw, keeps_modGalley, keeps_modStep, Keeps.foldl]

theorem keeps_execFreeze {a0} : KeepsR s (execFreeze a0 s) := by
  unfold execFreeze
  refine .next (keeps_runInst (.refl s) fun t x1 x2 h => ?_)
  grind [keeps_succeed, keeps_modInst, keeps_begin_, keeps_withdraw, keeps_finish, keeps_writeRecords, keeps_refuse,
      keeps_fields, Keeps.foldl, KeepsR.next, Keeps.refl]

theorem keeps_execFreezeQuiet {a0} : KeepsR s (execFreezeQuiet a0 s)  := by
  unfold execFreezeQuiet
  split
  · exact .next (.refl s)
  split
  · exact .next (keeps_settle (keeps_finish (keeps_modInst (keeps_writeRecords (.refl s)))))
  · exact .next (.refl s)

theorem keeps_execFreezeTimeout {a0} : KeepsR s (execFreezeTimeout a0 s) := by
  grind [execFreezeTimeout, keeps_settle, keeps_finish, keeps_modInst, KeepsR.next, Keeps.refl]

theorem keeps_execThaw {a0} : KeepsR s (execThaw a0 s) := by
  grind [execThaw, keeps_runInst, keeps_succeed, keeps_modInst, keeps_refuse, KeepsR.next, Keeps.refl]

theorem keeps_execBceWeight {a0} : KeepsR s (execBceWeight a0 s) := by
  grind [execBceWeight, keeps_runInst, keeps_succeed, keeps_modInst, KeepsR.next, Keeps.refl]

theorem keeps_modBce {a1} (h : Keeps s0 s) : Keeps s0 (State.modBce s a1) := keeps_fields h id id

theorem keeps_modPair {a1} {a2} (h : Keeps s0 s) : Keeps s0 (State.modPair s a1 a2) := keeps_modBce h

theorem keeps_chargeBounce {a1} {a2} {a3} (h : Keeps s0 s) : Keeps s0 (State.chargeBounce s a1 a2 a3) := keeps_account h

theorem keeps_queueOut {a1} {a2} {a3} {a4} (h : Keeps s0 s) : Keeps s0 (State.queueOut s a1 a2 a3 a4) := by
  grind [State.queueOut, keeps_modBce]

theorem keeps_bounceErr {a1} {a2} {a3} (h : Keeps s0 s) : Keeps s0 (State.bounceErr s a1 a2 a3) := keeps_queueOut h

theorem keeps_breakStream {a1} {a2} {a3} (h : Keeps s0 s) : Keeps s0 (State.breakStream s a1 a2 a3) := by
  grind [State.breakStream, keeps_modFn, keeps_modPair, keeps_fault, keeps_bounceErr]

theorem keeps_dropPair {a1} (h : Keeps s0 s) : Keeps s0 (State.dropPair s a1) := by
  grind [State.dropPair, keeps_modBce]

theorem keeps_closePairs (h : Keeps s0 s) : Keeps s0 (State.closePairs s) := by
  grind [State.closePairs, keeps_dropPair, keeps_finish, Keeps.foldl]

theorem keeps_closeStreamsOf {a1} (h : Keeps s0 s) : Keeps s0 (State.closeStreamsOf s a1) := keeps_closePairs (keeps_modBce h)

theorem keeps_grantSlots {n} (h : Keeps s0 s) : Keeps s0 (State.grantSlots n s) := by
  induction n generalizing s with
  | zero => exact h
  | succ n ih => grind [State.grantSlots, keeps_modBce, keeps_useSlot]

theorem keeps_slotsDue (h : Keeps s0 s) : Keeps s0 (State.slotsDue s) := keeps_grantSlots h

theorem keeps_frontEnd {a1} (h : Keeps s0 s) : Keeps s0 (State.frontEnd s a1) := keeps_slotsDue (keeps_modBce h)

theorem keeps_writeRanges {c i rs l} (h : Keeps s0 s) : Keeps s0 (State.writeRanges s c i rs l) := by
  induction rs generalizing s l with
  | nil => exact h
  | cons r rs ih => exact ih (keeps_chargeTo (keeps_devWrite h))

theorem keeps_poisonRanges {a1} (h : Keeps s0 s) : Keeps s0 (State.poisonRanges s a1) := by
  grind [State.poisonRanges, keeps_fields, Keeps.foldl]

theorem keeps_writeCons {a1} {a2} (h : Keeps s0 s) : Keeps s0 (State.writeCons s a1 a2) := by
  grind [State.writeCons, keeps_chargeBounce, keeps_hostWrite, keeps_modPair]

theorem keeps_inbound {a1} {a2} {a3} {f4 : State → Pair → List Byte → ℕ → State} (h : Keeps s0 s) (hf : ∀ t x1 x2 x3,
    Keeps s0 t → Keeps s0 (f4 t x1 x2 x3)) : Keeps s0 (State.inbound s a1 a2 a3 f4) := by
  grind [State.inbound, keeps_settle, keeps_breakStream, keeps_chargeBounce]

theorem keeps_takeInbound {a1} {a2} (h : Keeps s0 s) : Keeps s0 (State.takeInbound s a1 a2) := keeps_modPair h

theorem keeps_execBounceWrite {a0} {a1} : KeepsR s (execBounceWrite a0 a1 s) := by
  unfold execBounceWrite
  refine .next (keeps_inbound (.refl s) fun t x1 x2 x3 h => ?_)
  grind [keeps_bounceErr, keeps_writeCons, keeps_takeInbound, keeps_frontEnd, keeps_chargeBounce, KeepsR.next, Keeps.refl]

theorem keeps_answerRead {a1} {a2} {a3} (h : Keeps s0 s) : Keeps s0 (State.answerRead s a1 a2 a3) := by
  grind [State.answerRead, keeps_bounceErr, keeps_chargeTo, keeps_decodeRange, keeps_queueOut, Keeps.foldl]

theorem keeps_execBounceRead {a0} {a1} : KeepsR s (execBounceRead a0 a1 s) := by
  unfold execBounceRead
  refine .next (keeps_inbound (.refl s) fun t x1 x2 x3 h => ?_)
  (repeat' split) <;> grind [keeps_writeCons, keeps_takeInbound, keeps_chargeBounce, keeps_breakStream, keeps_bounceErr,
      keeps_answerRead, keeps_modBce, KeepsR.next, Keeps.refl]

theorem keeps_execBouncePad {a0} {a1} : KeepsR s (execBouncePad a0 a1 s) := by
  grind [execBouncePad, keeps_inbound, keeps_writeCons, keeps_takeInbound, KeepsR.next, Keeps.refl]

theorem keeps_execParkedReadRecheck {a0} : KeepsR s (execParkedReadRecheck a0 s) := by
  unfold execParkedReadRecheck
  split <;> grind [keeps_modBce, keeps_bounceErr, keeps_answerRead, KeepsR.next, Keeps.refl]

theorem keeps_leaveSlot {a1} {a2} (h : Keeps s0 s) : Keeps s0 (State.leaveSlot s a1 a2) := keeps_slotsDue (keeps_unuseSlot (keeps_modBce h))

theorem keeps_finishInbound {a1} {a2} {a3} (h : Keeps s0 s) : Keeps s0 (State.finishInbound s a1 a2 a3) := by
  grind [State.finishInbound, keeps_leaveSlot, keeps_modQueue, keeps_queueOut, keeps_writeCons, keeps_poisonRanges,
      keeps_breakStream]

theorem keeps_finishOutbound {a1} {a2} (h : Keeps s0 s) : Keeps s0 (State.finishOutbound s a1 a2) := by
  grind [State.finishOutbound, keeps_leaveSlot, keeps_hostWrite, keeps_chargeBounce, keeps_modPair]

theorem keeps_execBceSegmentDone {a0} : KeepsR s (execBceSegmentDone a0 s)  := by
  unfold execBceSegmentDone
  split
  · exact .next (.refl s)
  split
  · exact .next (.refl s)
  dsimp only
  split
  · exact .next (.refl s)
  refine KeepsR.ite (fun _ => .next (keeps_settle (keeps_closePairs (Keeps.ite (fun _ => ?_) fun _ => ?_)))) fun _ => ?_
  · exact keeps_finishOutbound (keeps_modBce (keeps_modBce (.refl s)))
  · exact keeps_modBce (keeps_modBce (.refl s))
  split
  · exact .next (keeps_settle (keeps_closePairs (keeps_bounceErr (keeps_writeCons (keeps_leaveSlot (keeps_modBce (keeps_modBce (.refl s))))))))
  · refine KeepsR.ite (fun _ => .next (keeps_settle (keeps_closePairs (keeps_finishInbound ?_)))) fun _ => .next ?_ <;>
      exact keeps_writeRanges (keeps_modBce (keeps_modBce (.refl s)))

theorem keeps_execOutboundMessageSend {a0} {a1} : KeepsR s (execOutboundMessageSend a0 a1 s)  := by
  unfold execOutboundMessageSend
  extract_lets k s1 s2
  split
  next y m _ _ =>
    refine KeepsR.ite (fun _ => .next (.refl s)) fun _ => ?_
    split
    · exact .next (.refl s)
    have h1 : Keeps s s1 := keeps_chargeBounce (.refl s)
    have h2 : Keeps s s2 := keeps_modBce h1
    clear_value s1 s2
    extract_lets cons size room pad seq hdr s3
    have h3 : Keeps s s3 := keeps_hostWrite (keeps_hostWrite h1)
    refine KeepsR.ite (fun _ => ?_) fun _ => ?_
    · exact KeepsR.ite (fun _ => .next (keeps_chargeBounce (keeps_modPair h3))) fun _ => .next h1
    · exact KeepsR.ite (fun _ => .next (keeps_frontEnd (keeps_modPair h2))) fun _ => .next h1
  · exact .next (.refl s)

theorem keeps_readProd {a1} (h : Keeps s0 s) : Keeps s0 (State.readProd s a1)  := by
  unfold State.readProd
  split
  · exact h
  refine Keeps.ite (fun _ => h) fun _ => ?_
  split
  · exact h
  extract_lets p s1
  have h1 : Keeps s0 s1 := keeps_chargeBounce (keeps_modPair h)
  exact Keeps.ite (fun _ => keeps_modPair h1) fun _ => keeps_breakStream h1

theorem keeps_execFnBncKick {a0} {a1} : KeepsR s (execFnBncKick a0 a1 s) := by
  grind [execFnBncKick, keeps_readProd, KeepsR.next, Keeps.refl]

theorem keeps_execBounceProdPoll : KeepsR s (execBounceProdPoll s) := by
  grind [execBounceProdPoll, keeps_readProd, Keeps.foldl, KeepsR.next, Keeps.refl]

theorem keeps_openPair {a1} {a2} {a3} {a4} {a5} {a6} {a7} (h : Keeps s0 s) : Keeps s0 (State.openPair s a1 a2 a3 a4 a5 a6 a7) := by
  grind [State.openPair, keeps_modSlot, keeps_modBce, Keeps.foldl]

theorem keeps_execStreamOpen {a0} : KeepsR s (execStreamOpen a0 s) := by
  grind [execStreamOpen, keeps_runInst, keeps_refuse, keeps_withBuf, keeps_openPair, keeps_succeed, KeepsR.next, Keeps.refl]

theorem keeps_execStreamClose {a0} : KeepsR s (execStreamClose a0 s) := by
  grind [execStreamClose, keeps_runInst, keeps_refuse, keeps_closePairs, keeps_modPair, keeps_begin_, KeepsR.next, Keeps.refl]

theorem keeps_bceDropPairs {a1} {a2} (h : Keeps s0 s) : Keeps s0 (State.bceDropPairs s a1 a2) := by
  grind [State.bceDropPairs, keeps_poisonRanges, keeps_unuseSlot, keeps_dropPair, keeps_finish, Keeps.foldl]

theorem keeps_bceDrop {a1} {a2} (h : Keeps s0 s) : Keeps s0 (State.bceDrop s a1 a2) := keeps_bceDropPairs h

theorem keeps_writeBncCtrl {a1} {a2} (h : Keeps s0 s) : Keeps s0 (State.writeBncCtrl s a1 a2) := by
  grind [State.writeBncCtrl, keeps_modFn, keeps_lockViolation, keeps_closePairs, keeps_modPair, keeps_openPair]

theorem keeps_execBncEnable {a0} {a1} : KeepsR s (execBncEnable a0 a1 s) := by
  grind [execBncEnable, keeps_settle, keeps_writeBncCtrl, KeepsR.next, Keeps.refl]

theorem keeps_execBncDisable {a0} {a1} : KeepsR s (execBncDisable a0 a1 s) := by
  grind [execBncDisable, keeps_settle, keeps_writeBncCtrl, KeepsR.next, Keeps.refl]

theorem keeps_hardMismatch {a1} {a2} {a3} {a4} (h : Keeps s0 s) : Keeps s0 (State.hardMismatch s a1 a2 a3 a4) := by
  grind [State.hardMismatch, keeps_residueExhausted, keeps_setSliver, keeps_modGalley, keeps_sparesExhausted]

theorem keeps_sortNext {a1} {a2} {a3} (h : Keeps s0 s) : Keeps s0 (State.sortNext s a1 a2 a3) := by
  grind [State.sortNext, keeps_coreException, keeps_setSliver]

theorem keeps_runSort {a1} {a2} {a3} {a4} (h : Keeps s0 s) : Keeps s0 (State.runSort s a1 a2 a3 a4) := by
  grind [State.runSort, keeps_sortNext, keeps_setSliver, keeps_coreException, keeps_hardMismatch, keeps_fields]

theorem keeps_runUnit {a1} {a2} {a3} {a4} (h : Keeps s0 s) : Keeps s0 (State.runUnit s a1 a2 a3 a4) := by
  grind [State.runUnit, keeps_runSort, keeps_stepCharge]

theorem keeps_compNext {a1} {a2} (h : Keeps s0 s) : Keeps s0 (State.compNext s a1 a2) := by
  grind [State.compNext, keeps_coreException, keeps_modGalley]

theorem keeps_runComp {a1} {a2} (h : Keeps s0 s) : Keeps s0 (State.runComp s a1 a2) := by
  grind [State.runComp, keeps_compNext, keeps_modGalley, keeps_coreException]

theorem keeps_scalarWrite {a1} {a2} {a3} {a4} {a5} (h : Keeps s0 s) : Keeps s0 (State.scalarWrite s a1 a2 a3 a4 a5) := by
  grind [State.scalarWrite, keeps_runSort, keeps_runComp]

theorem keeps_scalarJump {a1} {a2} {a3} (h : Keeps s0 s) : Keeps s0 (State.scalarJump s a1 a2 a3) := by
  grind [State.scalarJump, keeps_runSort, keeps_runComp]

theorem keeps_execAlu {a0} {a1} {a2} {a3} {a4} : KeepsR s (execAlu a0 a1 a2 a3 a4 s) := .next (keeps_scalarWrite (.refl s))

theorem keeps_execMul {a0} {a1} {a2} {a3} {a4} : KeepsR s (execMul a0 a1 a2 a3 a4 s) := .next (keeps_scalarWrite (.refl s))

theorem keeps_execDiv {a0} {a1} {a2} {a3} {a4} : KeepsR s (execDiv a0 a1 a2 a3 a4 s) := .next (keeps_scalarWrite (.refl s))

theorem keeps_execCmp {a0} {a1} {a2} {a3} {a4} : KeepsR s (execCmp a0 a1 a2 a3 a4 s) := .next (keeps_scalarWrite (.refl s))

theorem keeps_execCount {a0} {a1} {a2} {a3} {a4} : KeepsR s (execCount a0 a1 a2 a3 a4 s) := .next (keeps_scalarWrite (.refl s))

theorem keeps_execAluImm {a0} {a1} {a2} {a3} {a4} : KeepsR s (execAluImm a0 a1 a2 a3 a4 s) := .next (keeps_scalarWrite (.refl s))

theorem keeps_execLui {a0} {a1} {a2} : KeepsR s (execLui a0 a1 a2 s) := .next (keeps_scalarWrite (.refl s))

theorem keeps_execBranch {a0} {a1} {a2} {a3} {a4} : KeepsR s (execBranch a0 a1 a2 a3 a4 s) := .next (keeps_scalarJump (.refl s))

theorem keeps_execJal {a0} {a1} {a2} : KeepsR s (execJal a0 a1 a2 s) := .next (keeps_scalarJump (.refl s))

theorem keeps_execJalr {a0} {a1} {a2} {a3} : KeepsR s (execJalr a0 a1 a2 a3 s) := .next (keeps_scalarJump (.refl s))

theorem keeps_execLoad {a0} {a1} {a2} {a3} {a4} : KeepsR s (execLoad a0 a1 a2 a3 a4 s) := by
  grind [execLoad, keeps_runSort, keeps_runComp, KeepsR.next, Keeps.refl]

theorem keeps_execStore {a0} {a1} {a2} {a3} {a4} : KeepsR s (execStore a0 a1 a2 a3 a4 s) := by
  unfold execStore
  split <;> grind [keeps_runSort, keeps_coreException, keeps_compNext, keeps_forwardReport, keeps_modGalley, KeepsR.next,
      Keeps.refl]

theorem keeps_execDstart {a0} {a1} {a2} {a3} : KeepsR s (execDstart a0 a1 a2 a3 s) := by
  grind [execDstart, keeps_coreException, keeps_compNext, keeps_setGalley, KeepsR.next, Keeps.refl]

theorem keeps_execDwait {a0} {a1} {a2} {a3} : KeepsR s (execDwait a0 a1 a2 a3 s) := .next (keeps_runComp (.refl s))

theorem keeps_execDstat {a0} {a1} {a2} {a3} : KeepsR s (execDstat a0 a1 a2 a3 s) := .next (keeps_runComp (.refl s))

theorem keeps_execGmove {a0} {a1} {a2} {a3} : KeepsR s (execGmove a0 a1 a2 a3 s) := by
  unfold execGmove
  split <;> grind [keeps_coreException, keeps_compNext, keeps_setGalley, KeepsR.next, Keeps.refl]

theorem keeps_execGmwait {a0} {a1} {a2} {a3} : KeepsR s (execGmwait a0 a1 a2 a3 s) := .next (keeps_runComp (.refl s))

theorem keeps_execGflush {a0} {a1} {a2} {a3} : KeepsR s (execGflush a0 a1 a2 a3 s) := .next (keeps_runComp (.refl s))

theorem keeps_execQwait {a0} {a1} {a2} {a3} : KeepsR s (execQwait a0 a1 a2 a3 s) := by
  grind [execQwait, keeps_noteTook, keeps_runComp, KeepsR.next, Keeps.refl]

theorem keeps_execQtake {a0} {a1} {a2} {a3} : KeepsR s (execQtake a0 a1 a2 a3 s)  := by
  unfold execQtake
  extract_lets y k
  split
  · exact .next (.refl s)
  split
  · exact .next (keeps_coreException (.refl s))
  split
  · exact .next (.refl s)
  · exact .next (keeps_compNext (keeps_modStep (keeps_openMailbox (keeps_modCmd (keeps_noteTook (keeps_setGalley (.refl s)))))))

theorem keeps_execQinfo {a0} {a1} {a2} {a3} : KeepsR s (execQinfo a0 a1 a2 a3 s) := .next (keeps_runComp (.refl s))

theorem keeps_execQexit {a0} {a1} {a2} {a3} : KeepsR s (execQexit a0 a1 a2 a3 s) := by
  grind [execQexit, keeps_coreException, keeps_setGalley, KeepsR.next, Keeps.refl]

theorem keeps_stepAccess {a1} {a2} (h : Keeps s0 s) : Keeps s0 (State.stepAccess s a1 a2) := by
  unfold State.stepAccess
  split <;> grind [keeps_loseContext, keeps_accFault, keeps_endStep, keeps_finish]

theorem keeps_moveRow {a1} {a2} {a3} {a4} (h : Keeps s0 s) : Keeps s0 (State.moveRow s a1 a2 a3 a4).2 := by
  grind [State.moveRow, keeps_ctxRead, keeps_modGalley, keeps_ctxWrite]

theorem keeps_execMoveDone {a0} {a1} : KeepsR s (execMoveDone a0 a1 s)  := by
  unfold execMoveDone
  extract_lets y sb _
  split
  next m c _ _ =>
    extract_lets r _ s1 s2
    have hr : Keeps s r.2 := Keeps.foldlSnd (.refl s) fun r i hr => by grind [keeps_moveRow]
    have h1 : Keeps s s1 := keeps_tagCmd (hr.upd rfl rfl rfl rfl rfl)
    have h2 : Keeps s s2 := keeps_modGalley h1
    split
    · exact .next (keeps_stepCharge h2)
    · exact .next (keeps_settle (keeps_stepAccess h2))
  · exact .next (.refl s)

theorem keeps_execQdone {a0} {a1} {a2} {a3} : KeepsR s (execQdone a0 a1 a2 a3 s)  := by
  unfold execQdone
  extract_lets y k fl s1
  refine KeepsR.ite (fun _ => .next (.refl s)) fun _ => ?_
  refine KeepsR.ite (fun _ => .next (keeps_coreException (.refl s))) fun _ => ?_
  refine KeepsR.ite (fun _ => .next (.refl s)) fun _ => ?_
  split
  · exact .next (keeps_compNext (.refl s))
  extract_lets s2
  have h2 : Keeps s s2 := keeps_modStep (keeps_compNext (keeps_setGalley (.refl s)))
  split
  · exact .next h2
  exact KeepsR.ite (fun _ => .next (keeps_settle (keeps_finish (keeps_endStep h2)))) fun _ => .next (keeps_settle h2)

theorem keeps_execLockstepCheck {a0} {a1} : KeepsR s (execLockstepCheck a0 a1 s) := by
  grind [execLockstepCheck, keeps_takeFault, KeepsR.next, Keeps.refl]

theorem keeps_execImageLoadVerify {a0} : KeepsR s (execImageLoadVerify a0 s) := by
  unfold execImageLoadVerify
  dsimp only
  split
  · refine KeepsR.ite (fun _ => .next (.refl s)) fun _ => KeepsR.ite (fun _ =>
      .next (keeps_settle (keeps_endStep (keeps_finish (.refl s))))) fun _ => ?_
    split
    next e => exact .next (keeps_settle (keeps_stepAccess (.ofPair e (keeps_ctxRead (.refl s)))))
    next s1 e =>
      have h1 : Keeps s s1 := .ofPair e (keeps_ctxRead (.refl s))
      exact KeepsR.ite (fun _ => .next (keeps_modGalley (keeps_tagCmd h1))) fun _ =>
        .next (keeps_settle (keeps_loseContext (keeps_tagCmd h1)))
  · exact .next (.refl s)

theorem keeps_modConn {a1} {a2} (h : Keeps s0 s) : Keeps s0 (State.modConn s a1 a2) := keeps_fields h id id

theorem keeps_modPort {a1} {a2} (h : Keeps s0 s) : Keeps s0 (State.modPort s a1 a2) := keeps_fields h id id

theorem keeps_portCount {a1} {a2} (h : Keeps s0 s) : Keeps s0 (State.portCount s a1 a2) := keeps_count h

theorem keeps_sendFrame {a1} {a2} {a3} {a4} (h : Keeps s0 s) : Keeps s0 (State.sendFrame s a1 a2 a3 a4) := by
  grind [State.sendFrame, keeps_modPort, keeps_portCount, keeps_fields]

theorem keeps_drainPort {p n} (h : Keeps s0 s) : Keeps s0 (State.drainPort p n s) := by
  induction n generalizing s with
  | zero => exact h
  | succ n ih =>
    unfold State.drainPort
    extract_lets
    split
    · exact h
    · exact ih (keeps_portCount (keeps_fields (keeps_modPort h) id id))

theorem keeps_drainTx {a1} (h : Keeps s0 s) : Keeps s0 (State.drainTx s a1) := keeps_drainPort h

theorem keeps_sendQuire {a1} {a2} {a3} {a4} {a5} {a6} {a7} {a8} {a9} (h : Keeps s0 s) :
    Keeps s0 (State.sendQuire s a1 a2 a3 a4 a5 a6 a7 a8 a9) := by
  grind [State.sendQuire, keeps_account, keeps_modConn, keeps_sendFrame]

theorem keeps_netBytes {a1} {a2} {a3} (h : Keeps s0 s) : Keeps s0 (State.netBytes s a1 a2 a3) := keeps_account h

theorem keeps_msgDone {a1} {a2} {a3} {a4} {a5} (h : Keeps s0 s) : Keeps s0 (State.msgDone s a1 a2 a3 a4 a5) := by
  grind [State.msgDone, keeps_ctxWrite, keeps_accFault, keeps_modConn, keeps_fields]

theorem keeps_sendAck {a1} {a2} (h : Keeps s0 s) : Keeps s0 (State.sendAck s a1 a2) := by
  grind [State.sendAck, keeps_sendQuire, keeps_modConn, Keeps.foldl]

theorem keeps_sendNack {a1} {a2} {a3} (h : Keeps s0 s) : Keeps s0 (State.sendNack s a1 a2 a3) := keeps_sendQuire h

theorem keeps_retireSends {a0} {a1} (h : Keeps s0 s) : Keeps s0 (State.retireSends a0 a1 s) := by
  induction a1 generalizing s with
  | zero => exact h
  | succ k ih =>
    unfold State.retireSends
    extract_lets y wr r1
    split
    · exact h
    split
    · exact h
    extract_lets va cons r2 r3 r4
    have hwr : ∀ {r a l}, Keeps s0 r.2 → Keeps s0 (wr r a l).2 := by
      intro r a l hr
      unfold wr
      split
      · exact hr
      · exact keeps_ctxWrite hr
    have h1 : Keeps s0 r1.2 := h
    have h2 : Keeps s0 r2.2 := by
      unfold r2
      split
      · exact h1
      · exact hwr h1
    have h3 : Keeps s0 r3.2 := by
      unfold r3
      split
      · exact h2
      · exact hwr h2
    have h4 : Keeps s0 r4.2 := hwr h3
    clear_value wr r4
    split
    · exact h
    · exact keeps_accFault h4
    · exact ih (keeps_modConn h4)

theorem keeps_retireAll {a1} (h : Keeps s0 s) : Keeps s0 (State.retireAll s a1) := keeps_retireSends h

theorem keeps_sendDone {a1} {a2} {a3} {a4} (h : Keeps s0 s) : Keeps s0 (State.sendDone s a1 a2 a3 a4) := keeps_retireAll (keeps_modConn h)

theorem keeps_stopConn {a1} {a2} (h : Keeps s0 s) : Keeps s0 (State.stopConn s a1 a2) := by
  grind [State.stopConn, keeps_modConn, keeps_retireAll, keeps_fields]

theorem keeps_breakConn {a1} {a2} (h : Keeps s0 s) : Keeps s0 (State.breakConn s a1 a2) := by
  grind [State.breakConn, keeps_stopConn, keeps_modConn, keeps_fault]

theorem keeps_connFault {a1} {a2} (h : Keeps s0 s) : Keeps s0 (State.connFault s a1 a2) := keeps_accFault h

theorem keeps_runTable {a1} {a2} {f3 : State → QueueSt → Cmd → State} (h : Keeps s0 s) (hf : ∀ t x1 x2,
    Keeps s0 t → Keeps s0 (f3 t x1 x2)) : Keeps s0 (State.runTable s a1 a2 f3) := by
  grind [State.runTable, keeps_runCmd]

theorem keeps_execTableDefine {a0} : KeepsR s (execTableDefine a0 s) := by
  unfold execTableDefine
  refine .next (keeps_runTable (.refl s) fun t x1 x2 h => ?_)
  split <;> grind [keeps_refuse, keeps_cmdFault, keeps_tagInst, keeps_kernelCharge, keeps_begin_, keeps_fields, KeepsR.next,
      Keeps.refl]

theorem keeps_execTableDefineDone {a0} : KeepsR s (execTableDefineDone a0 s) := by
  unfold execTableDefineDone
  dsimp only
  split
  · refine KeepsR.ite (fun _ => .next (.refl s)) fun _ => .next (keeps_settle (keeps_finish (keeps_descWritten (keeps_modTable (keeps_zeroBuckets ?_)))))
    exact Keeps.upd (.refl s) rfl rfl rfl rfl rfl
  · exact .next (.refl s)

theorem keeps_execTableRetire {a0} : KeepsR s (execTableRetire a0 s) := by
  unfold execTableRetire
  refine .next (keeps_runTable (.refl s) fun t x1 x2 h => ?_)
  grind [keeps_refuse, keeps_mapPlatens, keeps_modTable, keeps_begin_, keeps_descWritten, KeepsR.next, Keeps.refl]

theorem keeps_execTableRetireDone {a0} : KeepsR s (execTableRetireDone a0 s) := by
  grind [execTableRetireDone, keeps_settle, keeps_finish, keeps_freeTable, KeepsR.next, Keeps.refl]

theorem keeps_execTableAdopt {a0} : KeepsR s (execTableAdopt a0 s) := by
  unfold execTableAdopt
  refine .next (keeps_runTable (.refl s) fun t x1 x2 h => ?_)
  grind [keeps_refuse, keeps_modTable, keeps_succeed, keeps_descWritten, keeps_fields, KeepsR.next, Keeps.refl]

theorem keeps_orphanCut {a1} (h : Keeps s0 s) : Keeps s0 (State.orphanCut s a1) := by
  grind [State.orphanCut, keeps_orphanTables, keeps_finish]

theorem keeps_modRec {a1} {a2} (h : Keeps s0 s) : Keeps s0 (State.modRec s a1 a2) := keeps_fields h id id

theorem keeps_forwardRecs (h : Keeps s0 s) : Keeps s0 (State.forwardRecs s) := by
  grind [State.forwardRecs, keeps_modRec, Keeps.foldl]

theorem keeps_writeResult {a1} {a2} (h : Keeps s0 s) : Keeps s0 (State.writeResult s a1 a2).2 := by
  unfold State.writeResult
  split <;> grind [keeps_queueWrite, keeps_accFault, keeps_ctxWrite]

theorem keeps_flushResults (h : Keeps s0 s) : Keeps s0 (State.flushResults s) := by
  refine Keeps.foldlFst h fun a p ha => ?_
  split
  · exact ha
  next res _ =>
  have ht := keeps_writeResult ha (a1 := p.2) (a2 := res)
  dsimp only
  split <;> split
  · exact ha
  · split
    · exact ha
    · exact keeps_fields ht id id
  · exact ha
  · split
    · exact ha
    · exact keeps_fields ht id id

theorem keeps_endBufs (h : Keeps s0 s) : Keeps s0 (State.endBufs s) := by
  grind [State.endBufs, keeps_finish, keeps_msgDone, keeps_modConn, keeps_fields, Keeps.foldl]

theorem keeps_endRings (h : Keeps s0 s) : Keeps s0 (State.endRings s) := by
  grind [State.endRings, keeps_ctxWrite, keeps_accFault, keeps_finish, keeps_fields, Keeps.foldl]

theorem keeps_updSettle (h : Keeps s0 s) : Keeps s0 (State.updSettle s) := by
  unfold State.updSettle
  grind [keeps_settle, keeps_endRings, keeps_endBufs, keeps_flushResults, keeps_forwardRecs]

theorem keeps_takeRecord {a1} {a2} {a3} {a4} {a5} {a6} {a7} {a8} {a9} (h : Keeps s0 s) :
    Keeps s0 (State.takeRecord s a1 a2 a3 a4 a5 a6 a7 a8 a9) := by
  grind [State.takeRecord, keeps_fields]

theorem keeps_bufRead {a1} {a2} {a3} (h : Keeps s0 s) : Keeps s0 (State.bufRead s a1 a2 a3).2 := by
  grind [State.bufRead, keeps_queueRead]

theorem keeps_modBuf {a1} {a2} (h : Keeps s0 s) : Keeps s0 (State.modBuf s a1 a2) := keeps_fields h id id

theorem keeps_bufFault {a1} {a2} (h : Keeps s0 s) : Keeps s0 (State.bufFault s a1 a2) := by
  unfold State.bufFault
  split <;> grind [keeps_cmdFault, keeps_fields]

theorem keeps_bufRecord {a1} (h : Keeps s0 s) : Keeps s0 (State.bufRecord s a1) := by
  unfold State.bufRecord
  extract_lets left sb tag
  have htag {t : State} (ht : Keeps s0 t) : Keeps s0 (tag t) := by
    unfold tag
    split
    · exact keeps_tagInst ht
    · exact ht
  split
  next e => exact keeps_bufFault (htag (.ofPair e (keeps_bufRead h)))
  next s1 e =>
    have h1 : Keeps s0 s1 := .ofPair e (keeps_bufRead h)
    extract_lets pay n
    refine Keeps.ite (fun _ => keeps_modBuf (keeps_takeRecord (htag h1))) fun _ => ?_
    split
    next e => exact keeps_bufFault (htag (.ofPair e (keeps_bufRead h1)))
    next e => exact keeps_modBuf (keeps_takeRecord (htag (.ofPair e (keeps_bufRead h1))))

theorem keeps_ringFault {a1} {a2} {a3} (h : Keeps s0 s) : Keeps s0 (State.ringFault s a1 a2 a3) := keeps_loseContext h

theorem keeps_ringRecord {a1} {a2} {a3} {a4} (h : Keeps s0 s) : Keeps s0 (State.ringRecord s a1 a2 a3 a4) := by
  unfold State.ringRecord
  grind [keeps_ctxRead, keeps_accFault, keeps_takeRecord, keeps_ringFault, keeps_fields]

theorem keeps_execUpdateRecord {a0} : KeepsR s (execUpdateRecord a0 s) := by
  unfold execUpdateRecord
  split <;> grind [keeps_updSettle, keeps_ringRecord, keeps_bufRecord, KeepsR.next, Keeps.refl]

theorem keeps_execPad {a0} {a1} : KeepsR s (execPad a0 a1 s) := by
  grind [execPad, keeps_updSettle, keeps_ringRecord, KeepsR.next, Keeps.refl]

theorem keeps_execUpdateRows {a0} : KeepsR s (execUpdateRows a0 s) := by
  grind [execUpdateRows, keeps_runCmd, keeps_begin_, keeps_fields, KeepsR.next, Keeps.refl]

theorem keeps_execUpdateRingRegister {a0} : KeepsR s (execUpdateRingRegister a0 s) := by
  grind [execUpdateRingRegister, keeps_runIf, keeps_refuse, keeps_succeed, keeps_fields, KeepsR.next, Keeps.refl]

theorem keeps_execUpdateRingRemove {a0} : KeepsR s (execUpdateRingRemove a0 s) := by
  grind [execUpdateRingRemove, keeps_updSettle, keeps_runIf, keeps_refuse, keeps_begin_, keeps_fields, KeepsR.next, Keeps.refl]

theorem keeps_execUpdateRingPoll {a0} {a1} : KeepsR s (execUpdateRingPoll a0 a1 s) := by
  unfold execUpdateRingPoll
  (repeat' split) <;> grind [keeps_ctxRead, keeps_settle, keeps_accFault, keeps_ringFault, keeps_fields, KeepsR.next, Keeps.refl]

theorem keeps_execEpochFence {a0} : KeepsR s (execEpochFence a0 s) := by
  grind [execEpochFence, keeps_runCmd, keeps_begin_, keeps_fields, KeepsR.next, Keeps.refl]

theorem keeps_execEpochFenceDone {a0} {a1} : KeepsR s (execEpochFenceDone a0 a1 s) := by
  grind [execEpochFenceDone, keeps_settle, keeps_finish, keeps_fields, KeepsR.next, Keeps.refl]

theorem keeps_execRecentWriteRotate : KeepsR s (execRecentWriteRotate s) := by
  grind [execRecentWriteRotate, keeps_ran, keeps_fields, KeepsR.next, Keeps.refl]

theorem keeps_findEntry {a1} {a2} {a3} (h : Keeps s0 s) : Keeps s0 (State.findEntry s a1 a2 a3).2 := by
  unfold State.findEntry
  split <;> dsimp only
  next e => exact .ofPair e (keeps_readSheet h)
  next s1 e =>
    have h1 : Keeps s0 s1 := .ofPair e (keeps_readSheet h)
    split
    · exact h1
    split
    · exact h1
    split
    next e => exact .ofPair e (keeps_readSheet h1)
    next e => exact .ofPair e (keeps_readSheet h1)

theorem keeps_putEntry {a1} {a2} {a3} {a4} {a5} {a6} (h : Keeps s0 s) : Keeps s0 (State.putEntry s a1 a2 a3 a4 a5 a6) := keeps_tableWrite h

theorem keeps_mapEntry {a1} {a2} {a3} (h : Keeps s0 s) : Keeps s0 (State.mapEntry s a1 a2 a3).2 := by
  grind [State.mapEntry, keeps_readSheet]

theorem keeps_putMap {a1} {a2} {a3} {a4} {a5} (h : Keeps s0 s) : Keeps s0 (State.putMap s a1 a2 a3 a4 a5) := keeps_tableWrite h

theorem keeps_shadow {a1} {a2} {a3} {a4} {a5} {f6 : State → ℕ → State} (h : Keeps s0 s) (hf : ∀ t x1,
    Keeps s0 t → Keeps s0 (f6 t x1)) : KeepsA s0 (State.shadow s a1 a2 a3 a4 a5 f6) := by
  grind [State.shadow, keeps_slotWithRow, keeps_freeSlot, KeepsA, KeepsW]

theorem keeps_writeRow {a1} {a2} {a3} {a4} {a5} {a6} {f7 : State → State} {f8 : State → ℕ → State} (h : Keeps s0 s) (hf : ∀ t,
    Keeps s0 t → Keeps s0 (f7 t)) (hf : ∀ t x1, Keeps s0 t → Keeps s0 (f8 t x1)) :
        KeepsA s0 (State.writeRow s a1 a2 a3 a4 a5 a6 f7 f8) := by
  grind [State.writeRow, keeps_shadow, keeps_writeSlot, KeepsA, KeepsW]

theorem keeps_writeEntryRow {a1} {a2} {a3} {a4} {a5} {a6} {a7} (h : Keeps s0 s) :
    KeepsA s0 (State.writeEntryRow s a1 a2 a3 a4 a5 a6 a7) := by
  grind [State.writeEntryRow, keeps_writeRow, keeps_putEntry, KeepsA, KeepsW]

theorem keeps_applyWrite {a1} {a2} {a3} {a4} {a5} (h : Keeps s0 s) : KeepsA s0 (State.applyWrite s a1 a2 a3 a4 a5) := by
  have hf := keeps_findEntry h (a1 := a3) (a2 := a4) (a3 := a2.key)
  have hm := keeps_mapEntry h (a1 := a3) (a2 := a4) (a3 := a2.key)
  have hw := keeps_writeSlot h (a1 := a2.table) (a2 := a3) (a3 := a4) (a4 := a2.key) (a5 := a2.payload)
  unfold State.applyWrite
  dsimp only
  split
  · split
    next e => exact .ofPair e hf
    next e => exact keeps_writeEntryRow (.ofPair e hf)
    next s1 e =>
      have h1 : Keeps s0 s1 := .ofPair e hf
      (repeat' split) <;> first | exact h1 | exact Keeps.ofPair ‹_› (keeps_queueInsert h1)
  split
  · split
    next e => exact .ofPair e hm
    next s1 e =>
      have h1 : Keeps s0 s1 := .ofPair e hm
      split
      · exact keeps_writeRow h1 (fun _ h => h) (fun _ _ => keeps_putMap)
      split
      · exact h1
      split
      · exact h1
      split
      next e => exact .ofPair e (keeps_slotWithRow h1)
      next e => exact .ofPair e (keeps_slotWithRow h1)
      next e => exact keeps_putMap (.ofPair e (keeps_slotWithRow h1))
  · split
    next e => exact .ofPair e hw
    next e => exact .ofPair e hw

theorem keeps_applyDelete {a1} {a2} {a3} (h : Keeps s0 s) : KeepsA s0 (State.applyDelete s a1 a2 a3) := by
  unfold State.applyDelete
  split <;> grind [keeps_findEntry, keeps_readSheet, keeps_evict, keeps_mapEntry, keeps_freeSlot, keeps_putMap, KeepsA, KeepsW]

theorem keeps_applyPin {a1} {a2} {a3} {a4} (h : Keeps s0 s) : KeepsA s0 (State.applyPin s a1 a2 a3 a4) := by
  grind [State.applyPin, keeps_findEntry, keeps_putEntry, KeepsA, KeepsW]

theorem keeps_applyRaw {a1} {a2} {a3} {a4} (h : Keeps s0 s) : KeepsA s0 (State.applyRaw s a1 a2 a3 a4) := by
  grind [State.applyRaw, keeps_tableWrite, keeps_modPlaten, KeepsA, KeepsW, Keeps.foldl]

theorem keeps_applyRec {n op : Nat} {f : State → UpdRec → Nat → TableDesc → Bool → Applied} (h : Keeps s0 s)
    (hf : ∀ r p d m, KeepsA s0 (f s r p d m)) : Keeps s0 (State.applyRec s n op f) := by
  unfold State.applyRec
  split
  · exact h
  next r p _ =>
    split
    · exact keeps_updSettle (keeps_modRec h)
    next d _ =>
      have hd := hf r p d (p != d.home)
      split
      · exact h
      next e => exact keeps_updSettle (keeps_modRec (by rw [e] at hd; exact hd))
      next e =>
        rw [e] at hd
        exact Keeps.ite (fun _ => h) fun _ => keeps_updSettle (keeps_modRec hd)

theorem keeps_execWrite {a0} : KeepsR s (execWrite a0 s) := by
  grind [execWrite, keeps_applyRec, keeps_applyWrite, KeepsR.next, Keeps.refl]

theorem keeps_execWriteInsert {a0} : KeepsR s (execWriteInsert a0 s) := by
  grind [execWriteInsert, keeps_applyRec, keeps_applyWrite, KeepsR.next, Keeps.refl]

theorem keeps_execDelete {a0} : KeepsR s (execDelete a0 s) := by
  grind [execDelete, keeps_applyRec, keeps_applyDelete, KeepsR.next, Keeps.refl]

theorem keeps_execPin {a0} : KeepsR s (execPin a0 s) := by
  grind [execPin, keeps_applyRec, keeps_applyPin, KeepsR.next, Keeps.refl]

theorem keeps_execUnpin {a0} : KeepsR s (execUnpin a0 s) := by
  grind [execUnpin, keeps_applyRec, keeps_applyPin, KeepsR.next, Keeps.refl]

theorem keeps_execRawSheets {a0} : KeepsR s (execRawSheets a0 s) := by
  grind [execRawSheets, keeps_applyRec, keeps_applyRaw, KeepsR.next, Keeps.refl]

/-- The state of a record that is done. -/
theorem keepsA_done {r : Applied} {t : State} {a b : Nat} (e : r = .done t a b) (h : KeepsA s0 r) : Keeps s0 t := by
  rw [e] at h
  exact h

theorem keeps_placeHead {a1} {a2} {a3} {a4} (h : Keeps s0 s) : Keeps s0 (State.placeHead s a1 a2 a3 a4).1 := by
  unfold State.placeHead
  have hi := keeps_placeInsert (a1 := a1) (a2 := a2) (a3 := a3.id) (a4 := a4.map (fun r => (r.payload, r.version % 4096))) h
  split
  next e => exact Keeps.ofPair e hi
  next e => exact Keeps.ofPair e hi
  next e =>
    have h1 := Keeps.ofPair e hi
    split
    · exact h1
    split
    next e => exact Keeps.ofPair e (keeps_readSheet h1)
    next e =>
      have h2 := Keeps.ofPair e (keeps_readSheet h1)
      split
      next e =>
        exact keepsA_done e (keeps_writeEntryRow h2)
      · exact h2

theorem keeps_execInsertPlace {a0} : KeepsR s (execInsertPlace a0 s) := by
  unfold execInsertPlace
  split
  · exact .next (.refl s)
  extract_lets s1 give
  have hgive {t : State} {n} (ht : Keeps s t) : Keeps s (give t n) := by
    unfold give
    split
    · exact keeps_updSettle (keeps_modRec ht)
    · exact ht
  have h1 : Keeps s s1 := keeps_modPlaten (.refl s)
  refine KeepsR.ite (fun _ => .next (.refl s)) fun _ => ?_
  split
  · exact .next (hgive h1)
  · exact KeepsR.ite (fun _ => .next (.refl s)) fun _ => KeepsR.ite (fun _ => .next (.refl s)) fun _ =>
      .next (hgive (keeps_placeHead h1))

theorem keeps_squashLookups {a1} (h : Keeps s0 s) : Keeps s0 (State.squashLookups s a1) := keeps_fields h id id

theorem keeps_resetInstance {a1} {a2} {a3} {a4} (h : Keeps s0 s) : Keeps s0 (State.resetInstance s a1 a2 a3 a4) := by
  grind [State.resetInstance, keeps_modInst, keeps_finish, keeps_squashLookups, keeps_endStep, keeps_fields, Keeps.foldl]

theorem keeps_flushInstance {a1} (h : Keeps s0 s) : Keeps s0 (State.flushInstance s a1) := by
  grind [State.flushInstance, keeps_parsePublished, keeps_modQueue, Keeps.foldl]

theorem keeps_freeQueues {a1} (h : Keeps s0 s) : Keeps s0 (State.freeQueues s a1) := by
  grind [State.freeQueues, keeps_finish, keeps_fields, Keeps.foldl]

theorem keeps_freeObjects {a1} (h : Keeps s0 s) : Keeps s0 (State.freeObjects s a1) := by
  unfold State.freeObjects
  extract_lets s1 s2 s3 s4
  have h1 : Keeps s0 s1 := keeps_fields h id id
  have h2 : Keeps s0 s2 := Keeps.foldl h1 fun t p ht => keeps_freeCtx (Keeps.ite (fun _ => ht) fun _ => keeps_modCtx ht)
  have h3 : Keeps s0 s3 := keeps_bceDrop (keeps_orphanCut h2)
  have h4 : Keeps s0 s4 := Keeps.foldl h3 fun _ _ => keeps_emptySlot
  exact keeps_fields h4 id id

theorem keeps_execInstanceResetDone {a0} : KeepsR s (execInstanceResetDone a0 s) := by
  unfold execInstanceResetDone
  split
  · exact .next (.refl s)
  dsimp only
  refine .next (keeps_settle (keeps_modInst (keeps_freeObjects (keeps_freeQueues (keeps_pump (Keeps.foldl ?_ fun _ _ => keeps_finish))))))
  have h1 {r : Bool} : Keeps s (if r then s.flushInstance a0 else s) := Keeps.ite (fun _ => keeps_flushInstance (.refl s)) fun _ => .refl s
  exact Keeps.ite (fun _ => keeps_pump (Keeps.foldl h1 fun _ _ => keeps_modCmd)) fun _ => h1

theorem keeps_execFlrVf {a0} : KeepsR s (execFlrVf a0 s) := by
  grind [execFlrVf, keeps_settle, keeps_resetInstance, KeepsR.next, Keeps.refl]

theorem keeps_execFlrPf : KeepsR s (execFlrPf s) := by
  grind [execFlrPf, keeps_settle, keeps_resetInstance, Keeps.foldl, KeepsR.next, Keeps.refl]

theorem keeps_execD3hotToD0 {a0} : KeepsR s (execD3hotToD0 a0 s) := by
  grind [execD3hotToD0, keeps_settle, keeps_resetInstance, keeps_modInst, KeepsR.next, Keeps.refl]

theorem keeps_execVfEnableSet {a0} : KeepsR s (execVfEnableSet a0 s) := by
  grind [execVfEnableSet, keeps_modInst, keeps_fields, Keeps.foldl, KeepsR.next, Keeps.refl]

theorem keeps_execVfEnableClear {a0} : KeepsR s (execVfEnableClear a0 s) := by
  grind [execVfEnableClear, keeps_settle, keeps_resetInstance, keeps_fields, Keeps.foldl, KeepsR.next, Keeps.refl]

theorem keeps_execResetContext {a0} : KeepsR s (execResetContext a0 s) := by
  grind [execResetContext, keeps_runIf, keeps_refuse, keeps_succeed, keeps_loseContext, KeepsR.next, Keeps.refl]

theorem keeps_execResetQueue {a0} : KeepsR s (execResetQueue a0 s) := by
  grind [execResetQueue, keeps_runIf, keeps_refuse, keeps_modQueue, keeps_applyFlush, keeps_begin_, KeepsR.next, Keeps.refl]

theorem keeps_execResetInstance {a0} : KeepsR s (execResetInstance a0 s) := by
  grind [execResetInstance, keeps_runIf, keeps_refuse, keeps_resetInstance, keeps_begin_, KeepsR.next, Keeps.refl]

theorem keeps_execResetGalley {a0} : KeepsR s (execResetGalley a0 s) := by
  grind [execResetGalley, keeps_runIf, keeps_refuse, keeps_levelTwo, keeps_begin_, KeepsR.next, Keeps.refl]

theorem keeps_execResetForme {a0} : KeepsR s (execResetForme a0 s) := by
  grind [execResetForme, keeps_runIf, keeps_refuse, keeps_levelThree, keeps_begin_, KeepsR.next, Keeps.refl]

theorem keeps_execResetBlock {a0} : KeepsR s (execResetBlock a0 s) := by
  grind [execResetBlock, keeps_runIf, keeps_levelFour, KeepsR.next, Keeps.refl]

theorem keeps_proofRead {a1} {a2} {a3} (h : Keeps s0 s) : Keeps s0 (State.proofRead s a1 a2 a3).2 := by
  unfold State.proofRead
  split
  · exact h
  refine Keeps.foldlSnd h fun r p hr => ?_
  split
  · exact hr
  split
  · exact hr
  · exact hr
  · dsimp only
    split
    · exact keeps_decodeRange hr
    · exact keeps_decodeRange hr

theorem keeps_proofWrite {a1} {a2} {a3} (h : Keeps s0 s) : Keeps s0 (State.proofWrite s a1 a2 a3).2 := by
  grind [State.proofWrite, keeps_hostWrite, keeps_devWrite, Keeps.foldl]

theorem keeps_modSeq {a1} {a2} (h : Keeps s0 s) : Keeps s0 (State.modSeq s a1 a2) := keeps_fields h id id

theorem keeps_freeSeq {a1} (h : Keeps s0 s) : Keeps s0 (State.freeSeq s a1) := keeps_fields h id id

theorem keeps_dropSlice {a1} (h : Keeps s0 s) : Keeps s0 (State.dropSlice s a1) := by
  grind [State.dropSlice, keeps_fault, keeps_fields, Keeps.foldl]

theorem keeps_servingLost {a1} (h : Keeps s0 s) : Keeps s0 (State.servingLost s a1) := by
  grind [State.servingLost, keeps_dropSlice, keeps_fields, Keeps.foldl]

theorem keeps_rollBack {a1} {a2} (h : Keeps s0 s) : Keeps s0 (State.rollBack s a1 a2).2 := by
  grind [State.rollBack, keeps_proofWrite, keeps_modSeq]

theorem keeps_servingBack {a1} (h : Keeps s0 s) : Keeps s0 (State.servingBack s a1) := by
  grind [State.servingBack, keeps_rollBack, keeps_modSeq, keeps_fields, Keeps.foldl]

theorem keeps_patrolGroup {a1} {a2} (h : Keeps s0 s) : Keeps s0 (State.patrolGroup s a1 a2) := by
  grind [State.patrolGroup, keeps_count, keeps_memLog, keeps_decodeGroup]

theorem keeps_execScrubStep {a0} : KeepsR s (execScrubStep a0 s) := by
  grind [execScrubStep, keeps_modStack, keeps_settle, keeps_patrolGroup, Keeps.foldl, KeepsR.next, Keeps.refl]

theorem keeps_execFrameRetireDone {a0} : KeepsR s (execFrameRetireDone a0 s) := by
  unfold execFrameRetireDone
  split <;> grind [keeps_decodeGroup, keeps_modStack, keeps_fault, keeps_settle, keeps_nextRetire, Keeps.foldl, KeepsR.next,
      Keeps.refl]

theorem keeps_execFlashListAppend {a0} : KeepsR s (execFlashListAppend a0 s) := by
  grind [execFlashListAppend, keeps_flashWrite, keeps_modStack, KeepsR.next, Keeps.refl]

theorem keeps_execCeTrackerClear : KeepsR s (execCeTrackerClear s) := by
  grind [execCeTrackerClear, keeps_ran, keeps_fields, KeepsR.next, Keeps.refl]

theorem keeps_execWriteQueueTurn {a0} {a1} : KeepsR s (execWriteQueueTurn a0 a1 s) := by
  grind [execWriteQueueTurn, keeps_modStack, KeepsR.next, Keeps.refl]

theorem keeps_execRefresh {a0} : KeepsR s (execRefresh a0 s) := by
  grind [execRefresh, keeps_modStack, KeepsR.next, Keeps.refl]

theorem keeps_execStackTempRead {a0} {a1} : KeepsR s (execStackTempRead a0 a1 s) := by
  grind [execStackTempRead, keeps_modStack, keeps_fault, KeepsR.next, Keeps.refl]

theorem keeps_execTrainingRecordWrite {a0} {a1} : KeepsR s (execTrainingRecordWrite a0 a1 s) := by
  grind [execTrainingRecordWrite, keeps_modStack, KeepsR.next, Keeps.refl]

theorem keeps_setStack {a1} {a2} (h : Keeps s0 s) : Keeps s0 (State.setStack s a1 a2) := keeps_setForme (keeps_modStack h)

theorem keeps_contentLost {a1} (h : Keeps s0 s) : Keeps s0 (State.contentLost s a1) := by
  refine keeps_fault (keeps_servingLost (keeps_tablesFormeDown (keeps_modStack ?_)))
  exact keeps_fields h (memWf_mclear _ _) id

theorem keeps_stackFailed {a1} {a2} (h : Keeps s0 s) : Keeps s0 (State.stackFailed s a1 a2) :=
  keeps_evalFaultPin (keeps_fault (keeps_servingLost (keeps_tablesFormeDown (keeps_setForme (keeps_setStack h)))))

theorem keeps_stackReady {a1} (h : Keeps s0 s) : Keeps s0 (State.stackReady s a1) := by
  grind [State.stackReady, keeps_modStack, keeps_setStack, keeps_contentLost]

theorem keeps_formeBack {a1} (h : Keeps s0 s) : Keeps s0 (State.formeBack s a1) := by
  unfold State.formeBack
  grind [keeps_setForme, keeps_evalFaultPin, keeps_servingBack, keeps_tablesFormeUp, keeps_fields]

theorem keeps_execFullTrainingDone {a0} {a1} {a2} : KeepsR s (execFullTrainingDone a0 a1 a2 s) := by
  unfold execFullTrainingDone
  split <;> grind [keeps_settle, keeps_stackFailed, keeps_stackReady, keeps_modStack, keeps_formeBack, KeepsR.next, Keeps.refl]

theorem keeps_execWarmRestoreDone {a0} {a1} {a2} {a3} : KeepsR s (execWarmRestoreDone a0 a1 a2 a3 s) := by
  grind [execWarmRestoreDone, keeps_modStack, keeps_settle, keeps_stackReady, keeps_setStack, KeepsR.next, Keeps.refl]

theorem keeps_execZeroFillDone {a0} : KeepsR s (execZeroFillDone a0 s) :=
  KeepsR.ite (fun _ => .next (.refl s)) fun _ => .next (keeps_modStack (keeps_fields (.refl s) (memWf_mclear _ _) id))

theorem keeps_execSelfRefreshTimeout {a0} : KeepsR s (execSelfRefreshTimeout a0 s) := by
  grind [execSelfRefreshTimeout, keeps_modStack, KeepsR.next, Keeps.refl]

theorem keeps_writeFltCtrl {a1} {a2} (h : Keeps s0 s) : Keeps s0 (State.writeFltCtrl s a1 a2) := by
  grind [State.writeFltCtrl, keeps_lockViolation, keeps_modFn]

theorem keeps_execFnFltEnable {a0} {a1} : KeepsR s (execFnFltEnable a0 a1 s) := by
  grind [execFnFltEnable, keeps_writeFltCtrl, KeepsR.next, Keeps.refl]

theorem keeps_logRecord {a1} (h : Keeps s0 s) : Keeps s0 (State.logRecord s a1) := by
  grind [State.logRecord, keeps_flashErase, keeps_flashWrite, keeps_fields]

theorem keeps_commitRecords (h : Keeps s0 s) : Keeps s0 (State.commitRecords s) := by
  grind [State.commitRecords, keeps_logRecord, keeps_fields, Keeps.foldl]

theorem keeps_execFaultFlush : KeepsR s (execFaultFlush s) := by
  grind [execFaultFlush, keeps_commitRecords, keeps_fault, keeps_fields, Keeps.foldl, KeepsR.next, Keeps.refl]

theorem keeps_breakCycles {n} (h : Keeps s0 s) : Keeps s0 (State.breakCycles n s) := by
  induction n generalizing s with
  | zero => exact h
  | succ n ih =>
    unfold State.breakCycles
    split
    · exact h
    split
    · exact h
    · exact ih (keeps_loseContext h)

theorem keeps_execWgmScan : KeepsR s (execWgmScan s) := by
  grind [execWgmScan, keeps_settle, keeps_breakCycles, keeps_ran, KeepsR.next, Keeps.refl]

theorem keeps_execQueueWatchdog {a0} : KeepsR s (execQueueWatchdog a0 s) := by
  grind [execQueueWatchdog, keeps_modQueue, keeps_settle, keeps_loseContext, KeepsR.next, Keeps.refl]

theorem keeps_execKqWatchdog {a0} : KeepsR s (execKqWatchdog a0 s) := by
  grind [execKqWatchdog, keeps_modQueue, keeps_fault, KeepsR.next, Keeps.refl]

theorem keeps_execContextTeardownDone {a0} : KeepsR s (execContextTeardownDone a0 s) := by
  unfold execContextTeardownDone
  split
  · exact .next (.refl s)
  · exact KeepsR.ite (fun _ => .next (.refl s)) fun _ =>
      .next (keeps_updSettle (keeps_writeRecord (keeps_modFn (keeps_modCtx (keeps_fields (.refl s) id id)))))

theorem keeps_execLadderBoundMissed {a0} : KeepsR s (execLadderBoundMissed a0 s) := by
  unfold execLadderBoundMissed
  split <;> grind [keeps_takeFault, KeepsR.next, Keeps.refl]

theorem keeps_retireGalley {a1} (h : Keeps s0 s) : Keeps s0 (State.retireGalley s a1) := by
  grind [State.retireGalley, keeps_fault, keeps_levelThree, keeps_cutSteps, keeps_fields]

theorem keeps_galleyBack {a1} {a2} (h : Keeps s0 s) : Keeps s0 (State.galleyBack s a1 a2) := by
  grind [State.galleyBack, keeps_finish, keeps_fields, Keeps.foldl]

theorem keeps_oldGalley {a1} {a2} {a3} (h : Keeps s0 s) : Keeps s0 (State.oldGalley s a1 a2 a3) := by
  grind [State.oldGalley, keeps_fields]

theorem keeps_sparesLow {a1} (h : Keeps s0 s) : Keeps s0 (State.sparesLow s a1) := by
  grind [State.sparesLow, keeps_oversLow]

theorem keeps_execGalleyResetDone {a0} {a1} {a2} : KeepsR s (execGalleyResetDone a0 a1 a2 s) := by
  unfold execGalleyResetDone
  split
  · exact .next (.refl s)
  dsimp only
  refine KeepsR.ite (fun _ => .next (keeps_settle (keeps_galleyBack (keeps_fields (.refl s) id id)))) fun _ => ?_
  split
  · exact .next (keeps_settle (keeps_retireGalley (keeps_galleyBack (.refl s))))
  refine KeepsR.ite (fun _ => ?_) fun _ => ?_
  · exact .next (keeps_settle (keeps_galleyBack (keeps_sparesLow (keeps_modGalley (keeps_fields (keeps_oldGalley (.refl s)) id id)))))
  split
  · exact .next (keeps_fields (.refl s) id id)
  · exact .next (keeps_settle (keeps_retireGalley (keeps_galleyBack (keeps_sparesLow (keeps_fields (.refl s) id id)))))

theorem keeps_execFormeResetDone {a0} {a1} {a2} : KeepsR s (execFormeResetDone a0 a1 a2 s) := by
  unfold execFormeResetDone
  split
  · exact .next (.refl s)
  refine KeepsR.ite (fun _ => .next (.refl s)) fun _ => ?_
  extract_lets isIt _ s1 s2 n live _ _ s3 s4 bad _ s5
  have h2 : Keeps s s2 := keeps_standbyBack (keeps_fields (.refl s) id id)
  clear_value s2
  have h3 : Keeps s s3 :=
    Keeps.ite (fun _ => keeps_fault (keeps_setForme h2)) fun _ => Keeps.ite (fun _ => keeps_setForme h2) fun _ => keeps_formeBack h2
  clear_value s3
  have h4 : Keeps s s4 := Keeps.foldl (keeps_evalFaultPin h3) fun t w ht => keeps_finish ht
  clear_value s4
  have h5 : Keeps s s5 := Keeps.ite (fun _ => Keeps.foldl h4 fun t w ht => keeps_levelTwo ht) fun _ => h4
  exact .next (keeps_updSettle h5)

theorem keeps_execMcHeartbeatMiss : KeepsR s (execMcHeartbeatMiss s) := by
  grind [execMcHeartbeatMiss, keeps_takeFault, KeepsR.next, Keeps.refl]

theorem keeps_execMcWatchdog : KeepsR s (execMcWatchdog s) := by
  grind [execMcWatchdog, keeps_takeFault, KeepsR.next, Keeps.refl]

theorem keeps_stickFault {a1} {a2} (h : Keeps s0 s) : Keeps s0 (State.stickFault s a1 a2) := by
  grind [State.stickFault, keeps_modGalley, keeps_sparesExhausted]

theorem keeps_execUnitFault {a0} : KeepsR s (execUnitFault a0 s) := by
  unfold execUnitFault
  split <;> grind [keeps_takeFault, keeps_stickFault, KeepsR.next, Keeps.refl]

theorem keeps_execFabricLinkFault {a0} {a1} {a2} : KeepsR s (execFabricLinkFault a0 a1 a2 s) := by
  grind [execFabricLinkFault, keeps_takeFault, keeps_fault, keeps_oversLow, keeps_fields, KeepsR.next, Keeps.refl]

theorem keeps_execRotatingTestStart {a0} : KeepsR s (execRotatingTestStart a0 s) := by
  unfold execRotatingTestStart
  refine KeepsR.ite (fun _ => .next (.refl s)) fun _ => ?_
  split
  · exact .next (.refl s)
  dsimp only
  split
  · exact .next (.refl s)
  refine KeepsR.ite (fun _ => .next (.refl s)) fun _ => KeepsR.ite (fun _ => .next (keeps_fault (.refl s))) fun _ => ?_
  split
  · exact .next (.refl s)
  · exact .next (keeps_fields (.refl s) id id)

theorem keeps_execIftDone {a0} {a1} {a2} : KeepsR s (execIftDone a0 a1 a2 s) := by
  unfold execIftDone
  split
  · exact .next (.refl s)
  refine KeepsR.ite (fun _ => .next (.refl s)) fun _ => ?_
  split
  · exact .next (keeps_fields (.refl s) id id)
  dsimp only
  refine KeepsR.ite (fun _ => .next ?_) fun _ => .next (keeps_oversLow (keeps_fault ?_)) <;>
    exact keeps_modGalley (keeps_fields (.refl s) id id)

theorem keeps_sendPfc {a1} {a2} {a3} (h : Keeps s0 s) : Keeps s0 (State.sendPfc s a1 a2 a3) := by
  grind [State.sendPfc, keeps_portCount, keeps_fields]

theorem keeps_setOcc {a1} {a2} {a3} (h : Keeps s0 s) : Keeps s0 (State.setOcc s a1 a2 a3) := by
  grind [State.setOcc, keeps_modPort, keeps_sendPfc]

theorem keeps_instOnly {a : State} {c : Nat} (h : Keeps s0 s) : Keeps s0 (State.instOnly a c s) := by
  unfold State.instOnly
  split
  · exact keeps_modCtx h
  · exact h

theorem keeps_readIngestCons {a1} (h : Keeps s0 s) : Keeps s0 (State.readIngestCons s a1) := by
  grind [State.readIngestCons, keeps_ctxRead, keeps_modConn, keeps_instOnly, keeps_connFault]

theorem keeps_ingestWrite {a1} {a2} {a3} {a4} {a5} (h : Keeps s0 s) : Keeps s0 (State.ingestWrite s a1 a2 a3 a4 a5).2 := by
  grind [State.ingestWrite, keeps_readIngestCons, keeps_ctxWrite, keeps_connFault, keeps_modConn, keeps_instOnly]

theorem keeps_startUpdate {a1} {a2} {a3} (h : Keeps s0 s) : Keeps s0 (State.startUpdate s a1 a2 a3) := keeps_modConn (keeps_fields h id id)

theorem keeps_takeInOrder {a0} {a1} (h : Keeps s0 s) : Keeps s0 (State.takeInOrder a0 a1 s) := by
  induction a1 generalizing s with
  | zero => exact h
  | succ k ih =>
    unfold State.takeInOrder
    extract_lets y next
    split
    · exact h
    · extract_lets gone r
      have hg : ∀ {t}, Keeps s0 t → Keeps s0 (gone t) := fun ht => keeps_setOcc (keeps_modConn ht)
      have hn : ∀ {t}, Keeps s0 t → Keeps s0 (next t) := fun ht => keeps_modConn ht
      have hr : Keeps s0 r.2 := keeps_ingestWrite h
      clear_value gone next r
      exact Keeps.ite (fun _ => ih (hn (hg h))) fun _ => Keeps.ite (fun _ => ih (keeps_startUpdate (hn (hg h)))) fun _ =>
        Keeps.ite (fun _ => hr) fun _ => Keeps.ite (fun _ => ih (keeps_msgDone (hn (hg hr)))) fun _ => keeps_sendNack (hg hr)

theorem keeps_ackDup {a1} {a2} {a3} (h : Keeps s0 s) : Keeps s0 (State.ackDup s a1 a2 a3) := by
  grind [State.ackDup, keeps_modConn, keeps_sendAck]

theorem keeps_rxOrdered {a1} {a2} {a3} (h : Keeps s0 s) : Keeps s0 (State.rxOrdered s a1 a2 a3) := by
  fun_cases State.rxOrdered s a1 a2 a3
  all_goals grind [keeps_ackDup, keeps_sendNack, keeps_netBytes, keeps_modConn, keeps_setOcc, keeps_takeInOrder]

theorem keeps_rxGather {a1} {a2} {a3} (h : Keeps s0 s) : Keeps s0 (State.rxGather s a1 a2 a3) := by
  unfold State.rxGather
  extract_lets y lh d dup id tk g _ s1 s2 s3
  refine Keeps.ite (fun _ => h) fun _ => Keeps.ite (fun _ => keeps_sendNack h) fun _ => Keeps.ite (fun _ => keeps_sendNack h) fun _ => ?_
  have h1 : Keeps s0 s1 := keeps_fields h (fun e => e) (fun e => e)
  clear_value s1
  have h2 : Keeps s0 s2 := keeps_sendList (keeps_netBytes (keeps_modConn h1))
  clear_value s2
  have h3 : Keeps s0 s3 := keeps_modConn h2
  exact Keeps.ite (fun _ => keeps_ackDup h2) fun _ => keeps_msgDone (keeps_takeInOrder h3)

theorem keeps_rxFrame {a1} {a2} {a3} {f4 : State → ℕ → QHdr → List Byte → State} (h : Keeps s0 s) (hf : ∀ t x1 x2 x3,
    Keeps s0 t → Keeps s0 (f4 t x1 x2 x3)) : Keeps s0 (State.rxFrame s a1 a2 a3 f4) := by
  grind [State.rxFrame, keeps_portCount, keeps_sendNack, keeps_updSettle]

theorem keeps_execRemoteGather {a0} {a1} : KeepsR s (execRemoteGather a0 a1 s) := by
  grind [execRemoteGather, keeps_rxFrame, keeps_rxGather, KeepsR.next, Keeps.refl]

theorem keeps_execTableUpdate {a0} {a1} : KeepsR s (execTableUpdate a0 a1 s) := by
  grind [execTableUpdate, keeps_rxFrame, keeps_rxOrdered, KeepsR.next, Keeps.refl]

theorem keeps_execIngest {a0} {a1} : KeepsR s (execIngest a0 a1 s) := by
  grind [execIngest, keeps_rxFrame, keeps_rxOrdered, KeepsR.next, Keeps.refl]

theorem keeps_execGatherExecutionDone {a0} : KeepsR s (execGatherExecutionDone a0 s) := by
  grind [execGatherExecutionDone, keeps_settle, keeps_sendQuire, keeps_netBytes, keeps_fields, Keeps.foldl, KeepsR.next, Keeps.refl]

theorem keeps_modOut {a1} {a2} {a3} (h : Keeps s0 s) : Keeps s0 (State.modOut s a1 a2 a3) := keeps_modConn h

theorem keeps_rxReply {a1} {a2} {a3} (h : Keeps s0 s) : Keeps s0 (State.rxReply s a1 a2 a3) := by
  fun_cases State.rxReply s a1 a2 a3
  all_goals grind [keeps_netBytes, keeps_ctxWrite, keeps_connFault, keeps_modOut, keeps_sendDone]

theorem keeps_execGatherReply {a0} {a1} : KeepsR s (execGatherReply a0 a1 s) := by
  grind [execGatherReply, keeps_rxFrame, keeps_rxReply, KeepsR.next, Keeps.refl]

theorem keeps_rxAck {a1} {a2} {a3} (h : Keeps s0 s) : Keeps s0 (State.rxAck s a1 a2 a3) := by
  grind [State.rxAck, keeps_modConn, keeps_retireAll]

theorem keeps_execAck {a0} {a1} : KeepsR s (execAck a0 a1 s) := by
  grind [execAck, keeps_rxFrame, keeps_rxAck, KeepsR.next, Keeps.refl]

theorem keeps_execNack {a0} {a1} : KeepsR s (execNack a0 a1 s) := by
  grind [execNack, keeps_rxFrame, keeps_breakConn, KeepsR.next, Keeps.refl]

theorem keeps_execRawFrameIngest {a0} {a1} : KeepsR s (execRawFrameIngest a0 a1 s) := by
  unfold execRawFrameIngest
  (repeat' split) <;> grind [keeps_portCount, keeps_sendNack, keeps_ingestWrite, keeps_settle, keeps_account, KeepsR.next,
      Keeps.refl]

theorem keeps_execPfcFrame {a0} {a1} : KeepsR s (execPfcFrame a0 a1 s) := by
  grind [execPfcFrame, keeps_modPort, keeps_portCount, keeps_drainTx, Keeps.foldl, KeepsR.next, Keeps.refl]

theorem keeps_execPfcQuantaExpiry {a0} {a1} : KeepsR s (execPfcQuantaExpiry a0 a1 s) := by
  grind [execPfcQuantaExpiry, keeps_drainTx, keeps_modPort, KeepsR.next, Keeps.refl]

theorem keeps_execPfcRefresh {a0} : KeepsR s (execPfcRefresh a0 s) := by
  grind [execPfcRefresh, keeps_modPort, keeps_sendPfc, Keeps.foldl, KeepsR.next, Keeps.refl]

theorem keeps_execPfcXon {a0} {a1} : KeepsR s (execPfcXon a0 a1 s) := by
  grind [execPfcXon, keeps_sendPfc, keeps_modPort, KeepsR.next, Keeps.refl]

theorem keeps_execPortLinkUp {a0} : KeepsR s (execPortLinkUp a0 s) := by
  grind [execPortLinkUp, keeps_modPort, KeepsR.next, Keeps.refl]

theorem keeps_execPortLinkDown {a0} : KeepsR s (execPortLinkDown a0 s) := by
  grind [execPortLinkDown, keeps_modPort, KeepsR.next, Keeps.refl]

theorem keeps_sendReadFault {a1} {a2} (h : Keeps s0 s) : Keeps s0 (State.sendReadFault s a1 a2) := by
  unfold State.sendReadFault
  split <;> grind [keeps_breakConn, keeps_connFault]

theorem keeps_sendFormat {a1} (h : Keeps s0 s) : Keeps s0 (State.sendFormat s a1) := by
  grind [State.sendFormat, keeps_loseContext, keeps_breakConn]

theorem keeps_sendEntries {a0} {a1} (h : Keeps s0 s) : Keeps s0 (State.sendEntries a0 a1 s) := by
  induction a1 generalizing s with
  | zero => exact h
  | succ k ih =>
    unfold State.sendEntries
    extract_lets y size room va
    refine Keeps.ite (fun _ => h) fun _ => ?_
    split
    next e => exact keeps_sendReadFault (Keeps.ofPair e (keeps_ctxRead h))
    next e =>
      have h1 := Keeps.ofPair e (keeps_ctxRead h)
      refine Keeps.ite (fun _ => keeps_sendFormat h1) fun _ => Keeps.ite (fun _ => ih (keeps_retireAll (keeps_modConn h1))) fun _ => ?_
      extract_lets pay t
      split
      next e => exact keeps_sendReadFault (Keeps.ofPair e (keeps_ctxRead h1))
      next e =>
        have h2 := Keeps.ofPair e (keeps_ctxRead h1)
        extract_lets total o s3
        have h3 : Keeps s0 s3 := keeps_modConn h2
        exact Keeps.ite (fun _ => keeps_sendFormat h2) fun _ => ih (keeps_sendQuire (keeps_netBytes h3))

theorem keeps_execSendRingPoll {a0} : KeepsR s (execSendRingPoll a0 s) := by
  fun_cases execSendRingPoll a0 s
  all_goals grind [keeps_ctxRead, keeps_settle, keeps_sendReadFault, keeps_sendFormat, keeps_modConn, keeps_sendEntries,
      KeepsR.next, Keeps.refl]

theorem keeps_resend {a1} {a2} (h : Keeps s0 s) : Keeps s0 (State.resend s a1 a2) := by
  grind [State.resend, keeps_breakConn, keeps_ctxRead, keeps_sendReadFault, keeps_sendQuire, keeps_modOut]

theorem keeps_execRtoExpiry {a0} {a1} : KeepsR s (execRtoExpiry a0 a1 s) := by
  grind [execRtoExpiry, keeps_settle, keeps_resend, KeepsR.next, Keeps.refl]

theorem keeps_execGatherReplyTimeout {a0} {a1} : KeepsR s (execGatherReplyTimeout a0 a1 s) := by
  grind [execGatherReplyTimeout, keeps_settle, keeps_resend, KeepsR.next, Keeps.refl]

theorem keeps_execAckSend {a0} : KeepsR s (execAckSend a0 s) := by
  grind [execAckSend, keeps_sendAck, keeps_modConn, Keeps.foldl, KeepsR.next, Keeps.refl]

theorem keeps_execIngestConsPoll {a0} : KeepsR s (execIngestConsPoll a0 s) := by
  grind [execIngestConsPoll, keeps_settle, keeps_readIngestCons, KeepsR.next, Keeps.refl]

theorem keeps_openConn {a1} (h : Keeps s0 s) : Keeps s0 (State.openConn s a1) := by
  grind [State.openConn, keeps_modSlot, keeps_ctxRead, keeps_ctxWrite, keeps_modConn]

theorem keeps_closeConn {a1} (h : Keeps s0 s) : Keeps s0 (State.closeConn s a1) := by
  grind [State.closeConn, keeps_stopConn, keeps_modConn]

theorem keeps_renonce {a1} (h : Keeps s0 s) : Keeps s0 (State.renonce s a1) := by
  grind [State.renonce, keeps_modSlot, keeps_modConn, Keeps.foldl]

theorem keeps_signDik {a1} (h : Keeps s0 s) : Keeps s0 (State.signDik s a1).2 := keeps_fields h id id

theorem keeps_keyStatement {a1} {a2} (h : Keeps s0 s) : Keeps s0 (State.keyStatement s a1 a2).2 := by
  grind [State.keyStatement, keeps_signDik]

theorem keeps_runKey {a1} {a2} {a3} {a4} {f5 : State → QueueSt → Cmd → State} (h : Keeps s0 s) (hf : ∀ t x1 x2,
    Keeps s0 t → Keeps s0 (f5 t x1 x2)) : Keeps s0 (State.runKey s a1 a2 a3 a4 f5) := by
  grind [State.runKey, keeps_runIf, keeps_refuse]

theorem keeps_keyOut {a1} {a2} {a3} {a4} (h : Keeps s0 s) : Keeps s0 (State.keyOut s a1 a2 a3 a4) :=
  keeps_succeed (keeps_tagInst (keeps_kernelWrite h))

theorem keeps_execKeyInfo {a0} : KeepsR s (execKeyInfo a0 s) := by
  grind [execKeyInfo, keeps_runKey, keeps_keyOut, KeepsR.next, Keeps.refl]

theorem keeps_execGenPair {a0} : KeepsR s (execGenPair a0 s) := by
  grind [execGenPair, keeps_runKey, keeps_refuse, keeps_draw, keeps_keyOut, keeps_fillSlot, KeepsR.next, Keeps.refl]

theorem keeps_execKeyAttest {a0} : KeepsR s (execKeyAttest a0 s) := by
  grind [execKeyAttest, keeps_runKey, keeps_refuse, keeps_withBuf, keeps_keyStatement, keeps_keyOut, KeepsR.next, Keeps.refl]

theorem keeps_execAgree {a0} : KeepsR s (execAgree a0 s) := by
  refine .next (keeps_runKey (.refl s) fun t x c ht => ?_)
  extract_lets n tx rx k bad own
  clear_value bad
  split
  · exact keeps_refuse ht
  · refine keeps_withBuf ht fun u l hu => ?_
    extract_lets peer z ctx lh hl low s1
    have h1 : Keeps s s1 := keeps_fillSlot hu
    clear_value s1
    exact Keeps.ite (fun _ => keeps_refuse hu) fun _ => keeps_succeed (keeps_fillSlot h1)

theorem keeps_pendSlot {a1} {a2} (h : Keeps s0 s) : Keeps s0 (State.pendSlot s a1 a2) := keeps_closeStreamsOf (keeps_modSlot h)

theorem keeps_execErase {a0} : KeepsR s (execErase a0 s) := by
  grind [execErase, keeps_runKey, keeps_refuse, keeps_succeed, keeps_modSlot, keeps_pendSlot, keeps_begin_, KeepsR.next, Keeps.refl]

theorem keeps_execAssign {a0} : KeepsR s (execAssign a0 s) := by
  grind [execAssign, keeps_runKey, keeps_refuse, keeps_succeed, keeps_modSlot, KeepsR.next, Keeps.refl]

theorem keeps_deriveBce {a1} {a2} {a3} {a4} (h : Keeps s0 s) : ∀ t, State.deriveBce s a1 a2 a3 a4 = some t → Keeps s0 t.2.2 := by
  grind [State.deriveBce, keeps_fillSlot]

theorem keeps_execSessionKeys {a0} : KeepsR s (execSessionKeys a0 s) := by
  refine .next (keeps_runKey (.refl s) fun t x c ht => ?_)
  extract_lets i
  split
  · exact keeps_refuse ht
  · refine Keeps.ite (fun _ => keeps_refuse ht) fun _ => ?_
    split
    · exact keeps_refuse ht
    next e => exact keeps_succeed (keeps_deriveBce ht _ e)

theorem keeps_execKeySlotCommit {a0} : KeepsR s (execKeySlotCommit a0 s) := by
  unfold execKeySlotCommit
  extract_lets k
  split
  · exact .next (.refl s)
  · refine KeepsR.ite (fun _ => .next (.refl s)) fun _ => KeepsR.ite (fun _ => .next ?_) fun _ => .next ?_
    · exact keeps_settle (keeps_answer (keeps_modSlot (.refl s)))
    · exact keeps_settle (keeps_answer (keeps_renonce (keeps_fillSlot (.refl s))))

theorem keeps_dropPend {a1} {a2} (h : Keeps s0 s) : Keeps s0 (State.dropPend s a1 a2) := by
  grind [State.dropPend, keeps_answer]

theorem keeps_slotLost {a1} (h : Keeps s0 s) : Keeps s0 (State.slotLost s a1) := by
  grind [State.slotLost, keeps_bceDropPairs, keeps_breakConn, keeps_fields, Keeps.foldl]

theorem keeps_execKeyCellFailure {a0} : KeepsR s (execKeyCellFailure a0 s) := by
  unfold execKeyCellFailure
  refine KeepsR.ite (fun _ => .next (.refl s)) fun _ => ?_
  extract_lets k derived spare lost s1 _ s2 _ s3
  have h1 : Keeps s s1 := Keeps.ite (fun _ => keeps_dropPend (keeps_slotLost (.refl s))) fun _ => .refl s
  clear_value s1
  have h2 : Keeps s s2 := keeps_fields h1 id id
  clear_value s2
  have h3 : Keeps s s3 := Keeps.ite (fun _ => keeps_fields h2 id id) fun _ => Keeps.ite (fun _ => keeps_modSlot h2) fun _ => h2
  exact .next (keeps_settle (Keeps.ite (fun _ => keeps_oversLow h3) fun _ => h3))

theorem keeps_loadsDestroyed (h : Keeps s0 s) : Keeps s0 (State.loadsDestroyed s) := by
  grind [State.loadsDestroyed, keeps_endStep, keeps_finish, Keeps.foldl]

theorem keeps_execTamperN : KeepsR s (execTamperN s) := by
  unfold execTamperN
  refine KeepsR.ite (fun _ => .next (.refl s)) fun _ => ?_
  extract_lets _ s1 s2 s3 _ s4 _ s5 _
  have h2 : Keeps s s2 := keeps_loadsDestroyed (keeps_bceDrop (keeps_fields (.refl s) id id))
  clear_value s2
  have h3 : Keeps s s3 := Keeps.foldl h2 fun t p ht => keeps_breakConn ht
  clear_value s3
  have h4 : Keeps s s4 := Keeps.foldl (keeps_fields h3 id id) fun t p ht => keeps_dropPend ht
  clear_value s4
  have h5 : Keeps s s5 := keeps_fields h4 id id
  exact .next (keeps_settle (Keeps.ite (fun _ => keeps_fault h5) fun _ => h5))

theorem keeps_execTamperNDeassert : KeepsR s (execTamperNDeassert s) := by
  grind [execTamperNDeassert, keeps_coldBoot, keeps_fields, KeepsR.next, Keeps.refl]

theorem keeps_execProtLock : KeepsR s (execProtLock s) := by
  grind [execProtLock, keeps_fields, KeepsR.next, Keeps.refl]

theorem keeps_modSpdm {a1} {a2} (h : Keeps s0 s) : Keeps s0 (State.modSpdm s a1 a2) := keeps_fields h id id

theorem keeps_spdmSend {a1} {a2} {a3} (h : Keeps s0 s) : Keeps s0 (State.spdmSend s a1 a2 a3) := keeps_fields h id id

theorem keeps_spdmError {a1} {a2} (h : Keeps s0 s) : Keeps s0 (State.spdmError s a1 a2) := keeps_spdmSend h

theorem keeps_spdmRun {a1} {f2 : State → State} (h : Keeps s0 s) (hf : ∀ t, Keeps s0 t → Keeps s0 (f2 t)) :
    Keeps s0 (State.spdmRun s a1 f2) := by
  grind [State.spdmRun, keeps_spdmError]

theorem keeps_execGetVersion {a0} : KeepsR s (execGetVersion a0 s) := by
  grind [execGetVersion, keeps_spdmSend, keeps_modSpdm, KeepsR.next, Keeps.refl]

theorem keeps_execGetCapabilities {a0} {a1} : KeepsR s (execGetCapabilities a0 a1 s) := by
  grind [execGetCapabilities, keeps_spdmError, keeps_spdmSend, keeps_modSpdm, KeepsR.next, Keeps.refl]

theorem keeps_execNegotiateAlgorithms {a0} : KeepsR s (execNegotiateAlgorithms a0 s) := by
  grind [execNegotiateAlgorithms, keeps_spdmError, keeps_spdmSend, keeps_modSpdm, KeepsR.next, Keeps.refl]

theorem keeps_execGetDigests {a0} : KeepsR s (execGetDigests a0 s) := by
  grind [execGetDigests, keeps_spdmRun, keeps_spdmSend, KeepsR.next, Keeps.refl]

theorem keeps_execGetCertificate {a0} {a1} {a2} {a3} : KeepsR s (execGetCertificate a0 a1 a2 a3 s) := by
  grind [execGetCertificate, keeps_spdmRun, keeps_spdmError, keeps_spdmSend, KeepsR.next, Keeps.refl]

theorem keeps_execChallenge {a0} {a1} {a2} : KeepsR s (execChallenge a0 a1 a2 s) := by
  grind [execChallenge, keeps_spdmRun, keeps_spdmError, keeps_draw, keeps_signDik, keeps_spdmSend, KeepsR.next, Keeps.refl]

theorem keeps_execGetMeasurements {a0} {a1} {a2} {a3} : KeepsR s (execGetMeasurements a0 a1 a2 a3 s) := by
  grind [execGetMeasurements, keeps_spdmRun, keeps_spdmError, keeps_draw, keeps_signDik, keeps_spdmSend, KeepsR.next, Keeps.refl]

theorem keeps_execKeyExchange {a0} {a1} {a2} : KeepsR s (execKeyExchange a0 a1 a2 s) := by
  refine .next (keeps_spdmRun (.refl s) fun t ht => Keeps.ite (fun _ => keeps_spdmError ht) fun _ => ?_)
  extract_lets d sid secret _ s1 opened
  have h1 : Keeps s s1 := keeps_fields (keeps_draw ht) id id
  have ho : ∀ {u}, Keeps s u → Keeps s (opened u) := fun hu => keeps_spdmSend (keeps_modSpdm (keeps_signDik hu))
  clear_value opened s1
  refine Keeps.ite (fun _ => ho h1) fun _ => Keeps.ite (fun _ => keeps_spdmError ht) fun _ => ?_
  split
  next e => exact ho (keeps_deriveBce h1 _ e)
  · exact keeps_spdmError ht

theorem keeps_execSpdmFinish {a0} : KeepsR s (execSpdmFinish a0 s) := by
  grind [execSpdmFinish, keeps_spdmRun, keeps_spdmSend, keeps_modSpdm, keeps_spdmError, KeepsR.next, Keeps.refl]

theorem keeps_inSession {a1} {f2 : State → State} (h : Keeps s0 s) (hf : ∀ t, Keeps s0 t → Keeps s0 (f2 t)) :
    Keeps s0 (State.inSession s a1 f2) := by
  grind [State.inSession, keeps_spdmRun, keeps_spdmError]

theorem keeps_emptySession {a1} (h : Keeps s0 s) : Keeps s0 (State.emptySession s a1) := by
  grind [State.emptySession, keeps_emptySlot, keeps_closeStreamsOf, Keeps.foldl]

theorem keeps_execEndSession {a0} : KeepsR s (execEndSession a0 s) := by
  grind [execEndSession, keeps_inSession, keeps_spdmSend, keeps_settle, keeps_modSpdm, keeps_emptySession, KeepsR.next, Keeps.refl]

theorem keeps_execHeartbeat {a0} : KeepsR s (execHeartbeat a0 s) := by
  grind [execHeartbeat, keeps_inSession, keeps_spdmSend, KeepsR.next, Keeps.refl]

theorem keeps_execKeyUpdate {a0} {a1} : KeepsR s (execKeyUpdate a0 a1 s) := by
  grind [execKeyUpdate, keeps_inSession, keeps_spdmError, keeps_spdmSend, keeps_modSpdm, KeepsR.next, Keeps.refl]

theorem keeps_execGetCsr {a0} {a1} : KeepsR s (execGetCsr a0 a1 s) := by
  grind [execGetCsr, keeps_spdmRun, keeps_signDik, keeps_spdmSend, KeepsR.next, Keeps.refl]

theorem keeps_execSetCertificate {a0} {a1} {a2} {a3} : KeepsR s (execSetCertificate a0 a1 a2 a3 s) := by
  grind [execSetCertificate, keeps_spdmRun, keeps_spdmError, keeps_spdmSend, keeps_flashWrite, keeps_flashErase, KeepsR.next,
      Keeps.refl]

theorem keeps_execSpdmUnsupportedRequest {a0} : KeepsR s (execSpdmUnsupportedRequest a0 s) := by
  grind [execSpdmUnsupportedRequest, keeps_spdmError, KeepsR.next, Keeps.refl]

theorem keeps_reply {a1} {a2} {a3} {a4} {a5} {a6} {a7} {a8} (h : Keeps s0 s) :
    Keeps s0 (State.reply s a1 a2 a3 a4 a5 a6 a7 a8) := by
  unfold State.reply
  split <;> grind [keeps_replySession, keeps_replyMailbox]

theorem keeps_request {a1} {a2} {a3} {a4} {a5} {f6 : State → State} (h : Keeps s0 s) (hf : ∀ t, Keeps s0 t → Keeps s0 (f6 t)) :
    Keeps s0 (State.request s a1 a2 a3 a4 a5 f6) := by
  unfold State.request
  split <;> grind [keeps_modSess, keeps_sendRecord]

theorem keeps_Wr_ok (h : Keeps s0 s) : KeepsW s0 (Wr.ok s) := by
  grind [Wr.ok, KeepsA, KeepsW]

theorem keeps_persist {a1} {a2} (h : Keeps s0 s) : KeepsW s0 (State.persist s a1 a2) := by
  grind [State.persist, keeps_storePut, keeps_Wr_ok, keeps_place, KeepsA, KeepsW]

theorem keeps_applyMode {a1} {a2} {a3} (h : Keeps s0 s) : Keeps s0 (State.applyMode s a1 a2 a3) := by
  grind [State.applyMode, keeps_place, keeps_fields]

theorem keeps_startMode {a1} {a2} {a3} {a4} {a5} (h : Keeps s0 s) : KeepsW s0 (State.startMode s a1 a2 a3 a4 a5) := by
  grind [State.startMode, KeepsA, KeepsW, keeps_fields]

theorem keeps_modFw {a1} (h : Keeps s0 s) : Keeps s0 (State.modFw s a1) := keeps_fields h id id

theorem keeps_fwProgram {a1} (h : Keeps s0 s) : KeepsW s0 (State.fwProgram s a1) := by
  grind [State.fwProgram, keeps_Wr_ok, keeps_modFw, keeps_flashWrite, keeps_flashErase, KeepsA, KeepsW]

theorem keeps_activateNow (h : Keeps s0 s) : Keeps s0 (State.activateNow s) := by
  grind [State.activateNow, keeps_modLedger, keeps_modFw]

theorem keeps_fwCmd {a1} {a2} {a3} (h : Keeps s0 s) : KeepsW s0 (State.fwCmd s a1 a2 a3) := by
  fun_cases State.fwCmd s a1 a2 a3
  all_goals grind [keeps_Wr_ok, keeps_modFw, keeps_activateNow, keeps_writeBootsel, KeepsA, KeepsW]

theorem keeps_arbCommit (h : Keeps s0 s) : Keeps s0 (State.arbCommit s) := keeps_fields h id id

theorem keeps_fwRevoke {a1} (h : Keeps s0 s) : KeepsW s0 (State.fwRevoke s a1) := by
  grind [State.fwRevoke, keeps_Wr_ok, KeepsA, KeepsW, keeps_fields]

theorem keeps_install {a1} {a2} {a3} (h : Keeps s0 s) : KeepsW s0 (State.install s a1 a2 a3) := by
  grind [State.install, keeps_Wr_ok, keeps_fillSlot, keeps_pendSlot, KeepsA, KeepsW]

theorem keeps_claim {a1} (h : Keeps s0 s) : KeepsW s0 (State.claim s a1) := by
  unfold State.claim
  split
  · trivial
  split
  next t e =>
    obtain ⟨u, hu, ht⟩ := Option.bind_eq_some_iff.mp e
    exact keeps_Wr_ok (keeps_place (keeps_place (keeps_storePut (keeps_storePut h _ hu) _ ht)))
  · trivial

theorem keeps_quotaWrite {a1} {a2} {a3} (h : Keeps s0 s) : KeepsW s0 (State.quotaWrite s a1 a2 a3) := by
  grind [State.quotaWrite, keeps_Wr_ok, keeps_setQuota, KeepsA, KeepsW]

theorem keeps_release {a1} (h : Keeps s0 s) : KeepsW s0 (State.release s a1) := by
  grind [State.release, keeps_Wr_ok, keeps_formeBack, keeps_evalFaultPin, keeps_setForme, KeepsA, KeepsW]

theorem keeps_wallSet {a1} (h : Keeps s0 s) : Keeps s0 (State.wallSet s a1) := keeps_modLedger h

theorem keeps_resetReq {a1} {a2} (h : Keeps s0 s) : KeepsW s0 (State.resetReq s a1 a2) := by
  grind [State.resetReq, keeps_triggerWarm, keeps_triggerCold, keeps_requestPowerCycle, KeepsA, KeepsW]

theorem keeps_connState {a1} {a2} (h : Keeps s0 s) : KeepsW s0 (State.connState s a1 a2) := by
  grind [State.connState, keeps_Wr_ok, keeps_closeConn, keeps_openConn, KeepsA, KeepsW]

theorem keepsW_done {r : Wr} {t : State} {f : State → State} (e : r = .done t f) (h : KeepsW s0 r) :
    Keeps s0 t ∧ ∀ u, Keeps s0 u → Keeps s0 (f u) := by
  rw [e] at h
  exact h

theorem keepsW_ite {p : Prop} [Decidable p] {a b : Wr} (ha : p → KeepsW s0 a) (hb : ¬p → KeepsW s0 b) :
    KeepsW s0 (if p then a else b) := by
  split
  · exact ha ‹_›
  · exact hb ‹_›

theorem keeps_setValue {a1} {a2} {a3} {a4} {a5} {a6} {a7} (h : Keeps s0 s) : KeepsW s0 (State.setValue s a1 a2 a3 a4 a5 a6 a7) := by
  unfold State.setValue
  extract_lets x w owner _ l _ left _
  split
  · exact keeps_startMode h
  refine keepsW_ite (fun _ => keepsW_ite (fun _ => keeps_connState h) fun _ => keeps_Wr_ok (keeps_fields h id id)) fun _ => ?_
  refine keepsW_ite (fun _ => keeps_Wr_ok (keeps_fields h id id)) fun _ => ?_
  refine keepsW_ite (fun _ => keeps_Wr_ok (keeps_fields h id id)) fun _ => ?_
  refine keepsW_ite (fun _ => keeps_resetReq h) fun _ => ?_
  refine keepsW_ite (fun _ => keeps_Wr_ok (keeps_fields h id id)) fun _ => ?_
  refine keepsW_ite (fun _ => ?forme) fun _ => ?_
  case forme =>
    generalize a4 - 0x4010 = n
    refine keepsW_ite (fun _ => ?_) fun _ => ?_
    · exact keeps_release h
    · exact keeps_Wr_ok h
  refine keepsW_ite (fun _ => ?stack) fun _ => ?_
  case stack =>
    generalize a4 - 0x4020 = n
    refine keepsW_ite (fun _ => ?_) fun _ => ?_
    · exact keeps_Wr_ok h
    · refine keepsW_ite (fun _ => ?_) fun _ => ?_
      · exact keeps_Wr_ok (keeps_setStack h)
      · trivial
  refine keepsW_ite (fun _ => keeps_claim h) fun _ => ?_
  refine keepsW_ite (fun _ => keeps_install h) fun _ => ?_
  refine keepsW_ite (fun _ => ?entry) fun _ => ?_
  case entry =>
    have hp := keeps_persist (a1 := okey a4 a5) (a2 := a7) h
    split
    next e => exact ⟨(keepsW_done e hp).1, fun t ht => Keeps.foldl ht fun u p hu => keeps_endSession hu⟩
    · exact hp
  refine keepsW_ite (fun _ => keeps_quotaWrite h) fun _ => ?_
  refine keepsW_ite (fun _ => keeps_Wr_ok (keeps_wallSet h)) fun _ => ?_
  refine keepsW_ite (fun _ => ?firmware) fun _ => ?_
  case firmware =>
    split
    · exact keeps_fwProgram h
    · exact keepsW_ite (fun _ => trivial) fun _ => keeps_Wr_ok (keeps_modFw h)
    · exact keeps_fwCmd h
  refine keepsW_ite (fun _ => keepsW_ite (fun _ => keeps_Wr_ok (Keeps.ite (fun _ => keeps_arbCommit h) fun _ => h))
    fun _ => keeps_fwRevoke h) fun _ => ?_
  exact keepsW_ite (fun _ => keeps_persist h) fun _ => keeps_Wr_ok (keeps_place h)

theorem keepsW_wait {r : Wr} {t : State} (e : r = .wait t) (h : KeepsW s0 r) : Keeps s0 t := by
  rw [e] at h
  exact h

theorem keeps_doSet {a1} {a2} {a3} {a4} {a5} {a6} (h : Keeps s0 s) : Keeps s0 (State.doSet s a1 a2 a3 a4 a5 a6) := by
  unfold State.doSet
  extract_lets answer
  have ha : ∀ {t st d}, Keeps s0 t → Keeps s0 (answer t st d) := fun ht => keeps_reply ht
  clear_value answer
  split
  · exact ha h
  · exact ha h
  split
  · exact ha h
  refine Keeps.ite (fun _ => ha (keeps_lockViolation h)) fun _ => ?_
  split
  next e => exact (keepsW_done e (keeps_setValue h)).2 _ (ha (keepsW_done e (keeps_setValue h)).1)
  · exact ha h
  next e => exact keepsW_wait e (keeps_setValue h)

theorem keeps_afterRead {a1} (h : Keeps s0 s) : Keeps s0 (State.afterRead s a1) := by
  grind [State.afterRead, keeps_fields]

theorem keeps_doGet {a1} {a2} {a3} {a4} (h : Keeps s0 s) : Keeps s0 (State.doGet s a1 a2 a3 a4) := by
  grind [State.doGet, keeps_reply, keeps_afterRead]

theorem keeps_doInfo {a1} {a2} {a3} {a4} (h : Keeps s0 s) : Keeps s0 (State.doInfo s a1 a2 a3 a4) := by
  grind [State.doInfo, keeps_reply]

theorem keeps_doBlobRead {a1} {a2} {a3} {a4} {a5} {a6} (h : Keeps s0 s) : Keeps s0 (State.doBlobRead s a1 a2 a3 a4 a5 a6) := by
  grind [State.doBlobRead, keeps_reply, keeps_afterRead]

theorem keeps_setBlob {a1} {a2} (h : Keeps s0 s) : Keeps s0 (State.setBlob s a1 a2) := by
  unfold State.setBlob
  split <;> grind [keeps_modSess, keeps_fields]

theorem keeps_doBlobWrite {a1} {a2} {a3} {a4} {a5} {a6} {a7} (h : Keeps s0 s) :
    Keeps s0 (State.doBlobWrite s a1 a2 a3 a4 a5 a6 a7) := by
  grind [State.doBlobWrite, keeps_reply, keeps_doSet, keeps_setBlob]

theorem keeps_doSubscribe {a1} {a2} {a3} {a4} {a5} (h : Keeps s0 s) : Keeps s0 (State.doSubscribe s a1 a2 a3 a4 a5) := by
  unfold State.doSubscribe
  split <;> grind [keeps_reply, keeps_modSess]

theorem keeps_doClose {a1} {a2} {a3} {a4} (h : Keeps s0 s) : Keeps s0 (State.doClose s a1 a2 a3 a4) := by
  unfold State.doClose
  split <;> grind [keeps_endSession, keeps_reply]

theorem keeps_message {a1} {a2} (h : Keeps s0 s) : Keeps s0 (State.message s a1 a2) := by
  grind [State.message, keeps_request, keeps_reply, keeps_doGet, keeps_doSet, keeps_doInfo, keeps_doBlobRead, keeps_doBlobWrite,
      keeps_doSubscribe, keeps_doClose]

theorem keeps_execMbxGo : KeepsR s (execMbxGo s) := by
  grind [execMbxGo, keeps_settle, keeps_message, KeepsR.next, Keeps.refl]

theorem keeps_phyControl {a1} (h : Keeps s0 s) : Keeps s0 (State.phyControl s a1) := keeps_fields h id id

theorem keeps_execMgtIrq {a0} : KeepsR s (execMgtIrq a0 s) := by
  grind [execMgtIrq, keeps_phyControl, KeepsR.next, Keeps.refl]

theorem keeps_execMacphyRetry {a0} : KeepsR s (execMacphyRetry a0 s) := by
  grind [execMacphyRetry, keeps_fields, KeepsR.next, Keeps.refl]

theorem keeps_execNeighbourSolicitation {a0} {a1} {a2} : KeepsR s (execNeighbourSolicitation a0 a1 a2 s) := by
  grind [execNeighbourSolicitation, keeps_fields, KeepsR.next, Keeps.refl]

theorem keeps_helloFail (h : Keeps s0 s) : Keeps s0 (State.helloFail s) := keeps_fields h id id

theorem keeps_recordDrop (h : Keeps s0 s) : Keeps s0 (State.recordDrop s) := keeps_fields h id id

theorem keeps_sessionNo (h : Keeps s0 s) : Keeps s0 (State.sessionNo s).2 := by
  grind [State.sessionNo, keeps_draw]

theorem keeps_execHello {a0} : KeepsR s (execHello a0 s) := by
  unfold execHello
  (repeat' split) <;> grind [keeps_helloFail, keeps_sessionNo, keeps_draw, keeps_signDik, keeps_sendDatagram, keeps_fields,
      KeepsR.next, Keeps.refl]

theorem keeps_execApgusFinish {a0} : KeepsR s (execApgusFinish a0 s) := by
  grind [execApgusFinish, keeps_helloFail, keeps_modSess, keeps_fillSlot, keeps_fields, KeepsR.next, Keeps.refl]

theorem keeps_execHandshakeTimeout {a0} : KeepsR s (execHandshakeTimeout a0 s) := by
  grind [execHandshakeTimeout, keeps_fields, KeepsR.next, Keeps.refl]

theorem keeps_execRecord {a0} : KeepsR s (execRecord a0 s) := by
  fun_cases execRecord a0 s
  all_goals grind [keeps_recordDrop, keeps_settle, keeps_message, keeps_modSess, KeepsR.next, Keeps.refl]

theorem keeps_execSessionIdleTimeout {a0} : KeepsR s (execSessionIdleTimeout a0 s) := by
  grind [execSessionIdleTimeout, keeps_endSession, KeepsR.next, Keeps.refl]

theorem keeps_execGet {a0} {a1} {a2} {a3} : KeepsR s (execGet a0 a1 a2 a3 s) := by
  grind [execGet, keeps_request, keeps_doGet, KeepsR.next, Keeps.refl]

theorem keeps_execSet {a0} {a1} {a2} {a3} {a4} : KeepsR s (execSet a0 a1 a2 a3 a4 s) := by
  grind [execSet, keeps_settle, keeps_request, keeps_doSet, KeepsR.next, Keeps.refl]

theorem keeps_execApgusInfo {a0} {a1} {a2} {a3} : KeepsR s (execApgusInfo a0 a1 a2 a3 s) := by
  grind [execApgusInfo, keeps_request, keeps_doInfo, KeepsR.next, Keeps.refl]

theorem keeps_execBlobRead {a0} {a1} {a2} {a3} {a4} {a5} : KeepsR s (execBlobRead a0 a1 a2 a3 a4 a5 s) := by
  grind [execBlobRead, keeps_request, keeps_doBlobRead, KeepsR.next, Keeps.refl]

theorem keeps_execBlobWrite {a0} {a1} {a2} {a3} {a4} {a5} {a6} : KeepsR s (execBlobWrite a0 a1 a2 a3 a4 a5 a6 s) := by
  grind [execBlobWrite, keeps_settle, keeps_request, keeps_doBlobWrite, KeepsR.next, Keeps.refl]

theorem keeps_execSubscribe {a0} {a1} {a2} : KeepsR s (execSubscribe a0 a1 a2 s) := by
  grind [execSubscribe, keeps_request, keeps_doSubscribe, KeepsR.next, Keeps.refl]

theorem keeps_execClose {a0} {a1} : KeepsR s (execClose a0 a1 s) := by
  grind [execClose, keeps_request, keeps_doClose, KeepsR.next, Keeps.refl]

theorem keeps_execTelemetryTick : KeepsR s (execTelemetryTick s) := by
  grind [execTelemetryTick, keeps_notify, keeps_fields, KeepsR.next, Keeps.refl]

theorem keeps_execBeacon : KeepsR s (execBeacon s) := by
  grind [execBeacon, keeps_signDik, keeps_sendDatagram, keeps_notify, keeps_fields, KeepsR.next, Keeps.refl]

theorem keeps_setRequest {a1} {a2} {a3} {a4} {a5} (h : Keeps s0 s) : Keeps s0 (State.setRequest s a1 a2 a3 a4 a5) := by
  grind [State.setRequest, keeps_settle, keeps_request, keeps_doSet]

theorem keeps_execConnectionOpen {a0} {a1} {a2} : KeepsR s (execConnectionOpen a0 a1 a2 s) := by
  grind [execConnectionOpen, keeps_setRequest, KeepsR.next, Keeps.refl]

theorem keeps_execConnectionDisable {a0} {a1} {a2} : KeepsR s (execConnectionDisable a0 a1 a2 s) := by
  grind [execConnectionDisable, keeps_setRequest, KeepsR.next, Keeps.refl]

theorem keeps_execModeChange {a0} {a1} {a2} {a3} {a4} : KeepsR s (execModeChange a0 a1 a2 a3 a4 s) := by
  grind [execModeChange, keeps_setRequest, KeepsR.next, Keeps.refl]

theorem keeps_modeEnded (h : Keeps s0 s) : Keeps s0 (State.modeEnded s) := by
  grind [State.modeEnded, keeps_notify, keeps_answer, keeps_activateNow, keeps_fields]

theorem keeps_execPrepareDeadline {a0} : KeepsR s (execPrepareDeadline a0 s) := by
  unfold execPrepareDeadline
  split
  · exact .next (.refl s)
  extract_lets target m _ s1
  have h1 : Keeps s s1 := keeps_fields (.refl s) id id
  exact KeepsR.ite (fun _ => .next (.refl s)) fun _ => .next (keeps_settle (keeps_modeEnded (keeps_answer h1)))

theorem keeps_execModeCommit : KeepsR s (execModeCommit s) := by
  grind [execModeCommit, keeps_applyMode, keeps_fields, KeepsR.next, Keeps.refl]

theorem keeps_modeFault {a1} (h : Keeps s0 s) : Keeps s0 (State.modeFault s a1) := by
  unfold State.modeFault
  split <;> grind [keeps_takeFault]

theorem keeps_getD {o : Option State} (h : Keeps s0 s) (ho : ∀ t, o = some t → Keeps s0 t) : Keeps s0 (o.getD s) := by
  cases o with
  | none => exact h
  | some t => exact ho t rfl

theorem keeps_execConfirmDeadline {a0} : KeepsR s (execConfirmDeadline a0 s) := by
  unfold execConfirmDeadline
  split
  · exact .next (.refl s)
  extract_lets bad _ s1 s2 s3 s4 s5
  have h2 : Keeps s s2 := keeps_answer (keeps_fields (.refl s) id id)
  clear_value s2
  have h3 : Keeps s s3 := keeps_getD h2 (keeps_storePut h2)
  have h4 : Keeps s s4 := keeps_modeEnded h3
  have h5 : Keeps s s5 := Keeps.ite (fun _ => h4) fun _ => keeps_raiseAlert h4
  exact KeepsR.ite (fun _ => .next (.refl s)) fun _ => .next (keeps_settle (Keeps.foldl h5 fun t b ht => keeps_modeFault ht))

theorem keeps_execNextProfile {a0} {a1} {a2} : KeepsR s (execNextProfile a0 a1 a2 s) := .next (keeps_setRequest (.refl s))

theorem keeps_execQuotaObjectWrite {a0} {a1} {a2} {a3} {a4} : KeepsR s (execQuotaObjectWrite a0 a1 a2 a3 a4 s) := by
  grind [execQuotaObjectWrite, keeps_setRequest, KeepsR.next, Keeps.refl]

theorem keeps_execResetReqWarm {a0} {a1} : KeepsR s (execResetReqWarm a0 a1 s) := .next (keeps_setRequest (.refl s))

theorem keeps_execResetReqCold {a0} {a1} : KeepsR s (execResetReqCold a0 a1 s) := .next (keeps_setRequest (.refl s))

theorem keeps_execResetReqPowerCycle {a0} {a1} : KeepsR s (execResetReqPowerCycle a0 a1 s) := .next (keeps_setRequest (.refl s))

theorem keeps_execAlertAck {a0} {a1} {a2} : KeepsR s (execAlertAck a0 a1 a2 s) := .next (keeps_setRequest (.refl s))

theorem keeps_execRelease {a0} {a1} {a2} : KeepsR s (execRelease a0 a1 a2 s) := by
  grind [execRelease, keeps_setRequest, KeepsR.next, Keeps.refl]

theorem keeps_execTrainReq {a0} {a1} {a2} : KeepsR s (execTrainReq a0 a1 a2 s) := by
  grind [execTrainReq, keeps_setRequest, KeepsR.next, Keeps.refl]

theorem keeps_execWallSet {a0} {a1} {a2} : KeepsR s (execWallSet a0 a1 a2 s) := .next (keeps_setRequest (.refl s))

theorem keeps_execInstall {a0} {a1} {a2} {a3} : KeepsR s (execInstall a0 a1 a2 a3 s) := by
  grind [execInstall, keeps_setRequest, KeepsR.next, Keeps.refl]

theorem keeps_execClaim {a0} {a1} {a2} : KeepsR s (execClaim a0 a1 a2 s) := .next (keeps_setRequest (.refl s))

theorem keeps_execDebugToken {a0} {a1} {a2} : KeepsR s (execDebugToken a0 a1 a2 s) := .next (keeps_setRequest (.refl s))

theorem keeps_execFwImage {a0} {a1} {a2} : KeepsR s (execFwImage a0 a1 a2 s) := .next (keeps_setRequest (.refl s))

theorem keeps_execVerify {a0} {a1} : KeepsR s (execVerify a0 a1 s) := .next (keeps_setRequest (.refl s))

theorem keeps_execStage {a0} {a1} : KeepsR s (execStage a0 a1 s) := .next (keeps_setRequest (.refl s))

theorem keeps_execActivate {a0} {a1} : KeepsR s (execActivate a0 a1 s) := .next (keeps_setRequest (.refl s))

theorem keeps_execConfirm {a0} {a1} : KeepsR s (execConfirm a0 a1 s) := .next (keeps_setRequest (.refl s))

theorem keeps_execSelectFs1 {a0} {a1} : KeepsR s (execSelectFs1 a0 a1 s) := .next (keeps_setRequest (.refl s))

theorem keeps_execFwAbort {a0} {a1} : KeepsR s (execFwAbort a0 a1 s) := .next (keeps_setRequest (.refl s))

theorem keeps_execTrialEnd {a0} : KeepsR s (execTrialEnd a0 s) := by
  grind [execTrialEnd, keeps_modFw, KeepsR.next, Keeps.refl]

theorem keeps_execArbCommit {a0} {a1} : KeepsR s (execArbCommit a0 a1 s) := .next (keeps_setRequest (.refl s))

theorem keeps_execFwRevoke {a0} {a1} {a2} : KeepsR s (execFwRevoke a0 a1 a2 s) := .next (keeps_setRequest (.refl s))

theorem keeps_execProfileSelect {a0} : KeepsR s (execProfileSelect a0 s) := by
  grind [execProfileSelect, keeps_runIf, keeps_refuse, keeps_succeed, keeps_fields, KeepsR.next, Keeps.refl]

theorem keeps_execProfileCancel {a0} : KeepsR s (execProfileCancel a0 s) := by
  grind [execProfileCancel, keeps_runIf, keeps_refuse, keeps_succeed, keeps_fields, KeepsR.next, Keeps.refl]

theorem keeps_execProfileRead {a0} : KeepsR s (execProfileRead a0 s) := by
  grind [execProfileRead, keeps_runIf, keeps_refuse, keeps_keyOut, KeepsR.next, Keeps.refl]

theorem keeps_execSetCustom {a0} : KeepsR s (execSetCustom a0 s) := by
  refine .next (keeps_runIf (.refl s) fun t x c ht => Keeps.ite (fun _ => keeps_refuse ht) fun _ => Keeps.ite (fun _ => keeps_refuse ht) fun _ => ?_)
  split
  next e => exact keeps_succeed (keepsW_done e (keeps_persist ht)).1
  · exact keeps_refuse ht

theorem keeps_setPower {a1} (h : Keeps s0 s) : Keeps s0 (State.setPower s a1) := keeps_fields h id id

theorem keeps_intoReset (h : Keeps s0 s) : Keeps s0 (State.intoReset s) := keeps_fields (keeps_keepThroughCold h) id id

theorem keeps_execPorNAssert : KeepsR s (execPorNAssert s) := .next (keeps_intoReset (.refl s))

theorem keeps_execPorNRelease {a0} : KeepsR s (execPorNRelease a0 s) := by
  grind [execPorNRelease, keeps_beginCold, keeps_setPower, keeps_fields, KeepsR.next, Keeps.refl]

theorem keeps_execWarmN : KeepsR s (execWarmN s) := .next (keeps_triggerWarm (.refl s))

theorem keeps_execRefclkLoss : KeepsR s (execRefclkLoss s) := by
  grind [execRefclkLoss, keeps_keepThroughCold, keeps_fields, KeepsR.next, Keeps.refl]

theorem keeps_execRefclkReturn : KeepsR s (execRefclkReturn s) := by
  grind [execRefclkReturn, keeps_beginCold, keeps_fields, KeepsR.next, Keeps.refl]

theorem keeps_formesStart (h : Keeps s0 s) : Keeps s0 (State.formesStart s) := keeps_fields h id id

theorem keeps_exclusiveGrants (h : Keeps s0 s) : Keeps s0 (State.exclusiveGrants s) := by
  grind [State.exclusiveGrants, keeps_modInst, keeps_fields, Keeps.foldl]

theorem keeps_startSettings {p : Nat} (h : Keeps s0 s) (hp : s0.Legal → p < 4) : Keeps s0 (State.startSettings s p) := by
  unfold State.startSettings
  extract_lets s1 _ _ s2 s3 _
  have h2 : Keeps s0 s2 := by
    refine ⟨h.pending, fun hl => ?_⟩
    obtain ⟨-, -, -, -, hm, hh⟩ := h.legal hl
    exact ⟨hp hl, fun e => congrArg s.profileDomains e, fun e => congrArg s.profileDomains e,
      fun e => congrArg s.profileDomains e, hm, hh⟩
  clear_value s2
  exact keeps_fields (keeps_formesStart h2) id id

theorem keeps_serve_ {a1} {a2} (h : Keeps s0 s) : Keeps s0 (State.serve_ s a1 a2) := by
  unfold State.serve_
  grind [keeps_modInst, keeps_setPower, keeps_exclusiveGrants, keeps_evalFaultPin, keeps_notify]

theorem keeps_ledgerStart (h : Keeps s0 s) : Keeps s0 (State.ledgerStart s) := by
  grind [State.ledgerStart, keeps_closePeriod, keeps_modLedger, keeps_fields]

theorem keeps_execColdStartDone : KeepsR s (execColdStartDone s) := by
  unfold execColdStartDone
  split
  · refine KeepsR.ite (fun _ => .next (.refl s)) fun _ => ?_
    extract_lets _ _ s1 s2 s3 _
    have h1 : Keeps s s1 := keeps_fields (.refl s) id id
    have h2 : Keeps s s2 := Keeps.ite (fun _ => keeps_writeBootsel h1) fun _ => h1
    clear_value s2
    have h3 : Keeps s s3 := keeps_serve_ (keeps_ledgerStart (keeps_startSettings h2 fun _ => by omega))
    clear_value s3
    exact .next (keeps_settle (keeps_fields h3 id id))
  · exact .next (.refl s)

theorem startProfile_lt (h : s.Legal) : s.startProfile < 4 := by
  unfold State.startProfile
  split
  · assumption
  · exact h.1

theorem keeps_execWarmStartDone : KeepsR s (execWarmStartDone s) := by
  unfold execWarmStartDone
  split
  · refine KeepsR.ite (fun _ => .next (.refl s)) fun _ => ?_
    extract_lets p _ s1 s2 _
    have h1 : Keeps s s1 := keeps_fields (.refl s) id id
    clear_value s1
    have h2 : Keeps s s2 := keeps_serve_ (keeps_warmSlot (keeps_startSettings h1 startProfile_lt))
    clear_value s2
    exact .next (keeps_settle (keeps_fields h2 id id))
  · exact .next (.refl s)

theorem keeps_trialBack {a1} (h : Keeps s0 s) : Keeps s0 (State.trialBack s a1) := by
  grind [State.trialBack, keeps_writeBootsel]

theorem keeps_execStartFailed {a0} : KeepsR s (execStartFailed a0 s) := by
  unfold execStartFailed
  split
  · exact .next (keeps_fields (.refl s) id id)
  · extract_lets n s1 _ s2
    have h1 : Keeps s s1 := keeps_trialBack (.refl s)
    clear_value s1
    have h2 : Keeps s s2 := keeps_fields h1 id id
    exact KeepsR.ite (fun _ => .next (keeps_setPower (keeps_keepThroughCold h2))) fun _ => .next (keeps_enterSafe (keeps_requestPowerCycle h2))
  · exact .next (.refl s)

theorem keeps_execStartRetry : KeepsR s (execStartRetry s) := by
  grind [execStartRetry, keeps_beginWarm, keeps_beginCold, KeepsR.next, Keeps.refl]

theorem keeps_execVriAck {a0} : KeepsR s (execVriAck a0 s) := by
  grind [execVriAck, keeps_modVri, KeepsR.next, Keeps.refl]

theorem keeps_islandFault {a1} (h : Keeps s0 s) : Keeps s0 (State.islandFault s a1) := keeps_takeFault h

theorem keeps_execVriAckTimeout {a0} : KeepsR s (execVriAckTimeout a0 s) := by
  grind [execVriAckTimeout, keeps_islandFault, keeps_modVri, KeepsR.next, Keeps.refl]

theorem keeps_execRailTrip {a0} : KeepsR s (execRailTrip a0 s) := by
  unfold execRailTrip
  split <;> grind [keeps_islandFault, keeps_takeFault, keeps_settle, keeps_levelFour, keeps_intoReset, keeps_fields, KeepsR.next,
      Keeps.refl]

theorem keeps_execVoltageBandChange {a0} : KeepsR s (execVoltageBandChange a0 s) := by
  grind [execVoltageBandChange, keeps_modVri, KeepsR.next, Keeps.refl]

theorem keeps_throttle (h : Keeps s0 s) : Keeps s0 (State.throttle s) := by
  grind [State.throttle, keeps_fields]

theorem keeps_capPacing (h : Keeps s0 s) : Keeps s0 (State.capPacing s) := keeps_fields (keeps_fault h) id id

theorem keeps_capDown (h : Keeps s0 s) : Keeps s0 (State.capDown s) := by
  grind [State.capDown, keeps_capPacing, keeps_fields]

theorem keeps_capUp (h : Keeps s0 s) : Keeps s0 (State.capUp s) := keeps_fields h id id

theorem keeps_execPowerSample {a0} : KeepsR s (execPowerSample a0 s) := by
  grind [execPowerSample, keeps_throttle, keeps_capDown, keeps_capUp, keeps_fields, KeepsR.next, Keeps.refl]

theorem keeps_coolForme {a1} (h : Keeps s0 s) : Keeps s0 (State.coolForme s a1) := by
  grind [State.coolForme, keeps_fields]

theorem keeps_execDieTempRead {a0} {a1} : KeepsR s (execDieTempRead a0 a1 s) := by
  grind [execDieTempRead, keeps_modVri, keeps_coolForme, keeps_throttle, keeps_capPacing, keeps_fields, Keeps.foldl, KeepsR.next,
      Keeps.refl]

theorem keeps_execThermtrip : KeepsR s (execThermtrip s) := by
  unfold execThermtrip
  split
  · exact .next (.refl s)
  · exact .next (.refl s)
  · extract_lets _ s1 _ s2
    have h2 : Keeps s s2 := keeps_fault (keeps_fields (.refl s) id id)
    clear_value s2
    exact .next (keeps_enterSafe (keeps_requestPowerCycle h2))

theorem keeps_fpCommand {a1} {a2} {a3} (h : Keeps s0 s) : Keeps s0 (State.fpCommand s a1 a2 a3) := by
  grind [State.fpCommand, keeps_modFp]

theorem keeps_execFpRead {a0} {a1} : KeepsR s (execFpRead a0 a1 s) := .next (keeps_fpCommand (.refl s))

theorem keeps_execFpProgram {a0} {a1} : KeepsR s (execFpProgram a0 a1 s) := by
  grind [execFpProgram, keeps_modFp, keeps_fpCommand, KeepsR.next, Keeps.refl]

theorem keeps_execFpErase4k {a0} {a1} : KeepsR s (execFpErase4k a0 a1 s) := .next (keeps_fpCommand (.refl s))

theorem keeps_execFpBlankCheck {a0} {a1} : KeepsR s (execFpBlankCheck a0 a1 s) := .next (keeps_fpCommand (.refl s))

theorem keeps_execFpResetDevice {a0} : KeepsR s (execFpResetDevice a0 s) := .next (keeps_fpCommand (.refl s))

theorem keeps_fpEnd {a1} (h : Keeps s0 s) : Keeps s0 (State.fpEnd s a1) := by
  grind [State.fpEnd, keeps_modFp, keeps_takeFault, keeps_fields]

theorem keeps_fpSelect {a1} (h : Keeps s0 s) : Keeps s0 (State.fpSelect s a1) := by
  grind [State.fpSelect, keeps_fields]

theorem keeps_fpWrite {a1} {a2} {a3} (h : Keeps s0 s) : Keeps s0 (State.fpWrite s a1 a2 a3) := by
  unfold State.fpWrite
  split <;> grind [keeps_fpEnd, keeps_fpSelect, keeps_flashWrite, keeps_fields]

theorem keeps_execFpOperationDone {a0} : KeepsR s (execFpOperationDone a0 s) := by
  have hend {t : State} (h : Keeps s t) (n : Nat) : KeepsR s (.next (t.fpEnd n)) := .next (keeps_fpEnd h)
  unfold execFpOperationDone
  split
  · exact .next (.refl s)
  · refine KeepsR.ite (fun _ => hend (.refl s) 3) fun _ => ?_
    split
    · exact hend (keeps_modFp (.refl s)) 0
    · exact KeepsR.ite (fun _ => hend (.refl s) 2) fun _ => KeepsR.ite (fun _ => hend (.refl s) 1) fun _ => .next (keeps_fpWrite (.refl s))
    · refine KeepsR.ite (fun _ => hend (.refl s) 2) fun _ => KeepsR.ite (fun _ => hend (.refl s) 5) fun _ => ?_
      exact hend (keeps_fpSelect (keeps_flashErase (.refl s))) 0
    · exact hend (.refl s) _
    · exact hend (.refl s) 0

theorem keeps_execFpTimeout : KeepsR s (execFpTimeout s) := by
  grind [execFpTimeout, keeps_fpEnd, KeepsR.next, Keeps.refl]

theorem keeps_putRecords {a1} {a2} {a3} {a4} (h : Keeps s0 s) : Keeps s0 (State.putRecords s a1 a2 a3 a4).1 := by
  induction a2 generalizing s a3 a4 with
  | nil => exact h
  | cons e rest ih => exact ih (keeps_flashWrite h)

theorem keeps_execStoreCompaction : KeepsR s (execStoreCompaction s) := by
  grind [execStoreCompaction, keeps_flashErase, keeps_putRecords, keeps_flashWrite, keeps_fields, KeepsR.next, Keeps.refl]

theorem keeps_unmask {a1} {a2} (h : Keeps s0 s) : Keeps s0 (State.unmask s a1 a2) := by
  grind [State.unmask, keeps_modInst, keeps_raise]

theorem keeps_execMsixUnmask {a0} {a1} : KeepsR s (execMsixUnmask a0 a1 s) := by
  grind [execMsixUnmask, keeps_unmask, KeepsR.next, Keeps.refl]

theorem keeps_execHdmDecoderCommit {a0} {a1} : KeepsR s (execHdmDecoderCommit a0 a1 s) := by
  grind [execHdmDecoderCommit, keeps_fields, KeepsR.next, Keeps.refl]

theorem keeps_apertureFault {a1} {a2} {a3} (h : Keeps s0 s) : Keeps s0 (State.apertureFault s a1 a2 a3) :=
  keeps_fault (keeps_fields h id id)

theorem keeps_chargeRanges {a1} {a2} {a3} {a4} (h : Keeps s0 s) : Keeps s0 (State.chargeRanges s a1 a2 a3 a4) := by
  grind [State.chargeRanges, keeps_chargeHost, keeps_chargeTo, Keeps.foldl]

theorem keeps_apRead {a1} {a2} {a3} {a4} {a5} {a6} {a7} (h : Keeps s0 s) : Keeps s0 (State.apRead s a1 a2 a3 a4 a5 a6 a7) := by
  unfold State.apRead
  split <;> grind [keeps_apertureFault, keeps_chargeRanges, keeps_decodeRange, keeps_fields, Keeps.foldl]

theorem keeps_apWrite {a1} {a2} {a3} {a4} {a5} {a6} (h : Keeps s0 s) : Keeps s0 (State.apWrite s a1 a2 a3 a4 a5 a6) := by
  unfold State.apWrite
  split <;> grind [keeps_apertureFault, keeps_chargeHost, keeps_writeRanges]

theorem keeps_execApertureRead {a0} {a1} {a2} : KeepsR s (execApertureRead a0 a1 a2 s) := by
  grind [execApertureRead, keeps_settle, keeps_apRead, keeps_fields, KeepsR.next, Keeps.refl]

theorem keeps_execApertureWrite {a0} {a1} {a2} : KeepsR s (execApertureWrite a0 a1 a2 s) := by
  grind [execApertureWrite, keeps_settle, keeps_apWrite, KeepsR.next, Keeps.refl]

theorem keeps_execCxlMemRead {a0} {a1} : KeepsR s (execCxlMemRead a0 a1 s) := by
  grind [execCxlMemRead, keeps_settle, keeps_apRead, KeepsR.next, Keeps.refl]

theorem keeps_execCxlMemWrite {a0} {a1} : KeepsR s (execCxlMemWrite a0 a1 s) := by
  grind [execCxlMemWrite, keeps_settle, keeps_apWrite, KeepsR.next, Keeps.refl]

theorem keeps_execHostReadTimeout {a0} : KeepsR s (execHostReadTimeout a0 s) := by
  unfold execHostReadTimeout
  split <;> grind [keeps_modQueue, keeps_settle, keeps_accFault, keeps_cmdFault, keeps_stepAccess, keeps_modGalley, KeepsR.next,
      Keeps.refl]

theorem keeps_execLinkTraining {a0} : KeepsR s (execLinkTraining a0 s) := by
  unfold execLinkTraining
  split
  · refine KeepsR.ite (fun _ => .next (.refl s)) fun _ => ?_
    extract_lets _ s1 _
    have h1 : Keeps s s1 := keeps_fields (.refl s) id (memWf_foldl (fun m (w : Nat × List Byte) => memWf_mwrite w.1 w.2) _)
    clear_value s1
    exact KeepsR.ite (fun _ => .next (keeps_settle (keeps_fault h1))) fun _ => .next h1
  · exact .next (.refl s)

theorem keeps_execLinkDown : KeepsR s (execLinkDown s) := by
  grind [execLinkDown, keeps_fields, KeepsR.next, Keeps.refl]

theorem keeps_execLinkLost : KeepsR s (execLinkLost s) := by
  grind [execLinkLost, keeps_settle, keeps_levelFour, KeepsR.next, Keeps.refl]

theorem keeps_execIllegalInstr {a0} {a1} : KeepsR s (execIllegalInstr a0 a1 s) := by
  grind [execIllegalInstr, keeps_runSort, keeps_runComp, KeepsR.next, Keeps.refl]

theorem keeps_execSave {a0} : KeepsR s (execSave a0 s) := by
  grind [execSave, keeps_runInst, keeps_refuse, keeps_tagInst, keeps_kernelWrite, keeps_succeed, KeepsR.next, Keeps.refl]

theorem keeps_installSaved {a1} {a2} (h : Keeps s0 s) : Keeps s0 (State.installSaved s a1 a2) := by
  grind [State.installSaved, keeps_modInst, keeps_descWritten, keeps_fields, Keeps.foldl]

theorem keeps_reseal {a1} (h : Keeps s0 s) : ∀ t, State.reseal s a1 = some t → Keeps s0 t.2 := by
  grind [State.reseal, keeps_ctxRead, keeps_fields]

theorem keeps_execRestore {a0} : KeepsR s (execRestore a0 s) := by
  refine .next (keeps_runInst (.refl s) fun t x c ht => ?_)
  extract_lets i y
  refine Keeps.ite (fun _ => keeps_refuse ht) fun _ => Keeps.ite (fun _ => keeps_refuse ht) fun _ => Keeps.ite (fun _ => keeps_refuse ht) fun _ =>
    keeps_withBuf ht fun u l hu => ?_
  extract_lets l2 v t1 r t2
  clear_value l2
  split
  · exact keeps_refuse hu
  split
  · exact keeps_refuse hu
  have h1 : Keeps s t1 := keeps_installSaved hu
  clear_value t1
  have hr : Keeps s r.2 := by
    unfold r
    refine Keeps.foldlSnd h1 fun p e hp => ?_
    split
    · exact hp
    extract_lets hd
    split
    · exact hp
    split
    · exact hp
    next e => exact keeps_fields (keeps_reseal hp _ e) id id
  clear_value r
  split
  · exact keeps_refuse hu
  · exact keeps_succeed (keeps_modInst hr)

theorem keeps_lockedBase {a1} {a2} {a3} {a4} (h : Keeps s0 s) : Keeps s0 (State.lockedBase s a1 a2 a3 a4) := by
  grind [State.lockedBase, keeps_lockViolation, keeps_modFn]

theorem keeps_doorReg {a1} {a2} {a3} {a4} (h : Keeps s0 s) : Keeps s0 (State.doorReg s a1 a2 a3 a4) := by
  fun_cases State.doorReg s a1 a2 a3 a4
  all_goals grind [keeps_modQueue, keeps_settle, keeps_applyFlush]

theorem keeps_mbxReg {a1} {a2} (h : Keeps s0 s) : Keeps s0 (State.mbxReg s a1 a2) := by
  unfold State.mbxReg
  split <;> grind [keeps_settle, keeps_message, keeps_fields]

theorem keeps_fnReg {a1} {a2} {a3} (h : Keeps s0 s) : Keeps s0 (State.fnReg s a1 a2 a3) := by
  unfold State.fnReg
  split <;> grind [keeps_modFn, keeps_lockedBase, keeps_writeKqCtrl, keeps_settle, keeps_writeBncCtrl, keeps_readProd,
      keeps_writeFltCtrl, keeps_mbxReg, keeps_doorReg]

theorem keeps_mbxReqBytes {a1} {a2} {a3} {a4} (h : Keeps s0 s) : Keeps s0 (State.mbxReqBytes s a1 a2 a3 a4) := by
  grind [State.mbxReqBytes, keeps_fields, Keeps.foldl]

theorem keeps_msixByte {a1} {a2} {a3} (h : Keeps s0 s) : Keeps s0 (State.msixByte s a1 a2 a3) := by
  grind [State.msixByte, keeps_modInst, keeps_unmask]

theorem keeps_msixControl {a1} {a2} (h : Keeps s0 s) : Keeps s0 (State.msixControl s a1 a2) := by
  grind [State.msixControl, keeps_modInst, keeps_raise, Keeps.foldl]

theorem keeps_bar0Write {a1} {a2} {a3} {a4} {a5} (h : Keeps s0 s) : Keeps s0 (State.bar0Write s a1 a2 a3 a4 a5) := by
  grind [State.bar0Write, keeps_fnReg, keeps_mbxReqBytes, keeps_msixByte, keeps_doorReg, Keeps.foldl]

theorem keeps_configWrite {a1} {a2} {a3} (h : Keeps s0 s) : Keeps s0 (State.configWrite s a1 a2 a3) := by
  unfold State.configWrite
  split <;> grind [keeps_modInst, keeps_settle, keeps_resetInstance, keeps_msixControl, keeps_fields]

theorem keeps_protReg {a1} {a2} (h : Keeps s0 s) : Keeps s0 (State.protReg s a1 a2) := by
  unfold State.protReg
  split <;> grind [keeps_lockViolation, keeps_coldSlots, keeps_fields]

theorem keeps_flashReg {a1} {a2} (h : Keeps s0 s) : Keeps s0 (State.flashReg s a1 a2) := by
  unfold State.flashReg
  split <;> grind [keeps_modFp]

theorem keeps_execRegisterWrite {a0} {a1} {a2} {a3} {a4} : KeepsR s (execRegisterWrite a0 a1 a2 a3 a4 s) := by
  unfold execRegisterWrite
  split <;> grind [keeps_fault, keeps_bar0Write, keeps_configWrite, keeps_protReg, keeps_flashReg, keeps_modFp, Keeps.foldl,
      KeepsR.next, Keeps.refl]

theorem keeps_modServe {a1} (h : Keeps s0 s) : Keeps s0 (State.modServe s a1) := keeps_fields h id id

theorem keeps_execStepConfig {a0} : KeepsR s (execStepConfig a0 s) := by
  grind [execStepConfig, keeps_runCmd, keeps_refuse, keeps_succeed, keeps_modServe, KeepsR.next, Keeps.refl]

theorem keeps_execStepModel {a0} : KeepsR s (execStepModel a0 s) := by
  unfold execStepModel
  refine .next (keeps_runCmd (.refl s) fun t x1 x2 h => ?_)
  grind [keeps_refuse, keeps_succeed, keeps_modServe, KeepsR.next, Keeps.refl]

theorem keeps_execSeqOpen {a0} : KeepsR s (execSeqOpen a0 s) := by
  unfold execSeqOpen
  refine .next (keeps_runCmd (.refl s) fun t x1 x2 h => ?_)
  grind [keeps_refuse, keeps_succeed, keeps_modServe, KeepsR.next, Keeps.refl]

theorem keeps_signalOne {a1} {a2} (h : Keeps s0 s) : Keeps s0 (State.signalOne s a1 a2).2 := by
  grind [State.signalOne, keeps_modSeq]

theorem keeps_foldlOf {α β : Type} {g : β → State} {f : β → α → β} {l : List α} {b : β} (h : Keeps s0 (g b))
    (hf : ∀ b x, Keeps s0 (g b) → Keeps s0 (g (f b x))) : Keeps s0 (g (l.foldl f b)) := by
  induction l generalizing b with
  | nil => exact h
  | cons x l ih => exact ih (hf b x h)

theorem keeps_execSeqSignal {a0} : KeepsR s (execSeqSignal a0 s) := by
  refine .next (keeps_runCmd (.refl s) fun t x c ht => ?_)
  extract_lets n va
  refine Keeps.ite (fun _ => keeps_refuse ht) fun _ => ?_
  split
  next e => exact keeps_cmdFault (Keeps.ofPair e (keeps_ctxRead ht))
  · exact ht
  next e =>
    extract_lets r
    have hr : Keeps s r.2.2 :=
      keeps_foldlOf (g := fun r : List Byte × Nat × State => r.2.2) (Keeps.ofPair e (keeps_ctxRead ht)) fun p k hp => keeps_signalOne hp
    clear_value r
    split
    next e => exact keeps_cmdFault (Keeps.ofPair e (keeps_ctxWrite hr))
    · exact ht
    next e => exact keeps_succeed (keeps_tagInst (Keeps.ofPair e (keeps_ctxWrite hr)))

theorem keeps_execSeqClose {a0} : KeepsR s (execSeqClose a0 s) := by
  grind [execSeqClose, keeps_runCmd, keeps_refuse, keeps_modSeq, keeps_freeSeq, keeps_succeed, KeepsR.next, Keeps.refl]

theorem keeps_execSeqQuery {a0} : KeepsR s (execSeqQuery a0 s) := by
  grind [execSeqQuery, keeps_runCmd, keeps_refuse, keeps_ctxWrite, keeps_cmdFault, keeps_succeed, keeps_tagInst, KeepsR.next,
      Keeps.refl]

theorem keeps_buildSlot {a1} {a2} {a3} {a4} {a5} {a6} {a7} (h : Keeps s0 s) :
    Keeps s0 (State.buildSlot s a1 a2 a3 a4 a5 a6 a7).2.2 := by
  grind [State.buildSlot, keeps_modServe, Keeps.foldl]

theorem keeps_dropRun {a1} {a2} (h : Keeps s0 s) : Keeps s0 (State.dropRun s a1 a2) := keeps_modServe h

theorem keeps_inject {a1} {a2} (h : Keeps s0 s) : Keeps s0 (State.inject s a1 a2) := by
  unfold State.inject
  extract_lets m se n body _
  split
  · refine Keeps.ite (fun _ => keeps_dropRun h) fun _ => ?_
    extract_lets no
    split
    next e => exact keeps_dropRun (keeps_accFault (Keeps.ofPair e (keeps_ctxWrite h)))
    · exact keeps_dropRun h
    next e =>
      have h1 := Keeps.ofPair e (keeps_ctxWrite h)
      split
      next e => exact keeps_dropRun (keeps_accFault (Keeps.ofPair e (keeps_ctxRead h1)))
      · exact keeps_dropRun h
      next e =>
        have h2 := Keeps.ofPair e (keeps_ctxRead h1)
        extract_lets c s3 s4 w
        have h3 : Keeps s0 s3 := keeps_modServe (keeps_modQueue h2)
        clear_value s3
        have h4 : Keeps s0 s4 := Keeps.foldl h3 fun t i ht => keeps_modSeq ht
        clear_value s4 se
        split
        · exact keeps_refuse h4
        refine Keeps.ite (fun _ => keeps_refuse h4) fun _ => ?_
        split
        · exact keeps_refuse h4
        · exact keeps_makeStep h4
  · exact keeps_dropRun h

theorem keeps_execStepBuild {a0} : KeepsR s (execStepBuild a0 s) := by
  unfold execStepBuild
  extract_lets g t
  split
  · exact .next (.refl s)
  refine KeepsR.ite (fun _ => .next (.refl s)) fun _ => ?_
  extract_lets s1 s2 snap mine r
  have h2 : Keeps s s2 := keeps_modServe (keeps_modServe (.refl s))
  clear_value s2
  have hr : Keeps s r.2.2 :=
    keeps_foldlOf (g := fun r : Nat × List (Nat × Batch) × State => r.2.2) h2 fun p m hp => keeps_buildSlot hp
  clear_value r
  exact .next (keeps_settle (Keeps.foldl hr fun t b ht => keeps_inject ht))

theorem keeps_execDlmReport {a0} : KeepsR s (execDlmReport a0 s) := by
  unfold execDlmReport
  split <;> grind [keeps_writeVerdict, keeps_modServe, keeps_fault, KeepsR.next, Keeps.refl]

theorem keeps_recalibrate {a1} {a2} (h : Keeps s0 s) : Keeps s0 (State.recalibrate s a1 a2) := by
  grind [State.recalibrate, keeps_modServe, keeps_fields]

theorem keeps_execBatchRetire {a0} : KeepsR s (execBatchRetire a0 s) := by
  unfold execBatchRetire
  split
  · exact .next (.refl s)
  split
  · exact .next (.refl s)
  extract_lets ok lost r s2
  have hr : Keeps s r.2 := by
    unfold r
    refine Keeps.foldlSnd (.refl s) fun p i hp => ?_
    split
    · exact hp
    extract_lets e2 n
    split
    · exact keeps_freeSeq hp
    · exact keeps_modSeq hp
    · exact hp
  clear_value r
  have h2 : Keeps s s2 := keeps_modServe hr
  clear_value s2
  exact .next (Keeps.ite (fun _ => keeps_recalibrate h2) fun _ => h2)

theorem keeps_proofFailed {a1} {a2} {a3} (h : Keeps s0 s) : Keeps s0 (State.proofFailed s a1 a2 a3) := keeps_fault h

theorem keeps_proveOne {a1} {a2} {a3} {a4} (h : Keeps s0 s) : Keeps s0 (State.proveOne s a1 a2 a3 a4) := by
  unfold State.proveOne
  extract_lets prev half put
  have hp : ∀ {t}, Keeps s0 t → Keeps s0 (put t) := fun ht => keeps_modServe ht
  clear_value put
  refine Keeps.ite (fun _ => ?_) fun _ => hp h
  split
  next e => exact keeps_proofFailed (Keeps.ofPair e (keeps_proofRead h))
  next e => exact hp (keeps_heal (keeps_mem (Keeps.ofPair e (keeps_proofRead h)) (memWf_mwrite _ _)))

theorem keeps_execProofRound {a0} : KeepsR s (execProofRound a0 s) := by
  grind [execProofRound, keeps_modServe, keeps_fault, keeps_settle, keeps_proveOne, Keeps.foldl, KeepsR.next, Keeps.refl]

theorem keeps_restoreOne {a1} {a2} {a3} (h : Keeps s0 s) : Keeps s0 (State.restoreOne s a1 a2 a3) := by
  grind [State.restoreOne, keeps_modServe, keeps_proofFailed, keeps_rollBack, keeps_modSeq]

theorem keeps_execSliceRestore {a0} {a1} : KeepsR s (execSliceRestore a0 a1 s) := by
  grind [execSliceRestore, keeps_modServe, keeps_proofFailed, keeps_restoreOne, keeps_settle, Keeps.foldl, KeepsR.next, Keeps.refl]

theorem keeps_execSliceWriteBack {a0} : KeepsR s (execSliceWriteBack a0 s) := by
  grind [execSliceWriteBack, keeps_modServe, KeepsR.next, Keeps.refl]

theorem keeps_execVld {a0} {a1} {a2} {a3} {a4} : KeepsR s (execVld a0 a1 a2 a3 a4 s) := .next (keeps_runSort (.refl s))

theorem keeps_execVldb {a0} {a1} {a2} {a3} {a4} : KeepsR s (execVldb a0 a1 a2 a3 a4 s) := .next (keeps_runSort (.refl s))

theorem keeps_execVst {a0} {a1} {a2} {a3} {a4} : KeepsR s (execVst a0 a1 a2 a3 a4 s) := .next (keeps_runSort (.refl s))

theorem keeps_execTld {a0} {a1} {a2} {a3} {a4} : KeepsR s (execTld a0 a1 a2 a3 a4 s) := .next (keeps_runSort (.refl s))

theorem keeps_execTst {a0} {a1} {a2} {a3} {a4} : KeepsR s (execTst a0 a1 a2 a3 a4 s) := .next (keeps_runSort (.refl s))

theorem keeps_execTzero {a0} {a1} {a2} {a3} {a4} : KeepsR s (execTzero a0 a1 a2 a3 a4 s) := .next (keeps_runSort (.refl s))

theorem keeps_execTrv {a0} {a1} {a2} {a3} {a4} : KeepsR s (execTrv a0 a1 a2 a3 a4 s) := .next (keeps_runSort (.refl s))

theorem keeps_execTwv {a0} {a1} {a2} {a3} {a4} : KeepsR s (execTwv a0 a1 a2 a3 a4 s) := .next (keeps_runSort (.refl s))

theorem keeps_execVArith {a0} {a1} {a2} {a3} {a4} {a5} {a6} {a7} : KeepsR s (execVArith a0 a1 a2 a3 a4 a5 a6 a7 s) :=
  .next (keeps_runUnit (.refl s))

theorem keeps_execVsqrt {a0} {a1} {a2} {a3} {a4} {a5} {a6} : KeepsR s (execVsqrt a0 a1 a2 a3 a4 a5 a6 s) := .next (keeps_runUnit (.refl s))

theorem keeps_execVMinMax {a0} {a1} {a2} {a3} {a4} {a5} {a6} {a7} : KeepsR s (execVMinMax a0 a1 a2 a3 a4 a5 a6 a7 s) :=
  .next (keeps_runUnit (.refl s))

theorem keeps_execVSign {a0} {a1} {a2} {a3} {a4} {a5} {a6} {a7} : KeepsR s (execVSign a0 a1 a2 a3 a4 a5 a6 a7 s) :=
  .next (keeps_runUnit (.refl s))

theorem keeps_execVcmp {a0} {a1} {a2} {a3} {a4} {a5} {a6} {a7} : KeepsR s (execVcmp a0 a1 a2 a3 a4 a5 a6 a7 s) :=
  .next (keeps_runUnit (.refl s))

theorem keeps_execVhsum {a0} {a1} {a2} {a3} {a4} {a5} : KeepsR s (execVhsum a0 a1 a2 a3 a4 a5 s) := .next (keeps_runUnit (.refl s))

theorem keeps_execVhmax {a0} {a1} {a2} {a3} {a4} {a5} : KeepsR s (execVhmax a0 a1 a2 a3 a4 a5 s) := .next (keeps_runUnit (.refl s))

theorem keeps_execVfma {a0} {a1} {a2} {a3} {a4} {a5} {a6} {a7} : KeepsR s (execVfma a0 a1 a2 a3 a4 a5 a6 a7 s) :=
  .next (keeps_runUnit (.refl s))

theorem keeps_execVfnma {a0} {a1} {a2} {a3} {a4} {a5} {a6} {a7} : KeepsR s (execVfnma a0 a1 a2 a3 a4 a5 a6 a7 s) :=
  .next (keeps_runUnit (.refl s))

theorem keeps_execVInt {a0} {a1} {a2} {a3} {a4} {a5} {a6} : KeepsR s (execVInt a0 a1 a2 a3 a4 a5 a6 s) := .next (keeps_runUnit (.refl s))

theorem keeps_execVLogic {a0} {a1} {a2} {a3} {a4} {a5} {a6} : KeepsR s (execVLogic a0 a1 a2 a3 a4 a5 a6 s) :=
  .next (keeps_runUnit (.refl s))

theorem keeps_execVShift {a0} {a1} {a2} {a3} {a4} {a5} {a6} : KeepsR s (execVShift a0 a1 a2 a3 a4 a5 a6 s) :=
  .next (keeps_runUnit (.refl s))

theorem keeps_execVIMinMax {a0} {a1} {a2} {a3} {a4} {a5} {a6} : KeepsR s (execVIMinMax a0 a1 a2 a3 a4 a5 a6 s) :=
  .next (keeps_runUnit (.refl s))

theorem keeps_execVsel {a0} {a1} {a2} {a3} {a4} {a5} : KeepsR s (execVsel a0 a1 a2 a3 a4 a5 s) := .next (keeps_runUnit (.refl s))

theorem keeps_execVperm {a0} {a1} {a2} {a3} {a4} {a5} : KeepsR s (execVperm a0 a1 a2 a3 a4 a5 s) := .next (keeps_runUnit (.refl s))

theorem keeps_execVbcst {a0} {a1} {a2} {a3} {a4} {a5} : KeepsR s (execVbcst a0 a1 a2 a3 a4 a5 s) := .next (keeps_runUnit (.refl s))

theorem keeps_execVext {a0} {a1} {a2} {a3} {a4} {a5} : KeepsR s (execVext a0 a1 a2 a3 a4 a5 s) := .next (keeps_runUnit (.refl s))

theorem keeps_execVcvt {a0} {a1} {a2} {a3} {a4} {a5} {a6} {a7} : KeepsR s (execVcvt a0 a1 a2 a3 a4 a5 a6 a7 s) :=
  .next (keeps_runUnit (.refl s))

theorem keeps_execVmx {a0} {a1} {a2} {a3} {a4} {a5} {a6} {a7} {a8} : KeepsR s (execVmx a0 a1 a2 a3 a4 a5 a6 a7 a8 s) :=
  .next (keeps_runUnit (.refl s))

theorem keeps_execVdqmx {a0} {a1} {a2} {a3} {a4} {a5} {a6} {a7} {a8} : KeepsR s (execVdqmx a0 a1 a2 a3 a4 a5 a6 a7 a8 s) :=
  .next (keeps_runUnit (.refl s))

theorem keeps_execMma {a0} {a1} {a2} {a3} {a4} {a5} {a6} {a7} : KeepsR s (execMma a0 a1 a2 a3 a4 a5 a6 a7 s) :=
  .next (keeps_runUnit (.refl s))

theorem keeps_execMscl {a0} {a1} {a2} {a3} : KeepsR s (execMscl a0 a1 a2 a3 s) := .next (keeps_runSort (.refl s))

theorem keeps_streamMove {a1} {a2} {a3} {a4} {a5} {a6} {a7} (h : Keeps s0 s) :
    Keeps s0 (State.streamMove s a1 a2 a3 a4 a5 a6 a7) := by
  grind [State.streamMove, keeps_runSort]

theorem keeps_execSmovCs {a0} {a1} {a2} {a3} {a4} {a5} : KeepsR s (execSmovCs a0 a1 a2 a3 a4 a5 s) := .next (keeps_streamMove (.refl s))

theorem keeps_execSmovSc {a0} {a1} {a2} {a3} {a4} {a5} : KeepsR s (execSmovSc a0 a1 a2 a3 a4 a5 s) := .next (keeps_streamMove (.refl s))

theorem keeps_execSmovCg {a0} {a1} {a2} {a3} {a4} {a5} : KeepsR s (execSmovCg a0 a1 a2 a3 a4 a5 s) := .next (keeps_streamMove (.refl s))

theorem keeps_execSmovGc {a0} {a1} {a2} {a3} {a4} {a5} : KeepsR s (execSmovGc a0 a1 a2 a3 a4 a5 s) := .next (keeps_streamMove (.refl s))

theorem keeps_execSmovSg {a0} {a1} {a2} {a3} {a4} {a5} : KeepsR s (execSmovSg a0 a1 a2 a3 a4 a5 s) := .next (keeps_streamMove (.refl s))

theorem keeps_execSmovGs {a0} {a1} {a2} {a3} {a4} {a5} : KeepsR s (execSmovGs a0 a1 a2 a3 a4 a5 s) := .next (keeps_streamMove (.refl s))

theorem keeps_execStreamMoveDone {a0} {a1} {a2} : KeepsR s (execStreamMoveDone a0 a1 a2 s) := by
  fun_cases execStreamMoveDone a0 a1 a2 s
  all_goals grind [keeps_stepCharge, keeps_setGalley, keeps_fields, KeepsR.next, Keeps.refl]

theorem keeps_execSwait {a0} {a1} {a2} {a3} : KeepsR s (execSwait a0 a1 a2 a3 s) := .next (keeps_runSort (.refl s))

theorem keeps_execLkup {a0} {a1} {a2} {a3} {a4} : KeepsR s (execLkup a0 a1 a2 a3 a4 s) := .next (keeps_runSort (.refl s))

theorem keeps_execLwait {a0} {a1} {a2} : KeepsR s (execLwait a0 a1 a2 s) := by
  grind [execLwait, keeps_runSort, Keeps.foldl, KeepsR.next, Keeps.refl]

theorem keeps_execLstat {a0} {a1} {a2} {a3} : KeepsR s (execLstat a0 a1 a2 a3 s) := .next (keeps_runSort (.refl s))

theorem keeps_barrier {a1} {a2} {a3} {a4} (h : Keeps s0 s) : Keeps s0 (State.barrier s a1 a2 a3 a4) := by
  grind [State.barrier, keeps_runSort, keeps_setGalley]

theorem keeps_execBarS {a0} {a1} {a2} {a3} {a4} : KeepsR s (execBarS a0 a1 a2 a3 a4 s) := by
  grind [execBarS, keeps_runSort, keeps_barrier, KeepsR.next, Keeps.refl]

theorem keeps_execBarG {a0} {a1} {a2} {a3} {a4} : KeepsR s (execBarG a0 a1 a2 a3 a4 s) := by
  grind [execBarG, keeps_runSort, keeps_barrier, KeepsR.next, Keeps.refl]

theorem keeps_execBarrierRelease {a0} {a1} {a2} : KeepsR s (execBarrierRelease a0 a1 a2 s) := by
  grind [execBarrierRelease, keeps_setGalley, keeps_sortNext, Keeps.foldl, KeepsR.next, Keeps.refl]

theorem keeps_execMsend {a0} {a1} {a2} {a3} {a4} : KeepsR s (execMsend a0 a1 a2 a3 a4 s) := by
  grind [execMsend, keeps_runSort, keeps_modGalley, KeepsR.next, Keeps.refl]

theorem keeps_execMessageDelivery {a0} {a1} {a2} : KeepsR s (execMessageDelivery a0 a1 a2 s) := by
  grind [execMessageDelivery, keeps_setGalley, KeepsR.next, Keeps.refl]

theorem keeps_execMrecv {a0} {a1} {a2} : KeepsR s (execMrecv a0 a1 a2 s) := .next (keeps_runSort (.refl s))

theorem keeps_execMpoll {a0} {a1} {a2} : KeepsR s (execMpoll a0 a1 a2 s) := .next (keeps_runSort (.refl s))

theorem keeps_stopAtSlug {a1} {a2} {a3} (h : Keeps s0 s) : Keeps s0 (State.stopAtSlug s a1 a2 a3) := by
  grind [State.stopAtSlug, keeps_setSliver]

theorem keeps_execSlug {a0} {a1} {a2} {a3} {a4} : KeepsR s (execSlug a0 a1 a2 a3 a4 s) := .next (keeps_stopAtSlug (keeps_runSort (.refl s)))

theorem keeps_execSlugOverrun {a0} {a1} : KeepsR s (execSlugOverrun a0 a1 s) := by
  grind [execSlugOverrun, keeps_coreException, KeepsR.next, Keeps.refl]

theorem keeps_execSdone {a0} {a1} : KeepsR s (execSdone a0 a1 s) := by
  grind [execSdone, keeps_setGalley, KeepsR.next, Keeps.refl]

theorem keeps_execSystemNop {a0} {a1} : KeepsR s (execSystemNop a0 a1 s) := .next (keeps_runSort (.refl s))

theorem keeps_execSrd {a0} {a1} {a2} {a3} : KeepsR s (execSrd a0 a1 a2 a3 s) := .next (keeps_runSort (.refl s))

theorem keeps_execSwr {a0} {a1} {a2} {a3} : KeepsR s (execSwr a0 a1 a2 a3 s) := .next (keeps_runSort (.refl s))

theorem keeps_execRctlInj {a0} {a1} {a2} {a3} {a4} : KeepsR s (execRctlInj a0 a1 a2 a3 a4 s) := .next (keeps_runSort (.refl s))

theorem keeps_adoptSort {a1} {a2} (h : Keeps s0 s) : Keeps s0 (State.adoptSort s a1 a2) :=
  keeps_oversLow (keeps_fields (keeps_modGalley h) id id)

theorem keeps_execSortAdoptionDone {a0} {a1} : KeepsR s (execSortAdoptionDone a0 a1 s) := by
  fun_cases execSortAdoptionDone a0 a1 s
  all_goals grind [keeps_setGalley, keeps_fault, keeps_adoptSort, KeepsR.next, Keeps.refl]

theorem keeps_execStickReplacementDone {a0} : KeepsR s (execStickReplacementDone a0 s) := by
  fun_cases execStickReplacementDone a0 s
  all_goals grind [keeps_setGalley, keeps_fault, keeps_oversLow, KeepsR.next, Keeps.refl]

theorem keeps_tickSorts (h : Keeps s0 s) : Keeps s0 (State.tickSorts s) := keeps_fields h id id

theorem keeps_tickGalley {a1} (h : Keeps s0 s) : Keeps s0 (State.tickGalley s a1) := by
  grind [State.tickGalley, keeps_modStep, keeps_account, keeps_modInst]

theorem keeps_tickQueues (h : Keeps s0 s) : Keeps s0 (State.tickQueues s) := keeps_fields h id id

theorem keeps_tickEnergy (h : Keeps s0 s) : Keeps s0 (State.tickEnergy s) := by
  grind [State.tickEnergy, keeps_fields]

theorem keeps_tick (h : Keeps s0 s) : Keeps s0 (State.tick s) := by
  grind [State.tick, keeps_tickQueues, keeps_tickGalley, keeps_tickSorts, keeps_tickEnergy, keeps_fields, Keeps.foldl]

/-- Every command keeps the queue of waiting commands and a legal state: its own lemma. -/
theorem keeps_exec (c : Instr) (s : State) : KeepsR s (exec c s) := by
  cases c with
  | alu => exact keeps_execAlu
  | mul => exact keeps_execMul
  | div => exact keeps_execDiv
  | cmp => exact keeps_execCmp
  | count => exact keeps_execCount
  | aluImm => exact keeps_execAluImm
  | lui => exact keeps_execLui
  | branch => exact keeps_execBranch
  | jal => exact keeps_execJal
  | jalr => exact keeps_execJalr
  | load => exact keeps_execLoad
  | store => exact keeps_execStore
  | vld => exact keeps_execVld
  | vldb => exact keeps_execVldb
  | vst => exact keeps_execVst
  | tld => exact keeps_execTld
  | tst => exact keeps_execTst
  | tzero => exact keeps_execTzero
  | trv => exact keeps_execTrv
  | twv => exact keeps_execTwv
  | vArith => exact keeps_execVArith
  | vsqrt => exact keeps_execVsqrt
  | vMinMax => exact keeps_execVMinMax
  | vSign => exact keeps_execVSign
  | vCmp => exact keeps_execVcmp
  | vhsum => exact keeps_execVhsum
  | vhmax => exact keeps_execVhmax
  | vfma => exact keeps_execVfma
  | vfnma => exact keeps_execVfnma
  | vInt => exact keeps_execVInt
  | vLogic => exact keeps_execVLogic
  | vShift => exact keeps_execVShift
  | vIMinMax => exact keeps_execVIMinMax
  | vsel => exact keeps_execVsel
  | vperm => exact keeps_execVperm
  | vbcst => exact keeps_execVbcst
  | vext => exact keeps_execVext
  | vcvt => exact keeps_execVcvt
  | vmx => exact keeps_execVmx
  | vdqmx => exact keeps_execVdqmx
  | mma => exact keeps_execMma
  | mscl => exact keeps_execMscl
  | smovCs => exact keeps_execSmovCs
  | smovSc => exact keeps_execSmovSc
  | smovCg => exact keeps_execSmovCg
  | smovGc => exact keeps_execSmovGc
  | smovSg => exact keeps_execSmovSg
  | smovGs => exact keeps_execSmovGs
  | streamMoveDone => exact keeps_execStreamMoveDone
  | swait => exact keeps_execSwait
  | lkup => exact keeps_execLkup
  | lwait => exact keeps_execLwait
  | lstat => exact keeps_execLstat
  | barS => exact keeps_execBarS
  | barG => exact keeps_execBarG
  | barrierRelease => exact keeps_execBarrierRelease
  | msend => exact keeps_execMsend
  | messageDelivery => exact keeps_execMessageDelivery
  | mrecv => exact keeps_execMrecv
  | mpoll => exact keeps_execMpoll
  | slug => exact keeps_execSlug
  | slugOverrun => exact keeps_execSlugOverrun
  | sdone => exact keeps_execSdone
  | systemNop => exact keeps_execSystemNop
  | srd => exact keeps_execSrd
  | swr => exact keeps_execSwr
  | rctlInj => exact keeps_execRctlInj
  | sortAdoptionDone => exact keeps_execSortAdoptionDone
  | stickReplacementDone => exact keeps_execStickReplacementDone
  | dstart => exact keeps_execDstart
  | dwait => exact keeps_execDwait
  | dstat => exact keeps_execDstat
  | gmove => exact keeps_execGmove
  | moveDone => exact keeps_execMoveDone
  | gmwait => exact keeps_execGmwait
  | gflush => exact keeps_execGflush
  | qwait => exact keeps_execQwait
  | qtake => exact keeps_execQtake
  | qdone => exact keeps_execQdone
  | qinfo => exact keeps_execQinfo
  | qexit => exact keeps_execQexit
  | lockstepCheck => exact keeps_execLockstepCheck
  | imageLoadVerify => exact keeps_execImageLoadVerify
  | listCheck => exact keeps_execListCheck
  | lookupEntry => exact keeps_execLookupEntry
  | endMark => exact keeps_execEndMark
  | entryAdmit => exact keeps_execEntryAdmit
  | tokenRefill => exact keeps_execTokenRefill
  | windowClose => exact keeps_execWindowClose
  | sheetReadDone => exact keeps_execSheetReadDone
  | windowComplete => exact keeps_execWindowComplete
  | bagSettle => exact keeps_execBagSettle
  | listComplete => exact keeps_execListComplete
  | unitResetResponse => exact keeps_execUnitResetResponse
  | codebookLoadDone => exact keeps_execCodebookLoadDone
  | sketchHalving => exact keeps_execSketchHalving
  | insertPlace => exact keeps_execInsertPlace
  | quarantineRelease => exact keeps_execQuarantineRelease
  | freqIncrement => exact keeps_execFreqIncrement
  | clockAgeing => exact keeps_execClockAgeing
  | mirrorResyncGranule => exact keeps_execMirrorResyncGranule
  | tableDefine => exact keeps_execTableDefine
  | tableDefineDone => exact keeps_execTableDefineDone
  | tableRetire => exact keeps_execTableRetire
  | tableRetireDone => exact keeps_execTableRetireDone
  | tableAdopt => exact keeps_execTableAdopt
  | updateRows => exact keeps_execUpdateRows
  | updateRecord => exact keeps_execUpdateRecord
  | write => exact keeps_execWrite
  | writeInsert => exact keeps_execWriteInsert
  | delete => exact keeps_execDelete
  | pin => exact keeps_execPin
  | unpin => exact keeps_execUnpin
  | rawSheets => exact keeps_execRawSheets
  | pad => exact keeps_execPad
  | updateRingRegister => exact keeps_execUpdateRingRegister
  | updateRingRemove => exact keeps_execUpdateRingRemove
  | updateRingPoll => exact keeps_execUpdateRingPoll
  | epochFence => exact keeps_execEpochFence
  | epochFenceDone => exact keeps_execEpochFenceDone
  | recentWriteRotate => exact keeps_execRecentWriteRotate
  | scrubStep => exact keeps_execScrubStep
  | frameRetireDone => exact keeps_execFrameRetireDone
  | flashListAppend => exact keeps_execFlashListAppend
  | ceTrackerClear => exact keeps_execCeTrackerClear
  | writeQueueTurn => exact keeps_execWriteQueueTurn
  | refresh => exact keeps_execRefresh
  | stackTempRead => exact keeps_execStackTempRead
  | trainingRecordWrite => exact keeps_execTrainingRecordWrite
  | fullTrainingDone => exact keeps_execFullTrainingDone
  | warmRestoreDone => exact keeps_execWarmRestoreDone
  | zeroFillDone => exact keeps_execZeroFillDone
  | selfRefreshTimeout => exact keeps_execSelfRefreshTimeout
  | stepConfig => exact keeps_execStepConfig
  | stepModel => exact keeps_execStepModel
  | seqOpen => exact keeps_execSeqOpen
  | seqSignal => exact keeps_execSeqSignal
  | seqClose => exact keeps_execSeqClose
  | seqQuery => exact keeps_execSeqQuery
  | stepBuild => exact keeps_execStepBuild
  | dlmReport => exact keeps_execDlmReport
  | batchRetire => exact keeps_execBatchRetire
  | proofRound => exact keeps_execProofRound
  | sliceRestore => exact keeps_execSliceRestore
  | sliceWriteBack => exact keeps_execSliceWriteBack
  | nop => exact keeps_execNop
  | launch => exact keeps_execLaunch
  | waitValue => exact keeps_execWaitValue
  | waitValueReread => exact keeps_execWaitValueReread
  | writeValue => exact keeps_execWriteValue
  | fenceReset => exact keeps_execFenceReset
  | query => exact keeps_execQuery
  | sealProgram => exact keeps_execSealProgram
  | map => exact keeps_execMap
  | unmap => exact keeps_execUnmap
  | mapAttr => exact keeps_execMapAttr
  | ctxCreate => exact keeps_execCtxCreate
  | ctxDestroy => exact keeps_execCtxDestroy
  | queueCreate => exact keeps_execQueueCreate
  | queueDestroy => exact keeps_execQueueDestroy
  | queueBind => exact keeps_execQueueBind
  | queueFlush => exact keeps_execQueueFlush
  | fenceCreate => exact keeps_execFenceCreate
  | fenceDestroy => exact keeps_execFenceDestroy
  | quotaSet => exact keeps_execQuotaSet
  | resetContext => exact keeps_execResetContext
  | resetQueue => exact keeps_execResetQueue
  | resetInstance => exact keeps_execResetInstance
  | resetGalley => exact keeps_execResetGalley
  | resetForme => exact keeps_execResetForme
  | resetBlock => exact keeps_execResetBlock
  | dbTail => exact keeps_execDbTail
  | dbCqHead => exact keeps_execDbCqHead
  | flush => exact keeps_execFlush
  | commandFetch => exact keeps_execCommandFetch
  | stalledRefetch => exact keeps_execStalledRefetch
  | spreadClaim => exact keeps_execSpreadClaim
  | kqEnable => exact keeps_execKqEnable
  | kqDisable => exact keeps_execKqDisable
  | registerWrite => exact keeps_execRegisterWrite
  | preemptSaveDone => exact keeps_execPreemptSaveDone
  | deadlineBudgetRefill => exact keeps_execDeadlineBudgetRefill
  | ledgerFlush => exact keeps_execLedgerFlush
  | periodClose => exact keeps_execPeriodClose
  | journalAppend => exact keeps_execJournalAppend
  | grant => exact keeps_execGrant
  | revoke => exact keeps_execRevoke
  | poolAdd => exact keeps_execPoolAdd
  | poolRemove => exact keeps_execPoolRemove
  | aperture => exact keeps_execAperture
  | hdm => exact keeps_execHdm
  | staging => exact keeps_execStaging
  | trackStart => exact keeps_execTrackStart
  | trackStop => exact keeps_execTrackStop
  | dirty => exact keeps_execDirty
  | readPages => exact keeps_execReadPages
  | writePages => exact keeps_execWritePages
  | freeze => exact keeps_execFreeze
  | freezeQuiet => exact keeps_execFreezeQuiet
  | freezeTimeout => exact keeps_execFreezeTimeout
  | save => exact keeps_execSave
  | restore => exact keeps_execRestore
  | thaw => exact keeps_execThaw
  | bceWeight => exact keeps_execBceWeight
  | streamOpen => exact keeps_execStreamOpen
  | streamClose => exact keeps_execStreamClose
  | instanceResetDone => exact keeps_execInstanceResetDone
  | flrVf => exact keeps_execFlrVf
  | flrPf => exact keeps_execFlrPf
  | d3hotToD0 => exact keeps_execD3hotToD0
  | vfEnableSet => exact keeps_execVfEnableSet
  | vfEnableClear => exact keeps_execVfEnableClear
  | msixUnmask => exact keeps_execMsixUnmask
  | hdmDecoderCommit => exact keeps_execHdmDecoderCommit
  | apertureRead => exact keeps_execApertureRead
  | apertureWrite => exact keeps_execApertureWrite
  | cxlMemRead => exact keeps_execCxlMemRead
  | cxlMemWrite => exact keeps_execCxlMemWrite
  | hostReadTimeout => exact keeps_execHostReadTimeout
  | linkTraining => exact keeps_execLinkTraining
  | linkDown => exact keeps_execLinkDown
  | linkLost => exact keeps_execLinkLost
  | bounceWrite => exact keeps_execBounceWrite
  | bounceRead => exact keeps_execBounceRead
  | bouncePad => exact keeps_execBouncePad
  | parkedReadRecheck => exact keeps_execParkedReadRecheck
  | bceSegmentDone => exact keeps_execBceSegmentDone
  | outboundMessageSend => exact keeps_execOutboundMessageSend
  | fnBncKick => exact keeps_execFnBncKick
  | bounceProdPoll => exact keeps_execBounceProdPoll
  | bncEnable => exact keeps_execBncEnable
  | bncDisable => exact keeps_execBncDisable
  | portLinkDown => exact keeps_execPortLinkDown
  | remoteGather => exact keeps_execRemoteGather
  | gatherExecutionDone => exact keeps_execGatherExecutionDone
  | gatherReply => exact keeps_execGatherReply
  | tableUpdate => exact keeps_execTableUpdate
  | ingest => exact keeps_execIngest
  | ack => exact keeps_execAck
  | nack => exact keeps_execNack
  | rawFrameIngest => exact keeps_execRawFrameIngest
  | pfcFrame => exact keeps_execPfcFrame
  | pfcRefresh => exact keeps_execPfcRefresh
  | pfcXon => exact keeps_execPfcXon
  | sendRingPoll => exact keeps_execSendRingPoll
  | ackSend => exact keeps_execAckSend
  | rtoExpiry => exact keeps_execRtoExpiry
  | gatherReplyTimeout => exact keeps_execGatherReplyTimeout
  | ingestConsPoll => exact keeps_execIngestConsPoll
  | fnFltEnable => exact keeps_execFnFltEnable
  | faultFlush => exact keeps_execFaultFlush
  | wgmScan => exact keeps_execWgmScan
  | queueWatchdog => exact keeps_execQueueWatchdog
  | kqWatchdog => exact keeps_execKqWatchdog
  | contextTeardownDone => exact keeps_execContextTeardownDone
  | ladderBoundMissed => exact keeps_execLadderBoundMissed
  | galleyResetDone => exact keeps_execGalleyResetDone
  | formeResetDone => exact keeps_execFormeResetDone
  | mcHeartbeatMiss => exact keeps_execMcHeartbeatMiss
  | mcWatchdog => exact keeps_execMcWatchdog
  | rotatingTestStart => exact keeps_execRotatingTestStart
  | iftDone => exact keeps_execIftDone
  | keyInfo => exact keeps_execKeyInfo
  | genPair => exact keeps_execGenPair
  | keyAttest => exact keeps_execKeyAttest
  | agree => exact keeps_execAgree
  | erase => exact keeps_execErase
  | assign => exact keeps_execAssign
  | sessionKeys => exact keeps_execSessionKeys
  | keySlotCommit => exact keeps_execKeySlotCommit
  | tamperN => exact keeps_execTamperN
  | protLock => exact keeps_execProtLock
  | getVersion => exact keeps_execGetVersion
  | getCapabilities => exact keeps_execGetCapabilities
  | negotiateAlgorithms => exact keeps_execNegotiateAlgorithms
  | getDigests => exact keeps_execGetDigests
  | getCertificate => exact keeps_execGetCertificate
  | challenge => exact keeps_execChallenge
  | getMeasurements => exact keeps_execGetMeasurements
  | keyExchange => exact keeps_execKeyExchange
  | spdmFinish => exact keeps_execSpdmFinish
  | endSession => exact keeps_execEndSession
  | heartbeat => exact keeps_execHeartbeat
  | keyUpdate => exact keeps_execKeyUpdate
  | getCsr => exact keeps_execGetCsr
  | setCertificate => exact keeps_execSetCertificate
  | spdmUnsupportedRequest => exact keeps_execSpdmUnsupportedRequest
  | mbxGo => exact keeps_execMbxGo
  | mgtIrq => exact keeps_execMgtIrq
  | macphyRetry => exact keeps_execMacphyRetry
  | neighbourSolicitation => exact keeps_execNeighbourSolicitation
  | hello => exact keeps_execHello
  | apgusFinish => exact keeps_execApgusFinish
  | handshakeTimeout => exact keeps_execHandshakeTimeout
  | record => exact keeps_execRecord
  | sessionIdleTimeout => exact keeps_execSessionIdleTimeout
  | get => exact keeps_execGet
  | set => exact keeps_execSet
  | apgusInfo => exact keeps_execApgusInfo
  | blobRead => exact keeps_execBlobRead
  | blobWrite => exact keeps_execBlobWrite
  | subscribe => exact keeps_execSubscribe
  | close => exact keeps_execClose
  | telemetryTick => exact keeps_execTelemetryTick
  | beacon => exact keeps_execBeacon
  | connectionOpen => exact keeps_execConnectionOpen
  | connectionDisable => exact keeps_execConnectionDisable
  | modeChange => exact keeps_execModeChange
  | prepareDeadline => exact keeps_execPrepareDeadline
  | modeCommit => exact keeps_execModeCommit
  | confirmDeadline => exact keeps_execConfirmDeadline
  | nextProfile => exact keeps_execNextProfile
  | quotaObjectWrite => exact keeps_execQuotaObjectWrite
  | resetReqWarm => exact keeps_execResetReqWarm
  | resetReqCold => exact keeps_execResetReqCold
  | resetReqPowerCycle => exact keeps_execResetReqPowerCycle
  | alertAck => exact keeps_execAlertAck
  | release => exact keeps_execRelease
  | trainReq => exact keeps_execTrainReq
  | wallSet => exact keeps_execWallSet
  | install => exact keeps_execInstall
  | claim => exact keeps_execClaim
  | debugToken => exact keeps_execDebugToken
  | fwImage => exact keeps_execFwImage
  | verify => exact keeps_execVerify
  | stage => exact keeps_execStage
  | activate => exact keeps_execActivate
  | trialEnd => exact keeps_execTrialEnd
  | confirm => exact keeps_execConfirm
  | selectFs1 => exact keeps_execSelectFs1
  | fwAbort => exact keeps_execFwAbort
  | arbCommit => exact keeps_execArbCommit
  | fwRevoke => exact keeps_execFwRevoke
  | profileSelect => exact keeps_execProfileSelect
  | profileCancel => exact keeps_execProfileCancel
  | profileRead => exact keeps_execProfileRead
  | setCustom => exact keeps_execSetCustom
  | porNAssert => exact keeps_execPorNAssert
  | porNRelease => exact keeps_execPorNRelease
  | warmN => exact keeps_execWarmN
  | coldStartDone => exact keeps_execColdStartDone
  | warmStartDone => exact keeps_execWarmStartDone
  | startFailed => exact keeps_execStartFailed
  | startRetry => exact keeps_execStartRetry
  | refclkLoss => exact keeps_execRefclkLoss
  | refclkReturn => exact keeps_execRefclkReturn
  | vriAck => exact keeps_execVriAck
  | vriAckTimeout => exact keeps_execVriAckTimeout
  | railTrip => exact keeps_execRailTrip
  | powerSample => exact keeps_execPowerSample
  | dieTempRead => exact keeps_execDieTempRead
  | voltageBandChange => exact keeps_execVoltageBandChange
  | thermtrip => exact keeps_execThermtrip
  | fpRead => exact keeps_execFpRead
  | fpProgram => exact keeps_execFpProgram
  | fpErase4k => exact keeps_execFpErase4k
  | fpBlankCheck => exact keeps_execFpBlankCheck
  | fpResetDevice => exact keeps_execFpResetDevice
  | fpOperationDone => exact keeps_execFpOperationDone
  | fpTimeout => exact keeps_execFpTimeout
  | storeCompaction => exact keeps_execStoreCompaction
  | illegalInstr => exact keeps_execIllegalInstr
  | unitFault => exact keeps_execUnitFault
  | fabricLinkFault => exact keeps_execFabricLinkFault
  | portLinkUp => exact keeps_execPortLinkUp
  | tamperNDeassert => exact keeps_execTamperNDeassert
  | pfcQuantaExpiry => exact keeps_execPfcQuantaExpiry
  | keyCellFailure => exact keeps_execKeyCellFailure
  -- What is left is UNSEAL, whose constructor cannot be named here: its name is a keyword of Lean's.
  | _ => exact keeps_execUnseal

end Sys2Proof.Laws

open Sys2Proof Sys2Proof.Machine Sys2Proof.Laws

/-- Settles O59: every command keeps the queue (`keeps_exec`). -/
theorem commandsLeaveTheQueue : Obligations.CommandsLeaveTheQueue :=
  fun c s t e => ((keeps_exec c s).keeps t e).pending

/-- A run that meets O59's hypothesis: a token refill before the first boundary leaves the command that waits behind it. -/
theorem commandsLeaveTheQueue_witness : ∃ t,
    exec .tokenRefill { State.reset with pending := [.tokenRefill] } = .next t ∧ t.pending = [.tokenRefill] := by
  have hexec : exec .tokenRefill { State.reset with pending := [.tokenRefill] } =
      .next { State.reset with pending := [.tokenRefill] } := rfl
  exact ⟨_, hexec, commandsLeaveTheQueue _ _ _ hexec⟩

/-- Settles O60: an idle step is a tick (`keeps_tick`), any other runs one command (`keeps_exec`), and legality does not
speak of the queue. -/
theorem everyStepKeepsLegal : Obligations.EveryStepKeepsLegal := by
  intro s t hlegal hstep
  unfold step at hstep
  split at hstep
  · cases hstep
    exact (keeps_tick (.refl s)).legal hlegal
  next c rest _ => exact ((keeps_exec c { s with pending := rest }).keeps t hstep).legal hlegal

/-- A run that meets O60's hypotheses: the state after reset, idle. -/
theorem everyStepKeepsLegal_witness : State.reset.tick.Legal := 
  everyStepKeepsLegal State.reset _ resetState.2 rfl

end

section
/-! PROOFS. Loads and stores of a sort's case (03_sort.md R94 to R96) and of a compositor pair (04_galleys.md R149): the bytes
they move and everything they leave. -/

namespace Sys2Proof.Machine

/-! ### The case -/

section
variable {t : SortSt} {a n : Nat}

theorem caseCheck_range (hal : a % n = 0) (hend : caseBytes < a + n) : caseCheck a n = some .caseRange := by
  rw [caseCheck, if_neg (not_not.mpr hal), if_pos hend]

theorem caseLoad_accessible (h : t.Accessible a n) (k : Nat → SortSt) :
    t.caseLoad a n k = .next (k (mload t.dcase a n)) false := by
  obtain ⟨hcheck, hfree, hecc⟩ := h
  simp [SortSt.caseLoad, hcheck, hfree, hecc]

/-- The sort once its store is done: the bytes are in the case, and the words they cover have no error. -/
def SortSt.stored (t : SortSt) (a n x : Nat) : SortSt :=
  { t with dcase := mstore t.dcase a n x,
           badWords := t.badWords.filter (fun w => !(decide (a ≤ 8 * w) && decide (8 * w + 8 ≤ a + n))) }

theorem caseStore_accessible (h : t.Accessible a n) (x : Nat) : t.caseStore a n x = .next (t.stored a n x) false := by
  obtain ⟨hcheck, hfree, -⟩ := h
  simp [SortSt.caseStore, hcheck, hfree, SortSt.stored]

theorem toLE_length (n x : Nat) : (toLE n x).length = n := by
  induction n generalizing x with
  | zero => rfl
  | succ n ih => rw [toLE, List.length_cons, ih]

theorem mget_mstore_out {m : Mem} {x j : Nat} (h : j < a ∨ a + n ≤ j) : mget (mstore m a n x) j = mget m j :=
  mget_mwrite_out _ (by rwa [toLE_length])

variable {s : State} {g sl : Nat}

/-- A load from an accessible address goes on with the register written. -/
theorem run_caseLoad (hrun : s.Runs g sl t) (rs : Reg) (imm : BitVec 12) {k : SortSt → Nat → SortSt}
    (h : t.Accessible (t.ea rs imm) n) (hpc : ∀ x, (k t x).pc = t.pc) :
    s.runSort g sl isRunning (fun _ t => t.caseLoad (t.ea rs imm) n (k t)) =
      s.after g sl (k t (mload t.dcase (t.ea rs imm) n)) :=
  run_next (f := fun _ u => u.caseLoad (u.ea rs imm) n (k u)) hrun (caseLoad_accessible h _) (hpc _)

theorem run_caseStore (hrun : s.Runs g sl t) (rs : Reg) (imm : BitVec 12) {x : SortSt → Nat}
    (h : t.Accessible (t.ea rs imm) n) :
    s.runSort g sl isRunning (fun _ t => t.caseStore (t.ea rs imm) n (x t)) =
      s.after g sl (t.stored (t.ea rs imm) n (x t)) :=
  run_next (f := fun _ u => u.caseStore (u.ea rs imm) n (x u)) hrun (caseStore_accessible h _) rfl

/-- The frame of a store. -/
theorem stored_frame (hrun : s.Runs g sl t) (a n x : Nat) :
    ∃ s' t', (.next (s.after g sl (t.stored a n x)) : Res) = .next s' ∧ (s'.galley g).sliver sl = some t' ∧
      t'.dcase = mstore t.dcase a n x ∧ (∀ b, b < a ∨ a + n ≤ b → mget t'.dcase b = mget t.dcase b) ∧
      t'.pc = t.pc + 4 ∧ t'.status = .running ∧ t'.s = t.s ∧ t'.v = t.v ∧ t'.a = t.a ∧ t'.ssr = t.ssr ∧ t'.book = t.book ∧
      (∀ j, j ≠ sl → (s'.galley g).sliver j = (s.galley g).sliver j) ∧ (∀ h, h ≠ g → s'.galley h = s.galley h) ∧
      s' = { s with galleys := s'.galleys } := by
  have hg := galley_lt hrun.1
  exact ⟨_, _, rfl, sliver_after _ hg, rfl, fun b hb => mget_mstore_out hb, rfl, rfl, rfl, rfl, rfl, rfl, rfl,
    fun j hj => sliver_after_ne _ s sl hg hj, fun h e => galley_after_ne _ s g sl e, after_eq ..⟩

end

/-! ### A compositor pair -/

section
variable {s : State} {g : Nat} {k : CompSt} {rs : Reg} {imm : BitVec 12}

/-- A load of the compositor from data memory or the galley store goes on with the register written. -/
theorem exec_load_comp (hrun : s.CompRuns g k) {op : LoadOp} (rd : Reg) {gs : Bool} {o : Nat}
    (hal : (k.gs rs + imm64 imm).toNat % (loadShape op).1 = 0)
    (hsp : compSpace (k.gs rs + imm64 imm).toNat (loadShape op).1 = some (gs, o)) :
    exec (.load ⟨g, none⟩ op rd rs imm) s = .next (s.compAfter g
      (k.ss rd (loadVal op (mload (if gs then (s.galley g).store else k.dmem) o (loadShape op).1)))) := by
  refine congrArg Host.Outcome.next (runComp_next hrun ?_ (comp_ss_pc k rd _))
  simp only [hal, hsp, ne_eq, not_true, if_false]

/-- What a store of the compositor does, by the space of its address. -/
theorem exec_store_comp (hrun : s.CompRuns g k) {op : StoreOp} {rt : Reg} {gs : Bool} {o : Nat}
    (hal : (k.gs rs + imm64 imm).toNat % storeBytes op = 0)
    (hsp : compSpace (k.gs rs + imm64 imm).toNat (storeBytes op) = some (gs, o)) :
    exec (.store ⟨g, none⟩ op rs rt imm) s = .next (match gs with
      | false => s.compAfter g { k with dmem := mstore k.dmem o (storeBytes op) (k.gs rt).toNat }
      | true => if inImageArea o (storeBytes op) then s.coreException ⟨g, none⟩ .compRange k.pc.toNat
        else ((s.modGalley g (fun y => { y with
          store := mstore y.store o (storeBytes op) (k.gs rt).toNat })).compAfter g k).forwardReport g o (storeBytes op)) := by
  obtain ⟨-, rfl, hstatus, hpc⟩ := hrun
  show execStore ⟨g, none⟩ op rs rt imm s = _
  simp only [execStore, hstatus, hal, hsp, ne_eq, not_true, if_false]
  cases gs with
  | false => exact congrArg Host.Outcome.next (compNext_after hpc)
  | true =>
    dsimp only
    split
    · rfl
    · rw [compNext_after hpc]

end

end Sys2Proof.Machine

open Sys2Proof Sys2Proof.Machine

/-- Settles O9: loads are `run_caseLoad`, an access that ends beyond the case is `caseCheck_range`, and a store's frame is
`stored_frame`. -/
theorem caseLoadsAndStores : Obligations.CaseLoadsAndStores := by
  refine ⟨fun s g sl t rs imm hrun => ⟨?load, ?vld, ?vldb, ?tld, ?loadRange, ?storeRange⟩, fun s g sl t rs imm hrun c n x hc hacc => ?store⟩
  case load =>
    exact fun op rd h => congrArg Host.Outcome.next
      (run_caseLoad (k := fun t x => t.ss rd (loadVal op x)) hrun rs imm h fun _ => ss_pc ..)
  case vld => exact fun vd h => congrArg Host.Outcome.next (run_caseLoad (k := fun t x => t.sv vd x) hrun rs imm h fun _ => rfl)
  case vldb =>
    exact fun vd h => congrArg Host.Outcome.next
      (run_caseLoad (k := fun t x => t.sv vd (packLanes 32 (List.replicate 16 x))) hrun rs imm h fun _ => rfl)
  case tld =>
    intro rd hrd h
    refine congrArg Host.Outcome.next (run_next hrun ?_ rfl)
    rw [if_neg hrd.not_ge, caseLoad_accessible h]
  case loadRange =>
    intro op rd hal hend
    refine congrArg Host.Outcome.next (run_exc hrun ?_)
    rw [SortSt.caseLoad, caseCheck_range hal hend]
  case storeRange =>
    intro op rt hal hend
    refine congrArg Host.Outcome.next (run_exc hrun ?_)
    rw [SortSt.caseStore, caseCheck_range hal hend]
  case store =>
    have hexec : exec c s = .next (s.after g sl (t.stored (t.ea rs imm) n x)) := by
      obtain ⟨op, rt, rfl, rfl, rfl⟩ | ⟨vt, rfl, rfl, rfl⟩ | ⟨rd, rfl, rfl, rfl⟩ := hc
      · exact congrArg Host.Outcome.next (run_caseStore (x := fun t => (t.gs rt).toNat) hrun rs imm hacc)
      · exact congrArg Host.Outcome.next (run_caseStore (x := fun t => (t.gv vt).toNat) hrun rs imm hacc)
      · exact congrArg Host.Outcome.next (run_caseStore (x := fun t => (t.ga (rd.toNat % 8)).toNat) hrun rs imm hacc)
    rw [hexec]
    exact stored_frame hrun _ _ _

/-- A run that meets O9's hypotheses: the sort reads byte 1 of its case, and a doubleword at 0x6000 is beyond the case. -/
theorem caseLoadsAndStores_witness :
    exec (.load ⟨0, some 0⟩ .lbu 2 1 0) (State.reset.setSliver 0 0 oneInS1Sort) =
      .next ((State.reset.setSliver 0 0 oneInS1Sort).after 0 0 (oneInS1Sort.ss 2 0)) :=
  (caseLoadsAndStores.1 _ 0 0 oneInS1Sort 1 0 oneInS1Sort_runs).1 .lbu 2 ⟨by decide, by decide, by decide⟩

/-- Settles O11: a load is `exec_load_comp`; a store's three cases are those of `exec_store_comp`. -/
theorem compositorMemory : Obligations.CompositorMemory := by
  intro s g k rs imm hrun
  refine ⟨fun op rd o hal hsp => ?_, fun op rd o hal hsp => ?_, fun op rt o hal hsp => exec_store_comp hrun hal hsp, fun op rt o hal hsp himage => ?_, fun op rt o hal hsp himage => ?_⟩
  · rw [exec_load_comp hrun rd hal hsp]; simp only [Bool.false_eq_true, if_false]
  · rw [exec_load_comp hrun rd hal hsp]; simp only [if_true]
  · rw [exec_store_comp hrun hal hsp]; simp only [himage, if_true]
  · rw [exec_store_comp hrun hal hsp]; simp only [himage, Bool.false_eq_true, if_false]

/-- A run that meets O11's hypotheses: the compositor reads the first word of its data memory. -/
theorem compositorMemory_witness :
    exec (.load ⟨0, none⟩ .lw 1 0 0) (State.reset.modGalley 0 (fun y => { y with comp := runningComp })) =
      .next ((State.reset.modGalley 0 (fun y => { y with comp := runningComp })).compAfter 0
        (runningComp.ss 1 (loadVal .lw (mload [] 0 4)))) :=
  (compositorMemory _ 0 runningComp 0 0 runningComp_runs).1 .lw 1 0 rfl rfl

end

section
/-! PROOFS. Vector instructions of a sort (03_sort.md R105, R106; 02_arithmetic.md R70): a legal type and mode give the
lane-wise result, its flags, and one charged vector operation. -/

namespace Sys2Proof.Machine

section
variable {s : State} {g sl : Nat} {t : SortSt}

/-- A vector floating-point instruction of a listed type, with a mode that is no RSR. -/
theorem run_vfp (hrun : s.Runs g sl t) {ty : BitVec 2} {rm : BitVec 3} {f : FFmt} {n : Nat} {r : RM} (vd : Reg)
    (hty : fpType ty = some (f, n)) (hrm : arithRm rm = some r) (chk : Bool)
    (q : SortSt → FFmt → Nat → RM → Nat × Flags) :
    s.runUnit g sl 3 (fun _ t => t.vfp ty rm chk vd (q t)) =
      s.afterUnit g sl 3 ((t.sv vd (q t f n r).1).flag (q t f n r).2) := by
  refine runUnit_next hrun ?_ rfl
  simp only [SortSt.vfp, hty, hrm]
  exact maybeChecked_none hrun.2.2.1 chk _

/-- A vector integer instruction of a listed type. -/
theorem run_vint (hrun : s.Runs g sl t) {ty : BitVec 2} {w n : Nat} (vd : Reg) (hty : intType ty = some (w, n))
    (q : SortSt → Nat → Nat → Nat) :
    s.runUnit g sl 3 (fun _ t => t.vint ty vd (q t)) = s.afterUnit g sl 3 (t.sv vd (q t w n)) := by
  refine runUnit_next hrun ?_ rfl
  simp only [SortSt.vint, hty]
  exact checked_none hrun.2.2.1 _

end

theorem foldl_or_zero (l : List Nat) : (l.map fun _ => (0 : Flags)).foldl (· ||| ·) 0 = 0 := by
  induction l with
  | nil => rfl
  | cons a l ih => simpa using ih

/-- Lanes that raise no flag raise none together. -/
theorem lanes2_exact (w n : Nat) (f : Nat → Nat → Nat) (x y : Nat) : lanes2 w n (fun a b => (f a b, 0)) x y =
    (packLanes w ((List.range n).map (fun i => f (lane w x i) (lane w y i))), 0) := by
  simp only [lanes2, orFlags, List.map_map, Function.comp_def, foldl_or_zero]

/-- A vector floating-point instruction that raises no flag, lane by lane. -/
theorem run_vfp_exact {s : State} {g sl : Nat} {t : SortSt} (hrun : s.Runs g sl t) {ty : BitVec 2} {rm : BitVec 3} {f : FFmt}
    {n : Nat} {r : RM} (vd : Reg) (hty : fpType ty = some (f, n)) (hrm : arithRm rm = some r)
    (q : FFmt → RM → Nat → Nat → Nat) (x y : SortSt → Nat) :
    s.runUnit g sl 3 (fun _ t => t.vfp ty rm false vd (fun f n r => lanes2 f.width n (fun a b => (q f r a b, 0)) (x t) (y t))) =
      s.afterUnit g sl 3 (t.sv vd (packLanes f.width
        ((List.range n).map (fun i => q f r (lane f.width (x t) i) (lane f.width (y t) i))))) := by
  rw [run_vfp (q := fun t f n r => lanes2 f.width n (fun a b => (q f r a b, 0)) (x t) (y t)) hrun vd hty hrm, lanes2_exact]
  simp only [flag_zero]

end Sys2Proof.Machine

open Sys2Proof Sys2Proof.Machine

/-- Settles O13: every instruction is one legal vector operation (`run_vfp`, `run_vint`); those of R70 raise no flag in any
lane (`run_vfp_exact`). -/
theorem vectorInstructions : Obligations.VectorInstructions := by
  refine ⟨fun s g sl t ty rm f n r hrun hty hrm => ⟨?arith, ?sqrt, ?hsum, ?hmax, ?fma, ?fnma⟩,
    fun s g sl t ty rm f n r hrun hty hrm => ⟨?minMax, ?sign, ?cmp⟩,
    fun s g sl t ty w n hrun hty => ⟨?int, ?logic, ?shift, ?iMinMax, ?sel, ?perm, ?bcst, ?ext⟩⟩
  case arith =>
    exact fun op vd va vb => congrArg Host.Outcome.next (run_vfp hrun vd hty hrm _
      fun t f n r => lanes2 f.width n (fpLane f (fpOpOf op) r) (t.gv va).toNat (t.gv vb).toNat)
  case sqrt =>
    exact fun vd va => congrArg Host.Outcome.next (run_vfp hrun vd hty hrm false
      fun t f n r => lanes2 f.width n (fun a _ => sqrtLane f r a) (t.gv va).toNat 0)
  case hsum =>
    exact fun vd va => congrArg Host.Outcome.next (run_vfp hrun vd hty hrm true fun t f n r => hsum f r (lanes f.width n (t.gv va).toNat))
  case hmax =>
    intro vd va
    have h := run_vfp hrun vd hty hrm false fun t f n _ => (hmax f (lanes f.width n (t.gv va).toNat), 0)
    rw [flag_zero] at h
    exact congrArg Host.Outcome.next h
  case fma =>
    exact fun vd va vb vc => congrArg Host.Outcome.next (run_vfp hrun vd hty hrm true
      fun t f n r => lanes3 f.width n (fmaLane f false r) (t.gv va).toNat (t.gv vb).toNat (t.gv vc).toNat)
  case fnma =>
    exact fun vd va vb vc => congrArg Host.Outcome.next (run_vfp hrun vd hty hrm true
      fun t f n r => lanes3 f.width n (fmaLane f true r) (t.gv va).toNat (t.gv vb).toNat (t.gv vc).toNat)
  case minMax =>
    exact fun op vd va vb => congrArg Host.Outcome.next (run_vfp_exact hrun vd hty hrm
      (fun f r a b => (f.round r (match op with
        | .vmin => (f.decode a).min (f.decode b)
        | .vmax => (f.decode a).max (f.decode b))).1)
      (fun t => (t.gv va).toNat) fun t => (t.gv vb).toNat)
  case sign =>
    exact fun op vd va => congrArg Host.Outcome.next (run_vfp_exact hrun vd hty hrm
      (fun f _ a _ => (f.round .rne (match op with | .vabs => (f.decode a).abs | .vneg => (f.decode a).neg)).1)
      (fun t => (t.gv va).toNat) fun _ => 0)
  case cmp =>
    intro op vd va vb
    have h (holds : FVal → FVal → Bool) := congrArg (Host.Outcome.next : State → Res) (run_vfp_exact hrun vd hty hrm
      (fun f _ a b => if holds (f.decode a) (f.decode b) then 2 ^ f.width - 1 else 0)
      (fun t => (t.gv va).toNat) fun t => (t.gv vb).toNat)
    cases op with
    | vcmpeq => exact h FVal.eqv
    | vcmplt => exact h FVal.lt
    | vcmple => exact h fun a b => a.lt b || a.eqv b
    | vcmpne => exact h fun a b => !a.eqv b
  case int =>
    exact fun op vd va vb => congrArg Host.Outcome.next (run_vint hrun vd hty fun t w n =>
      ilanes w n (fun a b => match op with | .viadd => a + b | .visub => a + 2 ^ w - b | .vimul => a * b)
        (t.gv va).toNat (t.gv vb).toNat)
  case logic =>
    exact fun op vd va vb => congrArg Host.Outcome.next (run_vint hrun vd hty fun t _ _ =>
      (match op with
        | .vand => t.gv va &&& t.gv vb
        | .vor => t.gv va ||| t.gv vb
        | .vxor => t.gv va ^^^ t.gv vb).toNat)
  case shift =>
    exact fun op vd va vb => congrArg Host.Outcome.next (run_vint hrun vd hty fun t w n =>
      ilanes w n (fun a b => match op with
        | .vshl => a * 2 ^ (b % w)
        | .vshr => a / 2 ^ (b % w)
        | .vsar => ofSigned w (toSigned w a / 2 ^ (b % w))) (t.gv va).toNat (t.gv vb).toNat)
  case iMinMax =>
    intro op vd va vb
    refine congrArg Host.Outcome.next ((run_vint hrun vd hty fun t w n => ilanes w n (fun a b =>
      let lt := decide (toSigned w a < toSigned w b)
      match op with
      | .vimin => if lt then a else b
      | .vimax => if lt then b else a) (t.gv va).toNat (t.gv vb).toNat).trans ?_)
    simp only [decide_eq_true_eq] <;> rfl
  case sel =>
    exact fun vd va vb => congrArg Host.Outcome.next (run_vint hrun vd hty fun t _ _ =>
      ((t.gv va &&& t.gv vd) ||| (t.gv vb &&& ~~~ t.gv vd)).toNat)
  case perm =>
    exact fun vd va vb => congrArg Host.Outcome.next (run_vint hrun vd hty fun t w n =>
      packLanes w ((List.range n).map (fun i => lane w (t.gv va).toNat (lane w (t.gv vb).toNat i % n))))
  case bcst =>
    exact fun vd sa => congrArg Host.Outcome.next (run_vint hrun vd hty fun t w n =>
      packLanes w (List.replicate n ((t.gs sa).toNat % 2 ^ w)))
  case ext =>
    intro sd va ln hln
    refine congrArg Host.Outcome.next (runUnit_next hrun ?_ (ss_pc ..))
    simp only [hty, if_neg hln.not_ge]
    exact checked_none hrun.2.2.1 _

/-- A run that meets O13's hypotheses: a VABS of FP32 lanes, to nearest even. -/
theorem vectorInstructions_witness :
    exec (.vSign 0 0 .vabs 0 0 2 1 0) (State.reset.setSliver 0 0 oneInS1Sort) =
      .next ((State.reset.setSliver 0 0 oneInS1Sort).afterUnit 0 0 3 (oneInS1Sort.sv 2
        (packLanes fp32.width ((List.range 16).map (fun i =>
          (fp32.round .rne (fp32.decode (lane fp32.width (oneInS1Sort.gv 1).toNat i)).abs).1))))) :=
  (vectorInstructions.2.1 _ 0 0 oneInS1Sort 0 0 fp32 16 .rne oneInS1Sort_runs rfl rfl).2.1 .vabs 2 1

end

section
/-! PROOFS. Stream moves, lookups, slugs and control registers of a sort (03_sort.md R95, R111 to R113, R117, R118, R126,
R127). -/

namespace Sys2Proof.Machine

variable {s : State} {g sl : Nat} {t : SortSt}

/-- A sort whose instruction stalls keeps its state. -/
theorem run_stall {f : SortEnv → SortSt → SortRes} {u : SortSt} (h : s.Runs g sl t) (hf : f (s.sortEnv g sl) t = .stall u) :
    s.runSort g sl isRunning f = s.setSliver g sl u :=
  runSort_stall h.1 (by simp [isRunning, h.2.1]) hf

/-! ### Stream moves -/

/-- A stream move from src to dst whose ranges are open is issued under the lowest free tag. -/
theorem smov_issues (y : GalleySt) {k : StreamKind} {src dst : Nat} {rs rt rd : Reg} {len tag : Nat}
    (hsrc : (if k = .cs ∨ k = .cg ∨ k = .sg then (t.gs rs).toNat else (t.gs rt).toNat) = src)
    (hdst : (if k = .cs ∨ k = .cg ∨ k = .sg then (t.gs rt).toNat else (t.gs rs).toNat) = dst)
    (hsrcAl : src % 64 = 0) (hdstAl : dst % 64 = 0)
    (hfrom : streamRangeOk (y.plan sl) k.ends.1 src ((len + 1) * 64) false = true)
    (hto : streamRangeOk (y.plan sl) k.ends.2 dst ((len + 1) * 64) true = true)
    (hfree : lowestFree t.tags 8 0 = some tag) (hecc : k.ends.1 = .case → t.eccBad src ((len + 1) * 64) = false) :
    y.smov sl k rd rs rt len t = .next (SortSt.ss { t with
      tags := tput t.tags tag ⟨k, src, dst, (len + 1) * 64, y.streamRead sl t k.ends.1 src ((len + 1) * 64), t.seq⟩,
      seq := t.seq + 1 } rd (BitVec.ofNat 64 tag)) false := by
  subst hsrc hdst
  have hgood : ¬ (k.ends.1 = .case ∧ t.eccBad (if k = .cs ∨ k = .cg ∨ k = .sg then (t.gs rs).toNat else (t.gs rt).toNat) ((len + 1) * 64) = true) :=
    fun h => by rw [hecc h.1] at h; exact absurd h.2 (by decide)
  simp only [GalleySt.smov, decide_eq_true_eq, hsrcAl, hdstAl, hfrom, hto, hfree, hgood, ne_eq, not_true, or_self, if_false,
    Bool.not_true, Bool.or_self, Bool.false_eq_true]

/-- Charging an event leaves the galleys. -/
theorem stepCharge_galley (s : State) (g : Nat) (a : Account) (h : Nat) : (s.stepCharge g a).galley h = s.galley h := by
  unfold State.stepCharge
  split
  · rfl
  · split
    · split <;> rfl
    · rfl

theorem stepCharge_fresh (s : State) (g : Nat) (a : Account) : (s.stepCharge g a).fresh = s.fresh := by
  unfold State.stepCharge
  split
  · rfl
  · split
    · split <;> rfl
    · rfl

/-- The state of a sliver when its move m, under a tag, has written its data. -/
def SortSt.moved (t : SortSt) (tag : Nat) (m : StreamMove) (data : List Byte) : SortSt :=
  { t with tags := tdel t.tags tag, dcase := if m.kind.inbound then mwrite t.dcase m.dst data else t.dcase }

theorem streamWrite_sliver (y : GalleySt) (tag : Nat) (m : StreamMove) (data : List Byte) :
    (y.streamWrite sl tag t m data).sliver sl = some (t.moved tag m data) := by
  obtain ⟨kind, src, dst, len, old, seq⟩ := m
  cases kind <;> exact tget_tput_same _ _ _

/-- The end of a move that no earlier one holds up. -/
theorem exec_streamMoveDone {tag : Nat} {m : StreamMove} (hsl : (s.galley g).sliver sl = some t) (htag : tget t.tags tag = some m)
    (hold : t.olderInbound m = false) : ∃ s', exec (.streamMoveDone g sl tag) s = .next s' ∧
      (s'.galley g).sliver sl = some (t.moved tag m ((s.galley g).streamData sl t m s.fresh)) := by
  refine ⟨_, by
    show execStreamMoveDone g sl tag s = _
    simp only [execStreamMoveDone, hsl, htag, hold, Bool.false_eq_true, if_false]; rfl, ?_⟩
  rw [stepCharge_galley]
  exact (congrArg (GalleySt.sliver · sl) (galley_setGalley _ g _ (galley_lt hsl))).trans (streamWrite_sliver ..)

/-! ### Lookups -/

theorem release_pc (t : SortSt) (k : Nat) : (t.release k).pc = t.pc := rfl

theorem foldl_release_pc (ks : List Nat) (t : SortSt) : (ks.foldl (fun t k => t.release k) t).pc = t.pc := by
  induction ks generalizing t with
  | nil => rfl
  | cons k ks ih => rw [List.foldl_cons, ih, release_pc]

/-! ### Slugs -/

theorem stopAtSlug_of_no_request {entry : Nat} (h : (s.galley g).preempt = false) : s.stopAtSlug g sl entry = s := by
  unfold State.stopAtSlug
  split
  · rw [h]; rfl
  · rfl

theorem shareEndCheck_slivers (y : GalleySt) : y.shareEndCheck.slivers = y.slivers := by
  unfold GalleySt.shareEndCheck GalleySt.endShare
  split
  · rfl
  · split <;> rfl

/-! ### Control registers -/

theorem csrWrite_pc {csr : BitVec 12} {x : W64} {u : SortSt} (h : csrWrite t csr x = some u) : u.pc = t.pc := by
  unfold csrWrite at h
  split at h
  · cases h; rfl
  · cases h; rfl
  · cases h; rfl
  · split at h
    · cases h; rfl
    · cases h

theorem csrWrite_unlisted {csr : BitVec 12} {x : W64} (h : 8 < csr.toNat) : csrWrite t csr x = none := by
  unfold csrWrite
  split
  · omega
  · omega
  · omega
  · exact if_neg h.not_ge

theorem csrRead_unlisted {csr : BitVec 12} {e : SortEnv} (h : 8 < csr.toNat) : csrRead t e csr = none := by
  unfold csrRead
  split
  case h_10 => rfl
  all_goals omega

end Sys2Proof.Machine

open Sys2Proof Sys2Proof.Machine

/-- Settles O15: the issue of each kind of move is `smov_issues`, its end `exec_streamMoveDone`. -/
theorem streamMoves : Obligations.StreamMoves := by
  refine ⟨fun s g sl t rd rs rt len7 tag hrun hfree c k src dst hc hsrcAl hdstAl hfrom hto hecc => ?issue,
    fun s g sl tag t m hsl htag hold => ?done, fun s g sl t rs hrun => ⟨fun hfree => ?goesOn, fun hbusy => ?stalls⟩⟩
  case issue =>
    obtain ⟨hexec, hsrc, hdst⟩ : exec c s = .next (s.streamMove g sl k rd rs rt len7) ∧
        (if k = .cs ∨ k = .cg ∨ k = .sg then (t.gs rs).toNat else (t.gs rt).toNat) = src ∧
        (if k = .cs ∨ k = .cg ∨ k = .sg then (t.gs rt).toNat else (t.gs rs).toNat) = dst := by
      obtain ⟨rfl, rfl, rfl, rfl⟩ | ⟨rfl, rfl, rfl, rfl⟩ | ⟨rfl, rfl, rfl, rfl⟩ | ⟨rfl, rfl, rfl, rfl⟩ | ⟨rfl, rfl, rfl, rfl⟩ |
        ⟨rfl, rfl, rfl, rfl⟩ := hc <;> exact ⟨rfl, rfl, rfl⟩
    rw [hexec]
    exact congrArg Host.Outcome.next
      (run_next hrun (smov_issues _ hsrc hdst hsrcAl hdstAl hfrom hto hfree hecc) (ss_pc ..))
  case done =>
    obtain ⟨s', hexec, hsliver⟩ := exec_streamMoveDone hsl htag hold
    refine ⟨s', _, hexec, hsliver, tget_tdel_same _ _, fun k hk => tget_tdel_ne _ hk, rfl, rfl, rfl, fun hin => ?_, fun hin => ?_⟩
    · simp [SortSt.moved, hin]
    · simp [SortSt.moved, hin]
  case goesOn =>
    refine congrArg Host.Outcome.next (run_next hrun ?_ rfl)
    simp [hfree]
  case stalls =>
    refine congrArg Host.Outcome.next (run_stall hrun ?_)
    simp [hbusy]

/-- A run that meets O15's hypotheses: with no tag busy, SWAIT for tag 0 goes on. -/
theorem streamMoves_witness : exec (.swait 0 0 1 0) (State.reset.setSliver 0 0 oneInS1Sort) =
    .next ((State.reset.setSliver 0 0 oneInS1Sort).after 0 0 oneInS1Sort) :=
  (streamMoves.2.2 _ 0 0 oneInS1Sort 1 oneInS1Sort_runs).1 (by decide)

/-- Settles O16: each instruction under its case goes on by `run_next`; LWAIT finds no masked ticket that is not done. -/
theorem lookupInstructions : Obligations.LookupInstructions := by
  refine fun s g sl t hrun => ⟨?lkup, ?lwait, ?free, ?done, ?busy⟩
  case lkup =>
    rintro rd rs rt a r n m k rfl rfl hal hres hhdr rfl rfl hlist hwin hfree hecc
    refine congrArg Host.Outcome.next (run_next hrun ?_ (ss_pc ..))
    simp only [hal, hres, hwin, hfree, hecc, caseBytes, hhdr.not_gt, hlist.not_gt, ne_eq, not_true, or_self, if_false, Bool.not_true,
      Bool.false_eq_true] <;> rfl
  case lwait =>
    intro rs hdone
    refine congrArg Host.Outcome.next (run_next hrun ?_ (foldl_release_pc _ _))
    refine if_neg fun h => ?_
    obtain ⟨k, hk, hnot⟩ := List.any_eq_true.mp h
    cases hx : tget t.tickets k with
    | none => simp [hx] at hnot
    | some x => simp [hx, hdone k x (List.mem_of_mem_filter hk) hx] at hnot
  case free =>
    intro rd rs hnone
    refine congrArg Host.Outcome.next (run_next hrun ?_ (ss_pc ..))
    simp only [hnone]
  case done =>
    intro rd rs x hx hdone
    refine congrArg Host.Outcome.next (run_next hrun ?_ (ss_pc ..))
    simp only [hx, hdone, if_true]
  case busy =>
    intro rd rs x hx hbusy
    refine congrArg Host.Outcome.next (run_next hrun ?_ (ss_pc ..))
    simp only [hx, hbusy, Bool.false_eq_true, if_false]

/-- A run that meets O16's hypotheses: ticket 1 is free, so LSTAT reads 0. -/
theorem lookupInstructions_witness : exec (.lstat 0 0 2 1) (State.reset.setSliver 0 0 oneInS1Sort) =
    .next ((State.reset.setSliver 0 0 oneInS1Sort).after 0 0 (oneInS1Sort.ss 2 0)) :=
  (lookupInstructions _ 0 0 oneInS1Sort oneInS1Sort_runs).2.2.1 2 1 rfl

/-- Settles O18: the instructions end by `run_next`, `run_jump` or `run_exc`; the registers' clauses are the rows of `csrRead`
and `csrWrite`. -/
theorem slugAndControlRegisters : Obligations.SlugAndControlRegisters := by
  refine ⟨fun s g sl t hrun => ⟨?slug, ?sdone, ?nop, ?srd, ?swr, ?inj, ?noTest, ?overrun⟩,
    fun t e x => ⟨?ssr, ?xa, ?xb, ?listed, ?unlisted⟩⟩
  case slug =>
    intro imm himm hdrained hnoreq
    have hg := galley_lt hrun.1
    have hpc := hrun.2.2.2
    refine congrArg Host.Outcome.next (Eq.trans (congrArg (State.stopAtSlug · g sl imm.toNat) (run_jump hrun
      (u := { t.boundary (t.pc + 4) imm.toNat with pc := t.pc + 4 }) ?_ hrun.2.1)) (stopAtSlug_of_no_request ?_))
    · simp only [ne_eq, not_true, or_self, if_false, himm.not_ge, hdrained, Bool.not_true, Bool.false_eq_true, hpc]
    · exact (congrArg GalleySt.preempt (galley_setGalley s g _ hg)).trans hnoreq
  case sdone =>
    intro hdrained
    have hends : exec (.sdone g sl) s = .next (s.setGalley g (GalleySt.shareEndCheck { s.galley g with
        slivers := tput (s.galley g).slivers sl { t with status := .ended, inbox := [] } })) := by
      show execSdone g sl s = _
      simp only [execSdone, hrun.1, hrun.2.1, hdrained, and_self, if_true]
    refine ⟨_, { t with status := .ended, inbox := [] }, hends, ?_, rfl, rfl, rfl, rfl, rfl⟩
    rw [galley_setGalley _ _ _ (galley_lt hrun.1), GalleySt.sliver, shareEndCheck_slivers]
    exact tget_tput_same _ _ _
  case nop => exact congrArg Host.Outcome.next (run_next hrun rfl rfl)
  case srd =>
    intro rd csr x hx
    refine congrArg Host.Outcome.next (run_next hrun ?_ (ss_pc ..))
    simp only [hx]
  case swr =>
    intro rs csr u hu
    refine congrArg Host.Outcome.next (run_next hrun ?_ (csrWrite_pc hu))
    simp only [hu, legal]
  case inj =>
    intro imm himm htest hunused
    refine congrArg Host.Outcome.next (run_next hrun ?_ rfl)
    simp [htest, hunused, himm]
  case noTest =>
    intro hno imm
    refine congrArg Host.Outcome.next (run_exc hrun ?_)
    simp [hno]
  case overrun =>
    intro hcyc
    show execSlugOverrun g sl s = _
    simp [execSlugOverrun, hrun.1, hrun.2.1, hcyc]
  case ssr => exact ⟨_, rfl, rfl, rfl⟩
  case xa => exact ⟨_, rfl, rfl, rfl⟩
  case xb => exact ⟨_, rfl, rfl, rfl⟩
  case listed => rintro c (rfl | rfl | rfl | rfl | rfl | rfl) <;> exact ⟨rfl, rfl⟩
  case unlisted =>
    intro c hc
    exact ⟨csrWrite_unlisted hc, csrRead_unlisted hc⟩

/-- A run that meets O18's hypotheses: a sort without work under way ends its sliver. -/
theorem slugAndControlRegisters_witness : ∃ s' t',
    exec (.sdone 0 0) (State.reset.setSliver 0 0 oneInS1Sort) = .next s' ∧ (s'.galley 0).sliver 0 = some t' ∧ t'.status = .ended ∧
      t'.inbox = [] ∧ t'.s = oneInS1Sort.s ∧ t'.v = oneInS1Sort.v ∧ t'.dcase = oneInS1Sort.dcase :=
  (slugAndControlRegisters.1 _ 0 0 oneInS1Sort oneInS1Sort_runs).2.1 rfl

end

section
/-! PROOFS. What a fault record leaves unchanged (14_recovery.md R465 to R475), and the ends of a hard mismatch: replay, adoption
and replacement of a stick (03_sort.md R122 to R126, 04_galleys.md R159). -/

namespace Sys2Proof.Laws
open Sys2Proof Sys2Proof.Machine

/-! ### What writing a record leaves unchanged -/

/-- From s to t no galley, step, context or queue changes. -/
structure SameWork (s t : State) : Prop where
  galleys : t.galleys = s.galleys
  steps : t.steps = s.steps
  ctxs : t.ctxs = s.ctxs
  queues : t.queues = s.queues

namespace SameWork
variable {s0 s : State}

theorem refl (s : State) : SameWork s s := ⟨rfl, rfl, rfl, rfl⟩

theorem foldl {α : Type} {f : State → α → State} {l : List α} (h : SameWork s0 s)
    (hf : ∀ t x, SameWork s0 t → SameWork s0 (f t x)) : SameWork s0 (l.foldl f s) := by
  induction l generalizing s with
  | nil => exact h
  | cons a l ih => exact ih (hf s a h)

theorem galley {t : State} (h : SameWork s t) (g : Nat) : t.galley g = s.galley g := congrArg (vget · g GalleySt.zero) h.galleys

end SameWork

variable {s0 s : State}

/-- An update of other fields. -/
theorem sameWork_fields {now_ fresh_ corrected_ sealCount_ nextStep_ useCount_ profile_ domains_ : Nat} {lastRun_ generations_ resident_
    tele_ : Tab Nat} {formes_ : Vector FormeSt 8} {platens_ : Vector PlatenSt 8} {hbm_ : Vector StackSt 8}
    {fabric_ : Tab (List LkMsg)} {answers_ : List (Nat × LkEntry)} {gathers_ : Tab GatherSt} {tables_ : Tab
    TableDesc} {mem_ hostMem_ : Mem} {poison_ : List Nat} {lostMem_ switches_ : Tab (List (Nat × Nat))} {fences_ :
    Tab FenceSt} {seals_ : Tab SealSt} {switching_ : Tab (Nat × Nat × List Nat)} {upd_ : UpdSt} {serve_ : ServeSt}
    {host_ : HostSt} {net_ : NetSt} {fm_ : FmSt} {bnd_ : BndSt} {sec_ : SecSt} {mgmt_ : MgmtSt} {out_ : List Out}
    {pending_ : List Instr}
    (h : SameWork s0 s) : SameWork s0
      (State.mk now_ fresh_ lastRun_ profile_ domains_ s.galleys formes_ platens_ hbm_ fabric_ answers_ gathers_
        tables_ generations_ mem_ poison_ lostMem_ hostMem_ corrected_ s.ctxs s.queues fences_ seals_
        sealCount_ s.steps nextStep_ useCount_ resident_ switches_ switching_ upd_ serve_ host_ net_ fm_ bnd_
        sec_ mgmt_ tele_ out_ pending_) :=
  ⟨h.galleys, h.steps, h.ctxs, h.queues⟩

theorem sameWork_count {a1} {a2} {a3} (h : SameWork s0 s) : SameWork s0 (State.count s a1 a2 a3) := by
  grind [State.count, sameWork_fields]

theorem sameWork_heal {a1} {a2} (h : SameWork s0 s) : SameWork s0 (State.heal s a1 a2) := by
  grind [State.heal, sameWork_fields]

theorem sameWork_modStack {a1} {a2} (h : SameWork s0 s) : SameWork s0 (State.modStack s a1 a2) := by
  grind [State.modStack, sameWork_fields]

theorem sameWork_setPlaten {a1} {a2} (h : SameWork s0 s) : SameWork s0 (State.setPlaten s a1 a2) := by
  grind [State.setPlaten, sameWork_fields]

theorem sameWork_modPlaten {a1} {a2} (h : SameWork s0 s) : SameWork s0 (State.modPlaten s a1 a2) := by
  grind [State.modPlaten, sameWork_setPlaten]

theorem sameWork_setInst {a1} {a2} (h : SameWork s0 s) : SameWork s0 (State.setInst s a1 a2) := by
  grind [State.setInst, sameWork_fields]

theorem sameWork_modInst {a1} {a2} (h : SameWork s0 s) : SameWork s0 (State.modInst s a1 a2) := by
  grind [State.modInst, sameWork_setInst]

theorem sameWork_modFn {a1} {a2} (h : SameWork s0 s) : SameWork s0 (State.modFn s a1 a2) := by
  grind [State.modFn, sameWork_modInst]

theorem sameWork_account {i : Nat} {a : Account} (h : SameWork s0 s) : SameWork s0 (s.account none i a) := by
  unfold State.account
  exact sameWork_modInst h

theorem sameWork_charge {f i n : Nat} (h : SameWork s0 s) : SameWork s0 (s.charge f i n) :=
  sameWork_account (sameWork_modPlaten (sameWork_modStack (sameWork_count h)))

theorem sameWork_memLog {a1} {a2} {a3} (h : SameWork s0 s) : SameWork s0 (State.memLog s a1 a2 a3) := by
  grind [State.memLog, sameWork_modStack]

theorem sameWork_memNews {a1} {a2} (h : SameWork s0 s) : SameWork s0 (State.memNews s a1 a2) := by
  grind [State.memNews, sameWork_modStack, sameWork_memLog]

theorem sameWork_decodeGroup {a1} (h : SameWork s0 s) : SameWork s0 (State.decodeGroup s a1) := by
  grind [State.decodeGroup, sameWork_modStack, sameWork_memNews, sameWork_fields]

theorem sameWork_noteDirty {a1} {a2} (h : SameWork s0 s) : SameWork s0 (State.noteDirty s a1 a2) := by
  grind [State.noteDirty, sameWork_fields]

theorem sameWork_devWrite {a : Nat} {l : List Byte} {keep : Bool} (h : SameWork s0 s) : SameWork s0 (s.devWrite a l keep) := by
  unfold State.devWrite
  extract_lets n f whole ends s1 bad s2 mem s3 s4 s5
  have h1 : SameWork s0 s1 := h.foldl fun _ _ => sameWork_decodeGroup
  have h3 : SameWork s0 s3 := sameWork_heal (sameWork_fields (sameWork_modStack h1))
  have h4 : SameWork s0 s4 := sameWork_noteDirty (h3.foldl fun _ _ => sameWork_memNews)
  have h5 : SameWork s0 s5 := sameWork_modStack h4
  clear_value s5
  split
  · exact h
  · split
    · exact h5
    · exact sameWork_modPlaten h5

theorem sameWork_hostWrite {a1} {a2} (h : SameWork s0 s) : SameWork s0 (State.hostWrite s a1 a2) := by
  unfold State.hostWrite
  split
  · exact sameWork_fields h
  · exact sameWork_fields h

theorem sameWork_kernelWrite {a1} {a2} {a3} (h : SameWork s0 s) : SameWork s0 (State.kernelWrite s a1 a2 a3).2 := by
  grind [State.kernelWrite, sameWork_charge, sameWork_devWrite, sameWork_account, sameWork_hostWrite]

theorem sameWork_raise {a1} {a2} (h : SameWork s0 s) : SameWork s0 (State.raise s a1 a2) := by
  grind [State.raise, sameWork_modInst, sameWork_fields]

theorem sameWork_deliver {fn : Nat} {r : FaultRec} {coarse : Bool} (h : SameWork s0 s) : SameWork s0 (s.deliver fn r coarse) := by
  unfold State.deliver
  extract_lets x s1
  have h1 : SameWork s0 s1 := sameWork_kernelWrite h
  clear_value s1
  split
  · exact h
  · split
    · exact sameWork_modFn h
    · exact sameWork_raise (sameWork_modFn h1)

theorem sameWork_record {a1} {a2} (h : SameWork s0 s) : SameWork s0 (State.record s a1 a2) := by
  grind [State.record, sameWork_deliver, sameWork_fields, SameWork.foldl]

theorem sameWork_modSess {a1} {a2} (h : SameWork s0 s) : SameWork s0 (State.modSess s a1 a2) := by
  grind [State.modSess, sameWork_fields]

theorem sameWork_sendDatagram {a1} {a2} {a3} (h : SameWork s0 s) : SameWork s0 (State.sendDatagram s a1 a2 a3) := by
  grind [State.sendDatagram, sameWork_fields]

theorem sameWork_sendRecord {a1} {a2} (h : SameWork s0 s) : SameWork s0 (State.sendRecord s a1 a2) := by
  grind [State.sendRecord, sameWork_sendDatagram, sameWork_modSess]

theorem sameWork_notify {a1} {a2} (h : SameWork s0 s) : SameWork s0 (State.notify s a1 a2) := by
  grind [State.notify, sameWork_sendRecord, SameWork.foldl]

theorem sameWork_raiseAlert {a1} (h : SameWork s0 s) : SameWork s0 (State.raiseAlert s a1) := by
  grind [State.raiseAlert, sameWork_notify, sameWork_fields]

theorem sameWork_fault {a1} {a2} (h : SameWork s0 s) : SameWork s0 (State.fault s a1 a2) := by
  grind [State.fault, sameWork_record, sameWork_raiseAlert, sameWork_notify]

theorem sameWork_oversLow {a1} {a2} {a3} {a4} {a5} (h : SameWork s0 s) : SameWork s0 (State.oversLow s a1 a2 a3 a4 a5) := by
  grind [State.oversLow, sameWork_fault]

end Sys2Proof.Laws

namespace Sys2Proof.Machine

/-! ### Replay, adoption and replacement -/

variable {s : State} {g sl : Nat} {t : SortSt}

/-- A running sort whose checked instruction finds a transient error goes on, and the error is counted. -/
theorem runSort_corrected {f : SortEnv → SortSt → SortRes} {u : SortSt} (h : (s.galley g).sliver sl = some t)
    (hst : t.status = .running) (hf : f (s.sortEnv g sl) t = .next u true) (hp : u.pc ≠ 0x1FFC) :
    s.runSort g sl isRunning f = State.after { s with corrected := s.corrected + 1 } g sl u := by
  unfold State.runSort State.after State.sortNext
  simp only [h, hst, isRunning, beq_self_eq_true, if_true, hf]; rw [if_neg hp]

/-- A running sort whose checked instruction finds a persistent error stops before it writes. -/
theorem runSort_hard {f : SortEnv → SortSt → SortRes} {u : SortSt} (h : (s.galley g).sliver sl = some t)
    (hst : t.status = .running) (hf : f (s.sortEnv g sl) t = .hard u) :
    s.runSort g sl isRunning f = s.hardMismatch g sl u true := by
  simp only [State.runSort, h, hst, isRunning, beq_self_eq_true, if_true, hf]

/-- A scalar instruction of a sort, as a run of the sort. -/
theorem exec_alu_sort (op : AluOp) (rd rs rt : Reg) : exec (.alu ⟨g, some sl⟩ op rd rs rt) s = .next (s.runSort g sl isRunning
    (fun _ t => t.maybeChecked (aluChecked op) (fun u => u.ss rd (aluOp op (u.gs rs) (u.gs rt))))) := rfl

theorem tget_tmap {α : Type} (l : Tab α) (f : Nat → α → α) (k : Nat) : tget (tmap l f) k = (tget l k).map (f k) := by
  induction l with
  | nil => rfl
  | cons p r ih =>
    obtain ⟨j, v⟩ := p
    show (if j = k then some (f j v) else tget (tmap r f) k) = (if j = k then some v else tget r k).map (f k)
    split
    · next h => rw [h]; rfl
    · exact ih

/-- A sliver at the start of its slug again, one more retry counted. -/
def SortSt.rolledBack (t : SortSt) : SortSt :=
  let u := t.rollback.countRetry
  { u with status := .running, book := { u.book with retried := true } }

/-- What the replacement of its stick makes of a sliver. -/
def SortSt.runAgain (t : SortSt) : SortSt :=
  match t.status with
  | .ended | .killed | .stopped _ => t
  | _ => t.rolledBack

/-- The end of a stick's replacement, as it shows in the galley. -/
theorem exec_stickReplacementDone {j : Nat} (hg : g < 64) (hrep : (s.galley g).spares.replacing = some j) :
    ∃ s' y, exec (.stickReplacementDone g) s = .next s' ∧ s'.galley g = y ∧ y.spares.replacing = none ∧ y.spares.stickSpare = some j ∧
      y.slivers = tmap (s.galley g).slivers (fun sl t => if stickOf sl = j then t.runAgain else t) := by
  have hdone : exec (.stickReplacementDone g) s = execStickReplacementDone g s := rfl
  simp only [hdone, execStickReplacementDone, hrep]
  refine ⟨_, _, rfl, ((Laws.sameWork_oversLow (Laws.sameWork_fault (.refl _))).galley g).trans (galley_setGalley s g _ hg), rfl, rfl, rfl⟩

/-- A sort with a persistent residue error armed. -/
def injectedSort : SortSt := { oneInS1Sort with book := { oneInS1Sort.book with inj := some true } }

end Sys2Proof.Machine

open Sys2Proof Sys2Proof.Machine

/-- Settles O19: the three outcomes of a checked addition are those of `runSort_corrected`, `runSort_hard` and `runSort_next`;
after a replacement every running sliver of the stick stands where its snapshot does, and the records that follow leave the
galleys (`sameWork_fault`, `sameWork_oversLow`). -/
theorem residueErrorsAndSparing : Obligations.ResidueErrorsAndSparing := by
  refine ⟨fun s g sl t rd rs rt hsl hst hpc => ⟨fun hinj => ?replay, fun hinj hretried hspare => ?adopting, fun _ => ?unchecked⟩,
    fun s g sl t hsl hst hrep => ?adopted, fun s g j hg hrep => ?replaced, fun s g hup => ?differ⟩
  case replay =>
    rw [exec_alu_sort]
    refine congrArg Host.Outcome.next (runSort_corrected (t := t) hsl hst ?_ (by rwa [ss_pc]))
    simp only [SortSt.maybeChecked, aluChecked, if_true, SortSt.checked, hinj] <;> rfl
  case adopting =>
    rw [exec_alu_sort, runSort_hard (u := { t with book := { t.book with inj := none } }) hsl hst (by
      simp only [SortSt.maybeChecked, aluChecked, if_true, SortSt.checked, hinj])]
    simp only [State.hardMismatch, hretried, hspare, Option.isNone_none, if_true, Bool.false_eq_true, if_false]
  case unchecked =>
    rw [exec_alu_sort]
    exact congrArg Host.Outcome.next (runSort_next hsl (congrArg isRunning hst) rfl (by rwa [ss_pc]))
  case adopted =>
    show execSortAdoptionDone g sl s = _
    simp only [execSortAdoptionDone, hsl, hst, hrep, Option.isSome_none, Bool.false_eq_true, if_false, if_true] <;> rfl
  case replaced =>
    obtain ⟨s', y, hexec, hgalley, hrep', hspare, hslivers⟩ := exec_stickReplacementDone hg hrep
    refine ⟨s', hexec, by rw [hgalley, hrep'], by rw [hgalley, hspare], fun sl t hsl hstick hst => ⟨t.rolledBack, ?_, rfl, rfl, rfl⟩⟩
    rw [hgalley, GalleySt.sliver, hslivers, tget_tmap, show tget (s.galley g).slivers sl = some t from hsl]
    simp [hstick, SortSt.runAgain, hst]
  case differ =>
    show execLockstepCheck g true s = _
    simp only [execLockstepCheck, hup, Bool.and_self, if_true]

/-- A run that meets O19's hypotheses: a persistent error does not stop an exclusive or. -/
theorem residueErrorsAndSparing_witness : exec (.alu ⟨0, some 0⟩ .xor 2 1 1) (State.reset.setSliver 0 0 injectedSort) =
    .next ((State.reset.setSliver 0 0 injectedSort).after 0 0 (injectedSort.ss 2 (injectedSort.gs 1 ^^^ injectedSort.gs 1))) :=
  (residueErrorsAndSparing.1 _ 0 0 injectedSort 2 1 1 (sliver_setSliver _ 0 0 _ (by decide)) rfl (by decide)).2.2 rfl

end

section
/-! PROOFS. Update records, their results, and the update front end (07_updates.md R244 to R268). -/

namespace Sys2Proof.Machine

/-! ### A kernel queue with one command ready -/

/-- A fetched command with an opcode and a body. -/
def readyCmd (op : Nat) (body : List Byte) : Cmd :=
  { no := 0, slot := some 0, slots := 1, op := op, cflags := 0, body := body, st := .fetched, start := 0, rflags := 0, us := 0,
    hbm := 0, host := 0, net := 0, claimant := none, batch := none }

/-- A kernel queue of the host function that holds one command. -/
def readyQueue (op : Nat) (body : List Byte) : QueueSt :=
  { kind := 0, ctx := 0, inst := 0, sqLog2 := 6, sqVA := 0, cqVA := 0, ranks := [], vector := 0, deadlineRel := 0, wdogMs := 0,
    epoch := 0, head := 0, tail := 1, cqWritten := 0, cqHead := 0, flushTail := 0, fetch := 1, flush := none, stalled := none,
    stopped := false, cqFull := false, dbDropped := false, drops := 0, cmds := [readyCmd op body], nextNo := 1, arrivals := 0,
    wait := none, wdog := 0, bootstrap := false }

/-- A running block whose queue 0 is that queue. -/
def readyState (op : Nat) (body : List Byte) : State :=
  { State.reset with bnd := { State.reset.bnd with power := .running }, queues := [(0, readyQueue op body)],
                     host := { State.reset.host with insts := [(0, { InstSt.fresh with state := .enabled })] } }

theorem readyState_startable (op : Nat) (body : List Byte) (h : op ≠ 3) :
    (readyState op body).startable 0 op = some (readyQueue op body, readyCmd op body) := by
  simp [State.startable, readyState, readyQueue, readyCmd, tget, QueueSt.nextCmd, State.up, State.instRuns, State.inst, bit, h,
    State.reset]

/-- Its command starts, when it names no fence. -/
theorem readyState_starts {op : Nat} {body : List Byte} (h : op ≠ 3) (hfence : bit (field body 8 2) 15 = false) :
    (readyState op body).Starts 0 op (readyQueue op body) (readyCmd op body) := by
  refine ⟨readyState_startable op body h, ?_⟩
  simp [State.fenceRefusal, readyCmd, hfence]

/-! ### Applying a record -/

section
variable {s s1 : State} {n op f st prior : Nat} {r : UpdRec} {d : TableDesc}
  {g : State → UpdRec → Nat → TableDesc → Bool → Applied}

/-- A record that is ready and done has its result and the version before it. -/
theorem applyRec_done (hready : s.recReady n op = some (r, f)) (htable : tget s.tables r.table = some d)
    (hdone : g s r f d (f != d.home) = .done s1 st prior) (hroom : s1.quarantineOver d = false) :
    s.applyRec n op g = (s1.modRec n (fun (r : UpdRec) => { r with result := some (prior * 256 + st) })).updSettle := by
  simp only [State.applyRec, hready, htable, hdone, hroom, Bool.false_eq_true, if_false]

/-- A record whose table has gone has NO_TABLE. -/
theorem applyRec_noTable (hready : s.recReady n op = some (r, f)) (htable : tget s.tables r.table = none) :
    s.applyRec n op g = (s.modRec n (fun (r : UpdRec) => { r with result := some 5 })).updSettle := by
  simp only [State.applyRec, hready, htable]

/-! ### The results of the operations -/

variable {m : Bool}

theorem applyWrite_entry {b k : Nat} {sh : BucketSheet} (hdyn : d.flags.dynamic = true)
    (hfind : s.findEntry d m r.key = (.ok (some (b, k, sh)), s1)) (ins : Bool) :
    s.applyWrite n r d m ins = s1.writeEntryRow r.table d m r b k sh := by
  simp only [State.applyWrite, hdyn, if_true, hfind]

theorem writeEntryRow_stale {t b k : Nat} {sh : BucketSheet} (hstale : r.stale (sh.get k).ver = true) :
    s.writeEntryRow t d m r b k sh = .done s 1 (sh.get k).ver := by
  simp only [State.writeEntryRow, hstale, if_true]

end

end Sys2Proof.Machine

open Sys2Proof Sys2Proof.Machine

/-- Settles O25: every operation applies its record by `applyRec_done`, and by `applyRec_noTable` where the table has gone. -/
theorem updateRecords : Obligations.UpdateRecords := by
  refine ⟨?done, ?gone⟩
  case done =>
    intro s s1 n f st prior r d htable hroom t ht
    rw [ht]
    refine ⟨fun hready h => ?_, fun hready h => ?_, fun hready h => ?_, fun hready h => ?_, fun hready h => ?_, fun hready h => ?_⟩
    · exact congrArg Host.Outcome.next (applyRec_done (g := fun s r _ d m => s.applyWrite n r d m false) hready htable h hroom)
    · exact congrArg Host.Outcome.next (applyRec_done (g := fun s r _ d m => s.applyWrite n r d m true) hready htable h hroom)
    · exact congrArg Host.Outcome.next (applyRec_done (g := fun s r _ d m => s.applyDelete r d m) hready htable h hroom)
    · exact congrArg Host.Outcome.next (applyRec_done (g := fun s r _ d m => s.applyPin r d m true) hready htable h hroom)
    · exact congrArg Host.Outcome.next (applyRec_done (g := fun s r _ d m => s.applyPin r d m false) hready htable h hroom)
    · exact congrArg Host.Outcome.next (applyRec_done (g := fun s r f d m => s.applyRaw f r d m) hready htable h hroom)
  case gone =>
    rintro s n f op r c hready htable (⟨rfl, rfl⟩ | ⟨rfl, rfl⟩ | ⟨rfl, rfl⟩ | ⟨rfl, rfl⟩ | ⟨rfl, rfl⟩ | ⟨rfl, rfl⟩)
    all_goals exact congrArg Host.Outcome.next (applyRec_noTable hready htable)

/-- A PIN record of table 0, sent to platen 0. -/
def Sys2Proof.Machine.pinRecord : UpdRec :=
  { src := .ring 0 0, inst := 0, ctx := 0, place := 0, bytes := 0, key := 0, table := 0, op := 3, area := 0, verCheck := false,
    version := 0, seq := 0, payload := [], noResult := false, platen := some 0, inserting := false, result := none }

/-- A block with forme 0 in service and that record. -/
def Sys2Proof.Machine.pinState : State :=
  { State.reset with formes := vset State.reset.formes 0 ⟨.inService, 16, true⟩,
                     upd := { State.reset.upd with recs := [(0, pinRecord)] } }

/-- A run that meets O25's hypotheses: the record's table does not exist. -/
theorem updateRecords_witness : exec (.pin 0) pinState =
    .next ((pinState.modRec 0 (fun (r : UpdRec) => { r with result := some 5 })).updSettle) :=
  updateRecords.2 pinState 0 0 3 pinRecord (.pin 0) (by decide) rfl (.inr (.inr (.inr (.inl ⟨rfl, rfl⟩))))

/-- Settles O26: the results follow the branches of the operations; the front end's commands run by `runCmd_starts` and
`runIf_starts`. -/
theorem updateResults : Obligations.UpdateResults := by
  refine ⟨fun s s1 n f r d m => ⟨?missing, ?stale, ?pinned, ?deleteMirror, ?rawMirror, ?rawArea, ?direct⟩,
    ?updateRows, ?ringRecord, ?bufRecord, ?register, ?remove, ?poll, ?fence, ?fenceDone⟩
  case missing =>
    intro hdyn hfind
    refine ⟨?_, ?_, ?_⟩
    · simp only [State.applyWrite, hdyn, if_true, hfind, Bool.not_false]
    · simp only [State.applyPin, hfind]
    · simp only [State.applyPin, hfind]
  case stale =>
    intro b k sh hdyn hfind hstale
    exact ⟨(applyWrite_entry hdyn hfind _).trans (writeEntryRow_stale hstale),
      (applyWrite_entry hdyn hfind _).trans (writeEntryRow_stale hstale)⟩
  case pinned =>
    intro b k sh _ hfind hstale hslot
    simp only [State.applyPin, hfind, hstale, hslot.not_ge, Bool.false_eq_true, if_false]
  case deleteMirror => simp only [State.applyDelete, if_true]
  case rawMirror => simp only [State.applyRaw, if_true]
  case rawArea =>
    intro harea
    simp only [State.applyRaw, harea, Bool.false_eq_true, if_false]
  case direct =>
    intro hdyn hmap
    constructor <;> intro hwrite
    · simp only [State.applyWrite, hdyn, hmap, hwrite, Bool.false_eq_true, if_false]
    · simp only [State.applyWrite, hdyn, hmap, hwrite, Bool.false_eq_true, if_false]
  case updateRows =>
    rintro s q x c b hstart rfl
    exact congrArg Host.Outcome.next (runCmd_starts hstart)
  case ringRecord =>
    intro s c k y hroom hready
    constructor
    · show execUpdateRecord (.ring c k) s = _
      simp only [execUpdateRecord, hroom.not_ge, if_false, hready]
    · show execPad c k s = _
      simp only [execPad, hroom.not_ge, if_false, hready]
  case bufRecord =>
    intro s q no b hroom hready
    show execUpdateRecord (.cmd q no) s = _
    simp only [execUpdateRecord, hroom.not_ge, if_false, hready]
  case register =>
    rintro s q x c cx key y hstart hreg hctx hlost rfl hfree hroom rfl
    refine congrArg Host.Outcome.next ((runIf_starts hstart (by rw [hreg]; rfl)).trans (congrArg State.settle ?_))
    simp only [hctx, hlost, thas, hfree, Option.isSome_none, hroom.not_ge, Bool.false_eq_true, if_false]
  case remove =>
    rintro s q x c key y hstart hremove rfl hring htouch hremoving
    refine congrArg (fun u => Host.Outcome.next (State.updSettle u)) ((runIf_starts hstart hremove).trans (congrArg State.settle ?_))
    simp only [hring, htouch, hremoving, Bool.not_true, Option.isSome_none, Bool.false_eq_true, if_false]
  case poll =>
    intro s s1 c k y l hring hstopped hremoving hlive hfrozen hread hcons hfits
    show execUpdateRingPoll c k s = _
    have hthaw : ((s.inst y.inst).state == InstState.frozen) = false := by simpa using hfrozen
    have hgood : ¬ (leNat l < y.cons ∨ 2 ^ y.log2 < leNat l - y.cons) := by omega
    simp only [execUpdateRingPoll, hring, hstopped, hremoving, Option.isSome_none, hlive, hthaw, hread, hgood, Bool.not_true,
      Bool.or_self, Bool.false_eq_true, if_false]
  case fence =>
    intro s q x c hstart hbufs hplain
    have hidle : exec (.epochFence q) s = .next (s.runCmd q 0x54 _) :=
      if_neg (by simp [hbufs])
    rw [hidle]
    refine congrArg Host.Outcome.next ((runCmd_starts hstart).trans (congrArg State.settle ?_))
    simp only [hplain, Bool.false_eq_true, if_false]
  case fenceDone =>
    intro s q no f hfence hins hdone
    have hsettled : f.recs.any (fun n => match tget s.upd.recs n with | some r => r.result.isNone | none => false) = false := by
      rw [List.any_eq_false]
      intro n hn
      cases hrec : tget s.upd.recs n with
      | none => simp
      | some r => simpa [Option.isSome_iff_ne_none, Option.isNone_iff_eq_none] using hdone n r hn hrec
    show execEpochFenceDone q no s = _
    unfold execEpochFenceDone
    rw [hfence]
    refine if_neg ?_
    rw [hins]
    exact fun h => Bool.false_ne_true (hsettled.symm.trans ((Bool.or_false _).symm.trans h))

/-- A run that meets O26's hypotheses: a kernel queue's EPOCH_FENCE that asks for no inserts, with no buffer under way. -/
theorem updateResults_witness : exec (.epochFence 0) (readyState 0x54 []) =
    .next (State.settle (State.begin_ { readyState 0x54 [] with upd := { (readyState 0x54 []).upd with
      fences := (readyState 0x54 []).upd.fences ++ [⟨0, 0, [], []⟩] } } 0 0)) :=
  updateResults.2.2.2.2.2.2.2.1 _ 0 (readyQueue 0x54 []) (readyCmd 0x54 []) (readyState_starts (by decide) (by decide)) rfl (by decide)

end

section
/-! PROOFS. The bytes of a device write, the order of the waiting steps, RESET, and doorbells and fetching (08_memory.md,
11_scheduling.md R379, 14_recovery.md R487, 10_queues.md R337 to R343). -/

namespace Sys2Proof.Machine

/-! ### Device writes -/

section
variable {s : State}

/-- With no error in a stack there is nothing to decode. -/
theorem decodeGroup_of_no_errors (h : ∀ f, (s.stack f).errors = []) (g : Nat) : s.decodeGroup g = s := by
  simp only [State.decodeGroup, h, tget]

theorem foldl_decodeGroup_of_no_errors (h : ∀ f, (s.stack f).errors = []) (gs : List Nat) : gs.foldl State.decodeGroup s = s := by
  induction gs with
  | nil => rfl
  | cons g gs ih => rw [List.foldl_cons, decodeGroup_of_no_errors h, ih]

theorem heal_mem (s : State) (a n : Nat) : (s.heal a n).mem = s.mem := by
  unfold State.heal
  dsimp only
  split <;> rfl

theorem noteDirty_mem (s : State) (a n : Nat) : (s.noteDirty a n).mem = s.mem := by
  unfold State.noteDirty
  dsimp only
  split <;> rfl

/-- A write that meets no error or poison puts its bytes in memory. -/
theorem devWrite_mem (herr : ∀ f, (s.stack f).errors = []) (hbad : ∀ g, s.groupBad g = false) (a : Nat) (l : List Byte) (keep : Bool) :
    (s.devWrite a l keep).mem = mwrite s.mem a l := by
  cases l with
  | nil => rfl
  | cons b l =>
    unfold State.devWrite
    simp only [foldl_decodeGroup_of_no_errors herr, hbad, List.filter_false, List.foldl_nil, List.isEmpty_nil,
      if_true, List.length_cons, Nat.add_one_ne_zero, if_false]
    cases keep with
    | true => exact (noteDirty_mem ..).trans (heal_mem ..)
    | false => exact (noteDirty_mem ..).trans (heal_mem ..)

theorem mget_mwrite_in {m : Mem} {a i : Nat} {l : List Byte} (hwf : memWf m = true) (hi : i < l.length) :
    mget (mwrite m a l) (a + i) = (l[i]?).getD 0 := by
  induction l generalizing m a i with
  | nil => exact absurd hi (Nat.not_lt_zero i)
  | cons b l ih =>
    cases i with
    | zero => exact (mget_mwrite_out l (.inl (Nat.lt_succ_self a))).trans (mget_mput_same a b hwf)
    | succ i =>
      have := ih (a := a + 1) (memWf_mput a b hwf) (Nat.lt_of_succ_lt_succ hi)
      rwa [Nat.add_right_comm, Nat.add_assoc] at this

end

/-! ### The order of the waiting steps -/

theorem before_iff (a b : StepRec) : a.before b = true ↔
    (a.urgent = true ∧ b.urgent = false) ∨ (a.urgent = b.urgent ∧ (a.deadline < b.deadline ∨ (a.deadline = b.deadline ∧
      (a.queue < b.queue ∨ (a.queue = b.queue ∧ a.arrival < b.arrival))))) := by
  unfold StepRec.before
  split
  · next h => cases ha : a.urgent <;> cases hb : b.urgent <;> simp_all
  · next h =>
    have hu : a.urgent = b.urgent := by simpa using h
    split
    · next hd => simp [hu, hd]
    · split
      · next hd hq => simp_all
      · next hd hq => simp_all

theorem before_asymm {a b : StepRec} (h : a.before b = true) : b.before a = false := by
  rw [Bool.eq_false_iff]
  intro k
  rw [before_iff] at h k
  grind

theorem before_trans {a b c : StepRec} (h : a.before b = true) (k : b.before c = true) : a.before c = true := by
  rw [before_iff] at h k ⊢
  grind

theorem mem_insertStep {k : Nat} {p : StepRec} {x : Nat × StepRec} {l : List (Nat × StepRec)} :
    x ∈ insertStep k p l ↔ x = (k, p) ∨ x ∈ l := by
  induction l with
  | nil => simp [insertStep]
  | cons q l ih =>
    unfold insertStep
    split
    · simp
    · simp only [List.mem_cons, ih]; tauto

/-- No step of a list stands behind one with a greater key. -/
def KeyOrder (l : List (Nat × StepRec)) : Prop := l.Pairwise (fun p q => q.2.before p.2 = false)

theorem insertStep_keyOrder {k : Nat} {p : StepRec} {l : List (Nat × StepRec)} (h : KeyOrder l) : KeyOrder (insertStep k p l) := by
  induction l with
  | nil => exact List.pairwise_singleton _ _
  | cons q l ih =>
    have hq := (List.pairwise_cons.mp h).1
    have hl := (List.pairwise_cons.mp h).2
    unfold insertStep
    split
    · next hbefore =>
      refine List.pairwise_cons.mpr ⟨fun x hx => ?_, h⟩
      rcases List.mem_cons.mp hx with rfl | hx
      · exact before_asymm hbefore
      · exact Bool.eq_false_iff.mpr fun hx' => Bool.false_ne_true ((hq x hx).symm.trans (before_trans hx' hbefore))
    · next hnot =>
      refine List.pairwise_cons.mpr ⟨fun x hx => ?_, ih hl⟩
      rcases mem_insertStep.mp hx with rfl | hx
      · exact Bool.eq_false_iff.mpr hnot
      · exact hq x hx

theorem foldl_insertStep_keyOrder (ps l : List (Nat × StepRec)) (h : KeyOrder l) :
    KeyOrder (ps.foldl (fun l p => insertStep p.1 p.2 l) l) := by
  induction ps generalizing l with
  | nil => exact h
  | cons p ps ih => exact ih _ (insertStep_keyOrder h)

theorem mem_foldl_insertStep {x : Nat × StepRec} (ps l : List (Nat × StepRec)) :
    x ∈ ps.foldl (fun l p => insertStep p.1 p.2 l) l ↔ x ∈ ps ∨ x ∈ l := by
  induction ps generalizing l with
  | nil => simp
  | cons p ps ih =>
    rw [List.foldl_cons, ih, mem_insertStep, List.mem_cons]
    tauto

end Sys2Proof.Machine

open Sys2Proof Sys2Proof.Machine

/-- Settles O29: without errors and poison a write is `mwrite` on memory (`devWrite_mem`). -/
theorem deviceWriteFrame : Obligations.DeviceWriteFrame := by
  intro s a l keep hwf herr hbad
  rw [devWrite_mem herr hbad]
  exact ⟨fun b hb => mget_mwrite_out l hb, fun i hi => mget_mwrite_in hwf hi, memWf_mwrite a l hwf⟩

/-- A run that meets O29's hypotheses: one byte written to an empty memory. -/
theorem deviceWriteFrame_witness : mget (State.reset.devWrite 5 [7] false).mem 5 = 7 :=
  (deviceWriteFrame State.reset 5 [7] false rfl (fun f => by
    simp only [State.stack, State.reset, vget, Vector.getElem?_replicate]; split <;> rfl) (fun g => by
    simp [State.groupBad, State.groupLost, State.reset, tget])).2.1 0 (by decide)

/-- Settles O39: inserting a step keeps the key order, because `StepRec.before` is a strict order. -/
theorem waitingStepsInKeyOrder : Obligations.WaitingStepsInKeyOrder := by
  refine ⟨before_iff, fun s => foldl_insertStep_keyOrder _ [] List.Pairwise.nil, fun s k p => ?_⟩
  unfold State.waitingSteps
  rw [mem_foldl_insertStep, List.mem_filter]
  simp

/-- Settles O35: each scope runs by `runIf_starts`. -/
theorem resetCommand : Obligations.ResetCommand := by
  refine fun s q x c hstart => ⟨?context, ?queue, ?inst, ?instOff, ?galley, ?galleyRetired, ?forme, ?block⟩
  case context =>
    intro cx hscope hctx
    refine congrArg Host.Outcome.next ((runIf_starts hstart hscope).trans (congrArg State.settle ?_))
    simp only [hctx]
  case queue =>
    intro y hscope hqueue
    refine congrArg Host.Outcome.next ((runIf_starts hstart hscope).trans (congrArg State.settle ?_))
    simp only [hqueue]
  case inst =>
    intro hscope hon
    exact congrArg Host.Outcome.next ((runIf_starts hstart hscope).trans (congrArg State.settle (if_neg hon)))
  case instOff =>
    intro hscope hoff
    exact congrArg Host.Outcome.next ((runIf_starts hstart hscope).trans (congrArg State.settle (if_pos hoff)))
  case galley =>
    intro hscope hkept hserves
    refine congrArg Host.Outcome.next ((runIf_starts hstart hscope).trans (congrArg State.settle (if_neg ?_)))
    rw [hkept, hserves]
    decide
  case galleyRetired =>
    intro hscope hretired
    refine congrArg Host.Outcome.next ((runIf_starts hstart hscope).trans (congrArg State.settle (if_pos ?_)))
    rw [hretired, Bool.true_or]
  case forme =>
    intro hscope hserves
    refine congrArg Host.Outcome.next ((runIf_starts hstart hscope).trans (congrArg State.settle (if_neg ?_)))
    simp [hserves]
  case block =>
    intro hscope
    exact congrArg Host.Outcome.next (runIf_starts hstart hscope)

/-- A run that meets O35's hypotheses: a kernel queue resets the block. -/
theorem resetCommand_witness : exec (.resetBlock 0) (readyState 0x38 (toLE 16 0 ++ [5])) =
    .next (State.settle ((readyState 0x38 (toLE 16 0 ++ [5])).levelFour (faultOf 0) false)) :=
  (resetCommand _ 0 _ _ (readyState_starts (by decide) (by decide))).2.2.2.2.2.2.2 (by decide)

/-- Settles O36: the branches of the doorbells and of the fetch units. -/
theorem doorbellsAndFetch : Obligations.DoorbellsAndFetch := by
  refine ⟨fun s fn q v x hdoor => ⟨?tail, ?flush, ?headBeyond, ?head⟩, fun s fn q v hdoor => ⟨?noTail, ?noFlush, ?noHead⟩,
    fun s q x hq hfetch => ⟨?fetch, ?refetch, ?claim⟩⟩
  case tail => show execDbTail fn q v s = _; simp only [execDbTail, hdoor]
  case flush => show execFlush fn q s = _; simp only [execFlush, hdoor]
  case headBeyond =>
    intro hbeyond
    show execDbCqHead fn q v s = _
    simp only [execDbCqHead, hdoor, hbeyond, if_true]
  case head =>
    intro hwritten
    show execDbCqHead fn q v s = _
    simp only [execDbCqHead, hdoor, hwritten.not_gt, if_false]
  case noTail => show execDbTail fn q v s = _; simp only [execDbTail, hdoor]
  case noFlush => show execFlush fn q s = _; simp only [execFlush, hdoor]
  case noHead => show execDbCqHead fn q v s = _; simp only [execDbCqHead, hdoor]
  case fetch =>
    intro hstalled hkind
    show execCommandFetch q s = _
    simp only [execCommandFetch, hq, hfetch, hstalled, Option.isNone_none, bne_iff_ne.mpr hkind, Bool.and_self, if_true]
  case refetch =>
    intro due gap hstalled hdue hkind
    show execStalledRefetch q s = _
    simp only [execStalledRefetch, hq, hstalled, hfetch, hdue.not_gt, decide_false, Bool.not_true, Bool.or_self, Bool.false_eq_true,
      if_false, ne_eq, hkind, not_false_eq_true, if_true]
  case claim =>
    intro g b s1 hstalled hkind hrank hup hfree hwait hread hbarrier hop
    show execSpreadClaim q g s = _
    have hplain : (bit (field b 0 8) 9 || field b 0 8 % 256 == 3) = false := by simp [hbarrier, hop]
    simp only [execSpreadClaim, hq, hfetch, hstalled, hkind, hrank, hup, hfree, hwait, hread, hplain, Option.isNone_none, beq_self_eq_true,
      Bool.and_self, Bool.not_true, Bool.and_false, Bool.false_and, Bool.false_eq_true, if_false]

/-- A run that meets O36's hypotheses: after reset no queue exists, so a tail doorbell changes nothing. -/
theorem doorbellsAndFetch_witness : exec (.dbTail 0 0 1) State.reset = .next State.reset :=
  (doorbellsAndFetch.2.1 State.reset 0 0 1 (by decide)).1

end

section
/-! PROOFS. Address mapping, and the commands on contexts, queues, fences and quotas (10_queues.md R335, R348, R349, R358 to R366,
11_scheduling.md R390). -/

namespace Sys2Proof.Machine

/-- The context that a CTX_CREATE makes. -/
def createdCtx (s : State) (x : QueueSt) (c : Cmd) : CtxSt :=
  { inst := x.inst, state := .idle, domain := field c.body 0x12 1, pasid := field c.body 0x14 4, recordPA := field c.body 0x18 8,
    slot := none, used := 0, lostCode := 0, lostTick := 0, createTick := s.now, acct := Account.zero, snapPj := 0, gen := 0,
    leaves := [], l1 := 0, frames := [], teardown := none }

/-- The state that holds it: l is written to its record's memory. -/
def State.withCtx (s : State) (x : QueueSt) (c : Cmd) (cid : Nat) (l : List Byte) : State :=
  let u := s.devWrite (field c.body 0x18 8) l false
  { u with ctxs := tput u.ctxs cid (createdCtx s x c) }

theorem withCtx_ctx (s : State) (x : QueueSt) (c : Cmd) (cid : Nat) (l : List Byte) :
    tget (s.withCtx x c cid l).ctxs cid = some (createdCtx s x c) :=
  tget_tput_same _ _ _

theorem withCtx_queues (s : State) (x : QueueSt) (c : Cmd) (cid : Nat) (l : List Byte) : (s.withCtx x c cid l).queues = s.queues :=
  (Laws.sameWork_devWrite (.refl s)).queues

/-- The kernel queue that a QUEUE_CREATE makes. -/
def createdQueue (x : QueueSt) (c : Cmd) : QueueSt :=
  { QueueSt.fresh 0 0 x.inst (field c.body 0x13 1) (field c.body 0x18 8) (field c.body 0x20 8) (field c.body 0x16 2) [] with
    deadlineRel := field c.body 0x30 4, wdogMs := if field c.body 0x34 2 = 0 then 1000 else field c.body 0x34 2 }

/-- The galleys of a queue change to gs, for the commands that have not started. -/
def QueueSt.rebound (y : QueueSt) (gs : List Nat) : QueueSt :=
  { y with
    ranks := gs, cmds := y.cmds.map (fun (d : Cmd) => match d.claimant with
      | some g => if d.st = .fetched ∧ !gs.contains g then { d with claimant := gs.head? } else d
      | none => d) }

/-- The state in which queue id, and the steps of y's that have not started, have changed so. -/
def State.rebound (s : State) (id : Nat) (y : QueueSt) (gs : List Nat) : State :=
  let claim (l : List Nat) : List Nat := if y.kind = 1 then gs else if l.all gs.contains then l else gs.take 1
  let s := s.modQueue id (fun y => y.rebound gs)
  { s with steps := tmap s.steps (fun _ (p : StepRec) =>
    if p.queue = id ∧ p.st = StepSt.pending ∧ (y.cmd p.no).map (fun (d : Cmd) => d.st) = some CmdSt.fetched then
      { p with galleys := claim p.galleys } else p) }

theorem rebound_queue {s : State} {id : Nat} {y : QueueSt} (gs : List Nat) (h : tget s.queues id = some y) :
    tget (s.rebound id y gs).queues id = some (y.rebound gs) :=
  (Laws.queue_modQueue_same s id (fun y => y.rebound gs)).trans (congrArg _ h)

end Sys2Proof.Machine

open Sys2Proof Sys2Proof.Machine

/-- Settles O33: MAP, UNMAP and MAP_ATTR run by `runCmd_starts`; the hypotheses of each clause choose its branch. -/
theorem addressMapping : Obligations.AddressMapping := by
  rintro s q cid ps attr n va pa x c cx rfl rfl rfl rfl rfl rfl hctx
  refine ⟨fun hstart => ⟨?mapRefused, ?maps⟩, fun hstart => ⟨?notMapped, ?unmaps⟩, fun hstart => ⟨?noAccess, ?mapAttr⟩⟩
  case mapRefused =>
    intro st d hfail
    refine congrArg Host.Outcome.next ((runCmd_starts hstart).trans (congrArg State.settle ?_))
    simp only [hctx, hfail]
  case maps =>
    rintro u hgood rfl
    refine congrArg Host.Outcome.next ((runCmd_starts hstart).trans (congrArg State.settle ?_))
    simp only [hctx, hgood]
  case notMapped =>
    intro i hleaves
    refine congrArg Host.Outcome.next ((runCmd_starts hstart).trans (congrArg State.settle ?_))
    simp only [hctx, hleaves]
  case unmaps =>
    intro ls hleaves hheld htable
    refine congrArg Host.Outcome.next ((runCmd_starts hstart).trans (congrArg State.settle ?_))
    simp only [hctx, hleaves, hheld, htable, Bool.false_eq_true, if_false]
  case noAccess =>
    intro hattr
    refine congrArg Host.Outcome.next ((runCmd_starts hstart).trans (congrArg State.settle ?_))
    simp only [hctx, hattr, if_true]
  case mapAttr =>
    intro l hattr hone hleaves hhost hbit3 hbit2 htable hheld
    refine congrArg Host.Outcome.next ((runCmd_starts hstart).trans (congrArg State.settle ?_))
    rw [hone] at hleaves hheld
    rw [Nat.one_mul] at hheld
    simp [hctx, hattr, hone, hleaves, hheld, hhost, hbit3, hbit2, htable, firstIdx]

/-- A context of the host function, with nothing mapped. -/
def Sys2Proof.Machine.emptyCtx : CtxSt :=
  { inst := 0, state := .idle, domain := 0, pasid := 0, recordPA := 0, slot := none, used := 0, lostCode := 0, lostTick := 0,
    createTick := 0, acct := Account.zero, snapPj := 0, gen := 0, leaves := [], l1 := 0, frames := [], teardown := none }

/-- A kernel command with an all-zero body, and that context under ID 0. -/
def Sys2Proof.Machine.ctxState (op : Nat) : State := { readyState op [] with ctxs := [(0, emptyCtx)] }

/-- A run that meets O33's hypotheses: MAP_ATTR that grants no access is refused. -/
theorem addressMapping_witness : exec (.mapAttr 0) (ctxState 0x1A) = .next (State.settle ((ctxState 0x1A).refuse 0 0 0x33 0)) :=
  ((addressMapping (ctxState 0x1A) 0 0 0 0 0 0 0 (readyQueue 0x1A []) (readyCmd 0x1A []) emptyCtx rfl rfl rfl rfl rfl rfl rfl).2.2
    ⟨by decide, by decide⟩).1 rfl

/-- Settles O34: every command runs by `runCmd_starts`; the hypotheses of its clause choose the branch. -/
theorem objectCommands : Obligations.ObjectCommands := by
  refine fun s q x c => ⟨?ctxCreate, ?ctxDestroy, ?queueCreate, ?queueDestroy, ?queueFlush, ?queueBind, ?fenceCreate, ?fenceDestroy,
    ?quotaSet⟩
  case ctxCreate =>
    rintro cid dom pa hstart rfl rfl hid hquota hbyte hpa hgrant hdom hforme hrecord hnone hup
    rw [hnone] at hid
    refine ⟨s.withCtx x c cid (List.replicate 65536 0), createdCtx s x c, congrArg Host.Outcome.next ((runCmd_starts hstart).trans (congrArg State.settle ?_)),
      withCtx_ctx .., rfl, rfl, rfl, rfl, rfl, rfl, withCtx_queues ..⟩
    simp only [hid, hquota, hbyte, hpa.not_ge, hgrant, hdom, hforme, hrecord, hnone, hup, List.any_nil, bne_self_eq_false, decide_false,
      Bool.not_true, Bool.or_self, Bool.false_eq_true, if_false, State.withCtx, createdCtx]
  case ctxDestroy =>
    rintro cid cx hstart rfl hctx
    refine ⟨fun hqueue => ?_, fun hqueue hfence hstate => ?_⟩
    · refine congrArg Host.Outcome.next ((runCmd_starts hstart).trans (congrArg State.settle ?_))
      simp only [hctx, hqueue, Bool.true_or, if_true]
    · refine congrArg Host.Outcome.next ((runCmd_starts hstart).trans (congrArg State.settle ?_))
      simp only [hctx, hqueue, hfence, hstate, Bool.or_self, Bool.false_eq_true, false_and, if_false]
  case queueCreate =>
    intro id hstart hkind hpick
    refine ⟨createdQueue x c, congrArg Host.Outcome.next ((runCmd_starts hstart).trans (congrArg State.settle ?_)),
      rfl, rfl, rfl, rfl, rfl, rfl⟩
    extract_lets f kind log2 cid no make pick
    have hkind0 : kind = 0 := hkind
    have hpicked : pick x.inst = .ok id := by
      change s.pickQueue x.inst kind (field c.body 0x10 2) (bit (field c.body 0x36 2) 0) = .ok id
      rw [hkind0, hpick]
    have hmade : make id x.inst 0 [] = State.succeed { s with queues := tput s.queues id (createdQueue x c) } q c.no id := by
      simp only [make, createdQueue, hkind0, log2, f]
    clear_value make pick no
    rw [if_pos hkind0, hpicked]
    exact hmade
  case queueDestroy =>
    rintro id y hstart rfl hqueue
    refine congrArg Host.Outcome.next ((runCmd_starts hstart).trans (congrArg State.settle ?_))
    simp only [hqueue]
  case queueFlush =>
    rintro id y hstart rfl hqueue
    refine congrArg Host.Outcome.next ((runCmd_starts hstart).trans (congrArg State.settle ?_))
    simp only [hqueue]
  case queueBind =>
    rintro id y cx hstart rfl hqueue hkind hctx hgalleys hget
    refine ⟨s.rebound _ y (maskGalleys (field c.body 0x18 8)), y.rebound _, congrArg Host.Outcome.next ((runCmd_starts hstart).trans
      (congrArg State.settle ?_)), rebound_queue _ hget, rfl, List.length_map _, rfl⟩
    simp only [hqueue, hkind, hctx, hgalleys, Bool.not_true, Bool.false_eq_true, if_false, State.rebound] <;> rfl
  case fenceCreate =>
    rintro id cx f hstart hctx hvec hid hquota rfl
    refine congrArg Host.Outcome.next ((runCmd_starts hstart).trans (congrArg State.settle ?_))
    simp only [hctx, hvec, hid, hquota, Bool.false_eq_true, if_false]
  case fenceDestroy =>
    intro f cx hstart hfence hctx
    refine congrArg Host.Outcome.next ((runCmd_starts hstart).trans (congrArg State.settle ?_))
    simp only [hfence, hctx]
  case quotaSet =>
    intro hstart hgood hon
    refine congrArg Host.Outcome.next ((runCmd_starts hstart).trans (congrArg State.settle ?_))
    simp [hgood, hon]

/-- A run that meets O34's hypotheses: the context that nothing uses is destroyed. -/
theorem objectCommands_witness : exec (.ctxDestroy 0) (ctxState 0x21) = .next (State.settle (((ctxState 0x21).freeCtx 0).succeed 0 0 0)) :=
  ((objectCommands (ctxState 0x21) 0 (readyQueue 0x21 []) (readyCmd 0x21 [])).2.1 0 emptyCtx ⟨by decide, by decide⟩ rfl rfl).2
    rfl rfl (by decide)

end

section
/-! PROOFS. Pre-emption, budgets and the ledger, and the commands of the serving unit (11_scheduling.md R378, R384, R399, R400;
09_serving.md R305 to R312). -/

namespace Sys2Proof.Machine

/-! ### What a NOTIFY leaves unchanged -/

theorem sendRecord_ledger (s : State) (n : Nat) (msg : List Byte) : (s.sendRecord n msg).mem = s.mem ∧
    (s.sendRecord n msg).queues = s.queues ∧ (s.sendRecord n msg).mgmt.ledger = s.mgmt.ledger := by
  unfold State.sendRecord State.sendDatagram
  split
  · exact ⟨rfl, rfl, rfl⟩
  · dsimp only
    split <;> exact ⟨rfl, rfl, rfl⟩

theorem notify_ledger (s : State) (kind : Nat) (payload : List Byte) : (s.notify kind payload).mem = s.mem ∧
    (s.notify kind payload).queues = s.queues ∧ (s.notify kind payload).mgmt.ledger = s.mgmt.ledger := by
  unfold State.notify
  induction s.mgmt.sessions generalizing s with
  | nil => exact ⟨rfl, rfl, rfl⟩
  | cons p ps ih =>
    rw [List.foldl_cons]
    obtain ⟨hmem, hqueues, hledger⟩ := ih (if (p.2.opened && (kind == 1 || bit p.2.mask kind)) = true then
      s.sendRecord p.1 (apgusMsg 0x10 0 0 0 kind 0 payload) else s)
    rw [hmem, hqueues, hledger]
    split
    · exact sendRecord_ledger ..
    · exact ⟨rfl, rfl, rfl⟩

/-- The entry that a SEQ_OPEN without state makes. -/
def openedSeq (x : QueueSt) (c : Cmd) : SeqEntry :=
  { st := .idle, proof := bit (field c.body 0x11 1) 1, periodic := bit (field c.body 0x11 1) 0, pend := false, resumed := false,
    late := false, drafted := false, model := field c.body 0x10 1, inst := x.inst, ctx := x.ctx, overrun := 0,
    loc := field c.body 0x14 4, input := 0, steps := 0, deadlineRel := field c.body 0x18 4, deadline := 0, readyTime := 0, lastDone := 0,
    stateVA := field c.body 0x20 8, stateBytes := field c.body 0x1C 4, proofStep := 0, lastStep := 0, pendDeadline := 0, poolOff := 0,
    changed := true }

/-! ### The journal -/

/-- The closed period has gone to the journal as bytes l at address a. -/
def State.journalled (s : State) (a : Nat) (l : List Byte) : State :=
  ((s.flashErase a 8192).flashWrite a l).modLedger (fun l => { l with
    journal := (l.journal ++ [(l.closed, l.closedRec)]).drop (l.journal.length + 1 - 1024), toJournal := none })

theorem flashWrite_work (s : State) (a : Nat) (l : List Byte) : (s.flashWrite a l).mem = s.mem ∧
    (s.flashWrite a l).queues = s.queues := ⟨rfl, rfl⟩

theorem flashErase_work (s : State) (a n : Nat) : (s.flashErase a n).mem = s.mem ∧ (s.flashErase a n).queues = s.queues := ⟨rfl, rfl⟩

theorem modLedger_work (s : State) (f : LedgerSt → LedgerSt) : (s.modLedger f).mem = s.mem ∧ (s.modLedger f).queues = s.queues ∧
    (s.modLedger f).mgmt.ledger = f s.mgmt.ledger := ⟨rfl, rfl, rfl⟩

theorem journalled_ledger (s : State) (a : Nat) (l : List Byte) : (s.journalled a l).mem = s.mem ∧ (s.journalled a l).queues = s.queues ∧
    (s.journalled a l).mgmt.ledger.toJournal = none := by
  unfold State.journalled
  obtain ⟨hmem, hqueues, hledger⟩ := modLedger_work ((s.flashErase a 8192).flashWrite a l) (fun l => { l with
    journal := (l.journal ++ [(l.closed, l.closedRec)]).drop (l.journal.length + 1 - 1024), toJournal := none })
  obtain ⟨wmem, wqueues⟩ := flashWrite_work (s.flashErase a 8192) a l
  obtain ⟨emem, equeues⟩ := flashErase_work s a 8192
  exact ⟨hmem.trans (wmem.trans emem), hqueues.trans (wqueues.trans equeues), by rw [hledger]⟩

/-! ### STEP_CONFIG -/

/-- The configuration that a STEP_CONFIG leaves. -/
def StepCfg.configured (g : StepCfg) (now en p pp : Nat) : StepCfg :=
  let g := { g with enable := en, proofPeriod := pp }
  match g.origin with
  | none =>
    if en = 0 then { g with period := p }
    else { g with origin := some ((now / 100 + 1) * 100), baseK := 0, baseTick := (now / 100 + 1) * 100, period := p }
  | some _ =>
    if g.period = p then { g with newPeriod := none }
    else
      let n := if now < g.baseTick then 0 else (now - g.baseTick) / g.period + 1
      { g with newPeriod := some (p, g.baseK + n, g.baseTick + n * g.period) }

/-- It has the enable set and the periods that were asked for, the step period at once or from a later step tick on. -/
theorem configured_periods (g : StepCfg) (now en p pp : Nat) : (g.configured now en p pp).enable = en ∧
    (g.configured now en p pp).proofPeriod = pp ∧
    ((g.configured now en p pp).period = p ∨ ∃ k t, (g.configured now en p pp).newPeriod = some (p, k, t)) := by
  unfold StepCfg.configured
  dsimp only
  split
  · split <;> exact ⟨rfl, rfl, .inl rfl⟩
  · split
    · next h => exact ⟨rfl, rfl, .inl h⟩
    · exact ⟨rfl, rfl, .inr ⟨_, _, rfl⟩⟩

end Sys2Proof.Machine

open Sys2Proof Sys2Proof.Machine

/-- Settles O38: the branches of the operations; a kept frame is the one that `modCtx` puts in the context, and the NOTIFY of a
closed period leaves memory, queues and ledger (`notify_ledger`). -/
theorem schedulingAndLedger : Obligations.SchedulingAndLedger := by
  refine ⟨fun s s1 k fr p cx hstep hst hstopped hctx hframe => ⟨fun hsave => ?saved, fun code va info hsave => ?failed⟩,
    fun s k p hstep hst => ?running, fun s hdue => ?budget, fun s hkept hdue => ?flush, fun s hkept hdue => ?close,
    fun s hjournal => ?journal⟩
  case saved =>
    have hexec : exec (.preemptSaveDone k) s = execPreemptSaveDone k s := rfl
    simp only [hexec, execPreemptSaveDone, hstep, hst, hstopped, hctx, Option.bind_some, hframe, hsave, ne_eq, not_true, Bool.not_true,
      Bool.false_eq_true, or_self, if_false]
    refine ⟨_, rfl, fun cy hcy => ?_⟩
    rw [Laws.modCtx_ctxs, tget_tmod_same, Option.map_eq_some_iff] at hcy
    obtain ⟨y, -, rfl⟩ := hcy
    exact tget_tput_same _ _ _
  case failed =>
    have hexec : exec (.preemptSaveDone k) s = execPreemptSaveDone k s := rfl
    simp only [hexec, execPreemptSaveDone, hstep, hst, hstopped, hctx, Option.bind_some, hframe, hsave, ne_eq, not_true, Bool.not_true,
      Bool.false_eq_true, or_self, if_false]
  case running =>
    show execPreemptSaveDone k s = _
    simp only [execPreemptSaveDone, hstep, hst, ne_eq, reduceCtorEq, not_false_eq_true, true_or, if_true]
  case budget =>
    show execDeadlineBudgetRefill s = _
    simp only [execDeadlineBudgetRefill, hdue, if_true]
  case flush =>
    show execLedgerFlush s = _
    simp only [execLedgerFlush, hkept, hdue, decide_true, Bool.and_self, if_true]
  case close =>
    show execPeriodClose s = _
    simp only [execPeriodClose, hkept, hdue, decide_true, Bool.and_self, if_true]
  case journal =>
    obtain ⟨r, hr⟩ := Option.isSome_iff_exists.mp hjournal
    obtain ⟨a, l, payload, hexec⟩ : ∃ a l payload, exec .journalAppend s = .next ((s.journalled a l).notify 2 payload) := by
      have hexec : exec .journalAppend s = execJournalAppend s := rfl
      simp only [hexec, execJournalAppend, hr]
      exact ⟨_, _, _, rfl⟩
    obtain ⟨hmem, hqueues, hledger⟩ := notify_ledger (s.journalled a l) 2 payload
    obtain ⟨jmem, jqueues, jledger⟩ := journalled_ledger s a l
    exact ⟨_, hexec, by rw [hledger, jledger], hmem.trans jmem, hqueues.trans jqueues⟩

/-- A run that meets O38's hypotheses: a budget boundary at 1 ms. -/
theorem schedulingAndLedger_witness : exec .deadlineBudgetRefill { State.reset with now := 100000 } =
    .next ((State.ran { State.reset with now := 100000 } .budget).settle) :=
  schedulingAndLedger.2.2.1 { State.reset with now := 100000 } (by decide)

/-- Settles O30: every command runs by `runCmd_starts`; STEP_CONFIG's periods are `configured_periods`. -/
theorem servingCommands : Obligations.ServingCommands := by
  refine ⟨?config, ?configRefused, ?model, ?seqOpen, fun s q x c hstart => ⟨?signalRefused, ?signal⟩, ?close, ?query⟩
  case config =>
    intro s q x c hstart hen hp hp' hpp hpp'
    refine ⟨(s.serve.cfg.norm s.now).configured s.now (field c.body 0x10 1) (field c.body 0x14 4) (field c.body 0x18 4),
      congrArg Host.Outcome.next ((runCmd_starts hstart).trans (congrArg State.settle ?_)), configured_periods _ _ _ _ _⟩
    simp only [hen.not_ge, hp.not_gt, hp'.not_gt, hpp.not_gt, hpp'.not_gt, decide_false, Bool.or_self, Bool.false_eq_true, if_false]
    rfl
  case configRefused =>
    intro s q x c hstart hp
    refine congrArg Host.Outcome.next ((runCmd_starts hstart).trans (congrArg State.settle (if_pos ?_)))
    rcases hp with hp | hp <;> simp [hp]
  case model =>
    intro s q x c m hstart hremove hmodel howner hunused
    refine congrArg Host.Outcome.next ((runCmd_starts hstart).trans (congrArg State.settle ?_))
    cases hcx : tget s.ctxs m.ctx with
    | none => simp [hmodel, hcx, hremove, hunused]
    | some cx => simp [hmodel, hcx, hremove, hunused, howner cx hcx]
  case seqOpen =>
    intro s q i x c m cx hstart hmodel hcx hctx hrel hrel' hbytes hva hproof hquota hplace
    refine ⟨s.modServe (fun v => { v with seqs := tput v.seqs i (openedSeq x c) }), openedSeq x c,
      congrArg Host.Outcome.next ((runCmd_starts hstart).trans (congrArg State.settle ?_)), tget_tput_same _ _ _, rfl, rfl, rfl, rfl, rfl,
      hbytes, rfl, rfl⟩
    rcases hpa : s.transCtx x.ctx 0 with _ | ⟨_ | _, a⟩
    all_goals simp [hmodel, hcx, hctx, hrel.not_gt, hrel'.not_gt, hbytes, hva, hproof, hquota, hplace, openedSeq, hpa]
  case signalRefused =>
    intro hn
    exact congrArg Host.Outcome.next ((runCmd_starts hstart).trans (congrArg State.settle (if_pos hn)))
  case signal =>
    rintro l s1 s2 r hn hn' hread rfl hwrite
    refine congrArg Host.Outcome.next ((runCmd_starts hstart).trans (congrArg State.settle ?_))
    have hgood : ¬ (field c.body 0x10 4 = 0 ∨ 65536 < field c.body 0x10 4) := by omega
    dsimp only at hwrite
    simp only [hgood, hread, if_false, hwrite]
  case close =>
    intro s q x c e hstart hseq hctx
    refine ⟨fun hst => ?_, fun hrun hclose => ?_⟩
    · refine congrArg Host.Outcome.next ((runCmd_starts hstart).trans (congrArg State.settle ?_))
      simp only [hseq, hctx, hst, ne_eq, not_true, if_false]
    · refine congrArg Host.Outcome.next ((runCmd_starts hstart).trans (congrArg State.settle ?_))
      simp only [hseq, hctx, ne_eq, not_true, if_false]
  case query =>
    intro s s1 q x c hstart hn hn' hend hwrite
    refine congrArg Host.Outcome.next ((runCmd_starts hstart).trans (congrArg State.settle ?_))
    have hgood : ¬ (field c.body 0x14 2 = 0 ∨ 256 < field c.body 0x14 2 ∨ 2 ^ 18 < field c.body 0x10 4 + field c.body 0x14 2) := by omega
    refine (if_neg hgood).trans ?_
    dsimp only
    split
    · next h => cases h.symm.trans hwrite
    · next h => cases h.symm.trans hwrite
    · next h => cases h.symm.trans hwrite; rfl

/-- A run that meets O30's hypotheses: SEQ_SIGNAL of no record is refused. -/
theorem servingCommands_witness : exec (.seqSignal 0) (readyState 0x5A []) = .next (State.settle ((readyState 0x5A []).refuse 0 0 0x48 0)) :=
  (servingCommands.2.2.2.2.1 _ 0 (readyQueue 0x5A []) (readyCmd 0x5A []) (readyState_starts (by decide) (by decide))).1 (.inl rfl)

end

section
/-! PROOFS. Shares and moves of a compositor pair, and the ends of a move and of an image load (04_galleys.md R149 to R152, R158,
10_queues.md R351). -/

namespace Sys2Proof.Machine

variable {s : State} {g : Nat}

/-- A parsed move has started. -/
theorem parseMove_started {l : List Byte} {m : GMove} (h : parseMove l = some m) : m.started = true := by
  unfold parseMove at h
  extract_lets a b side len rows ss ds at h
  split at h
  · split at h
    · cases h; rfl
    · cases h
  · cases h

/-- A charge of the step of a galley changes contexts, the host's counters and queues only. -/
theorem stepCharge_memory (s : State) (g : Nat) (a : Account) : (s.stepCharge g a).mem = s.mem ∧
    (s.stepCharge g a).hostMem = s.hostMem := by
  unfold State.stepCharge
  split
  · exact ⟨rfl, rfl⟩
  · split
    · split <;> exact ⟨rfl, rfl⟩
    · exact ⟨rfl, rfl⟩

/-- Counting a command's bytes changes the queues only. -/
theorem tagCmd_eq (s before : State) (g : Nat) : s.tagCmd before g = { s with queues := (s.tagCmd before g).queues } := by
  unfold State.tagCmd
  split
  · split <;> rfl
  · rfl

/-- The bytes of a move of one row in the galley store. -/
def State.movedBytes (s : State) (g : Nat) (m : GMove) : List Byte :=
  raceChunks (fun i => Config.raceNew s.fresh i) (m.len / 64) 0 (m.old.take m.len) (mread (s.galley g).store m.src m.len)

theorem moveRow_store {c : Nat} {m : GMove} (hsrc : m.srcGs = true) (hdst : m.dstGs = true) :
    s.moveRow g c m 0 = (none, s.modGalley g (fun y => { y with store := mwrite y.store m.dst (s.movedBytes g m) })) := by
  simp only [State.moveRow, hsrc, hdst, if_true, GMove.rowAt, Nat.zero_mul, Nat.zero_add, Nat.add_zero, List.drop_zero,
    State.movedBytes]

/-- A move as it stands under its tag: it keeps the bytes that it is to read of the galley store. -/
def GMove.kept (m : GMove) (y : GalleySt) : GMove :=
  { m with old := if m.srcGs then (List.range m.rows).flatMap (fun r => mread y.store (GMove.rowAt m.src m.srcStride r) m.len) else [] }

/-- What follows the rows of a move: its bytes are counted, its tag is freed by f, and its step is charged. -/
def State.moveEnds (u before : State) (g : Nat) (f : GalleySt → GalleySt) (a : Account) : State :=
  ((State.tagCmd { u with fresh := u.fresh + 1 } before g).modGalley g f).stepCharge g a

theorem moveEnds_galley (u before : State) (f : GalleySt → GalleySt) (a : Account) (hg : g < 64) :
    (u.moveEnds before g f a).galley g = f (u.galley g) := by
  rw [State.moveEnds, stepCharge_galley, Laws.galley_modGalley_same _ _ hg, tagCmd_eq]
  rfl

theorem moveEnds_memory (u before : State) (f : GalleySt → GalleySt) (a : Account) : (u.moveEnds before g f a).mem = u.mem ∧
    (u.moveEnds before g f a).hostMem = u.hostMem ∧ (u.moveEnds before g f a).fresh = u.fresh + 1 := by
  unfold State.moveEnds
  rw [(stepCharge_memory _ g a).1, (stepCharge_memory _ g a).2, stepCharge_fresh, tagCmd_eq]
  exact ⟨rfl, rfl, rfl⟩

/-- The end of a move of one row in the galley store. -/
theorem exec_moveDone_store {tag c : Nat} {m : GMove} (hg : g < 64) (hmove : tget (s.galley g).moves tag = some m)
    (hctx : (s.galley g).ctx = some c) (hsrc : m.srcGs = true) (hdst : m.dstGs = true) (hrows : m.rows = 1) :
    ∃ s', exec (.moveDone g tag) s = .next s' ∧
      s'.galley g = { s.galley g with store := mwrite (s.galley g).store m.dst (s.movedBytes g m), moves := tdel (s.galley g).moves tag } ∧
      s'.mem = s.mem ∧ s'.hostMem = s.hostMem ∧ s'.fresh = s.fresh + 1 := by
  have hexec : exec (.moveDone g tag) s = .next (State.moveEnds (s.modGalley g (fun y => { y with
      store := mwrite y.store m.dst (s.movedBytes g m) })) s g (fun y => { y with moves := tdel y.moves tag })
      { Account.zero with pj := energyOf 4 (1 * (m.len / 64)) }) := by
    show execMoveDone g tag s = _
    simp only [execMoveDone, hmove, hctx, hrows, List.range_one, List.foldl_cons, List.foldl_nil, moveRow_store hsrc hdst]
    rfl
  refine ⟨_, hexec, (moveEnds_galley _ s _ _ hg).trans ?_, moveEnds_memory ..⟩
  rw [Laws.galley_modGalley_same _ _ hg]

end Sys2Proof.Machine

open Sys2Proof Sys2Proof.Machine

/-- Settles O20: the instructions are the branches of their definitions, and those that only read run by `runComp_next`; a move in
the galley store is one `moveRow_store`. -/
theorem compositorSharesAndMoves : Obligations.CompositorSharesAndMoves := by
  refine ⟨fun s g k hrun => ⟨?dstart, ?shareIndex, ?dwait, ?dwaitStalls, ?dstatFree, ?dstat, ?gmove, ?moveFormat, ?gmwait, ?gflush⟩,
    ?moveDone, ?imageLoad⟩
  case dstart =>
    intro rs l im hshare hlast hcur himage hmine
    obtain ⟨hg, rfl, hstatus, hpc⟩ := hrun
    show execDstart g 0 rs 0 s = _
    simp only [execDstart, hstatus, hshare, hcur, himage, hmine, ne_eq, not_true, or_self, Option.isSome_none, Bool.false_or,
      beq_iff_eq, hlast, if_false, if_true]
    rw [compNext_after hpc]
  case shareIndex =>
    intro rs l im hshare hlast hcur himage hother
    obtain ⟨hg, rfl, hstatus, hpc⟩ := hrun
    show execDstart g 0 rs 0 s = _
    simp only [execDstart, hstatus, hshare, hcur, himage, hother, ne_eq, not_true, or_self, Option.isSome_none, Bool.false_or,
      beq_iff_eq, hlast, if_false, Bool.false_eq_true]
  case dwait =>
    intro rd hshare
    refine congrArg Host.Outcome.next (runComp_next hrun ?_ (comp_ss_pc ..))
    simp [compLegal, hshare]
  case dwaitStalls =>
    intro rd sh hshare
    refine congrArg Host.Outcome.next (runComp_stall hrun ?_)
    simp [compLegal, hshare]
  case dstatFree =>
    intro rd hshare
    refine congrArg Host.Outcome.next (runComp_next hrun ?_ (comp_ss_pc ..))
    simp [compLegal, hshare]
  case dstat =>
    intro rd sh hshare
    refine congrArg Host.Outcome.next (runComp_next hrun ?_ (comp_ss_pc ..))
    simp only [compLegal, hshare, List.any_cons, List.any_nil, bne_self_eq_false, Bool.or_self, Bool.false_eq_true, if_false]
  case gmove =>
    intro rd rs m tag hend hal hparse hfree
    obtain ⟨hg, rfl, hstatus, hpc⟩ := hrun
    have hpc' : ((s.galley g).comp.ss rd (BitVec.ofNat 64 tag)).pc ≠ 0x7FFC := by rwa [comp_ss_pc]
    have hexec : exec (.gmove g rd rs 0) s = execGmove g rd rs 0 s := rfl
    simp only [hexec, execGmove, hstatus, hend.not_gt, hal, hparse, hfree, ne_eq, not_true, if_false, compNext_after hpc']
    refine ⟨_, m.kept (s.galley g), rfl, ?_, rfl, rfl, rfl, rfl, (parseMove_started hparse :), ?_, ?_, rfl⟩
    all_goals rw [State.compAfter, Laws.galley_modGalley_same _ _ hg, galley_setGalley _ _ _ hg]
    · exact tget_tput_same _ _ _
    · rw [comp_ss_pc]
  case moveFormat =>
    intro rd rs hend hal hparse
    obtain ⟨hg, rfl, hstatus, hpc⟩ := hrun
    show execGmove g rd rs 0 s = _
    simp only [execGmove, hstatus, hend.not_gt, hal, hparse, ne_eq, not_true, if_false]
  case gmwait =>
    intro rs hmoves
    refine congrArg Host.Outcome.next (runComp_next hrun ?_ rfl)
    simp [compLegal, hmoves]
  case gflush => exact congrArg Host.Outcome.next (runComp_next hrun rfl rfl)
  case moveDone =>
    intro s g tag c m hg hmove hctx hsrc hdst hrows
    obtain ⟨s', hexec, hgalley, hrest⟩ := exec_moveDone_store hg hmove hctx hsrc hdst hrows
    exact ⟨s', hexec, by rw [hgalley]; exact tget_tdel_same _ _, fun j hj => by rw [hgalley]; exact tget_tdel_ne _ hj,
      by rw [hgalley]; rfl, hrest⟩
  case imageLoad =>
    intro s s1 g k p l howner hstep hloading hkey hread
    have hstep' : s.ownerOf g = some p := by rw [State.ownerOf, howner]; exact hstep
    refine ⟨fun hgood => ?_, fun hbad => ?_⟩
    · show execImageLoadVerify g s = _
      simp only [execImageLoadVerify, howner, hstep', hloading, hkey, hread, hgood, Bool.not_true, Bool.false_eq_true, if_false, if_true]
    · show execImageLoadVerify g s = _
      simp only [execImageLoadVerify, howner, hstep', hloading, hkey, hread, hbad, Bool.not_true, Bool.false_eq_true, if_false]

/-- A run that meets O20's hypotheses: with no share running DSTAT reads 0. -/
theorem compositorSharesAndMoves_witness :
    exec (.dstat 0 1 0 0) (State.reset.modGalley 0 (fun y => { y with comp := runningComp })) =
      .next ((State.reset.modGalley 0 (fun y => { y with comp := runningComp })).compAfter 0 (runningComp.ss 1 0)) :=
  (compositorSharesAndMoves.1 _ 0 runningComp runningComp_runs).2.2.2.2.1 1 rfl

end

section
/-! PROOFS. Lookup lists, windows and bags of a platen (06_platens.md R209 to R233). -/

namespace Sys2Proof.Machine

variable {s : State} {f : Nat}

/-- A charge at a platen changes neither memory nor the platen's codebooks. -/
theorem charge_codebooks (s : State) (f inst n : Nat) : (s.charge f inst n).mem = s.mem ∧
    (f < 8 → ((s.charge f inst n).platen f).codebooks = (s.platen f).codebooks) := by
  refine ⟨rfl, fun hf => ?_⟩
  have hfree (s : State) (a : Account) : (s.account none inst a).platen f = s.platen f := rfl
  rw [State.charge, State.chargeTo, hfree, Laws.platen_modPlaten_same _ _ hf]
  rfl

theorem modBag_now (s : State) (f : Nat) (e : LkEntry) (h : BagSt → BagSt) : (s.modBag f e h).now = s.now := by
  unfold State.modBag
  split <;> rfl

theorem platen_mapPlatens (h : PlatenSt → PlatenSt) (hf : f < 8) : (s.mapPlatens h).platen f = h (s.platen f) := by
  simp [State.mapPlatens, State.platen, vget, hf]

/-- The window's place in its platen is free once its entries have settled. -/
theorem windowComplete_frees {w : Nat} {win : Window} (hf : f < 8)
    (hwin : (s.platen f).windows.find? (fun x => x.id == w) = some win)
    (hsettled : win.entries.all (fun e => e.stage == .settled) = true) :
    ∃ s', exec (.windowComplete f w) s = .next s' ∧
      (s'.platen f).windows = (s.platen f).windows.filter (fun x => x.id != w) ∧ s'.mem = s.mem ∧ s'.galleys = s.galleys := by
  have hexec : exec (.windowComplete f w) s = execWindowComplete f w s := rfl
  simp only [hexec, execWindowComplete, hwin, hsettled, if_true]
  refine ⟨_, rfl, ?_, rfl, rfl⟩
  rw [platen_mapPlatens _ hf, State.platen, State.setPlaten, vget_vset_same _ _ _ _ hf]

/-- A codebook as a read without poison leaves it. -/
def Codebook.loaded (c : Codebook) (data : List Byte) (now : Nat) : Codebook :=
  { c with data := data, resident := true, used := now }

/-- A codebook whose copy reads without poison becomes resident. -/
theorem codebookLoad_resident {t : Nat} {d : TableDesc} {c : Codebook} (htable : tget s.tables t = some d) (hf : f < 8)
    (hbook : (s.platen f).codebooks.find? (fun c => c.table == t && !c.resident) = some c) (hup : s.formeUp f = true)
    (hmirror : d.flags.mirrored = false)
    (hclean : (s.charge f d.owner (2 * d.elems)).poisoned (d.copyAddr false d.codebookBase) d.codebookLen = false) :
    ∃ s', exec (.codebookLoadDone f t) s = .next s' ∧
      c.loaded (mread s.mem (d.copyAddr false d.codebookBase) d.codebookLen) (s.charge f d.owner (2 * d.elems)).now ∈
        (s'.platen f).codebooks := by
  obtain ⟨hmem, hbooks⟩ := charge_codebooks s f d.owner (2 * d.elems)
  have hexec : exec (.codebookLoadDone f t) s = execCodebookLoadDone f t s := rfl
  simp only [hexec, execCodebookLoadDone, htable, hbook, hup, hmirror, hclean, Bool.false_and, Bool.not_true, Bool.not_false,
    Bool.false_eq_true, if_false, if_true, hmem]
  refine ⟨_, rfl, ?_⟩
  rw [Laws.platen_modPlaten_same _ _ hf, hbooks hf]
  refine List.mem_map.2 ⟨c, List.mem_of_find?_eq_some hbook, ?_⟩
  rw [if_pos rfl]
  rfl

end Sys2Proof.Machine

open Sys2Proof Sys2Proof.Machine

/-- Settles O22: each event is the branch of its definition that its premises choose. -/
theorem lookups : Obligations.Lookups := by
  refine ⟨⟨?listCheck, ?entry, ?endMark⟩, ⟨?admitted, ?close, ?refill, ?halve⟩, ⟨?sheet, ?windowDone, ?bag, ?listDone, ?codebook⟩⟩
  case listCheck =>
    intro s src tk hticket hfresh
    refine ⟨fun hok => ?_, fun hbad => ?_⟩
    · show execListCheck src s = _
      simp only [execListCheck, hticket, hfresh, hok, Bool.false_eq_true, if_false, if_true]
    · show execListCheck src s = _
      simp only [execListCheck, hticket, hfresh, hbad, Bool.false_eq_true, if_false]
  case entry =>
    intro s g f e hhead
    refine ⟨fun hup hcode hroom => ?_, fun c hup hcode => ?_, fun hdown => ?_⟩
    · show execLookupEntry g f s = _
      simp only [execLookupEntry, hhead, hup, hcode, hroom.not_ge, Bool.not_true, Bool.false_eq_true, if_false]
    · show execLookupEntry g f s = _
      simp only [execLookupEntry, hhead, hup, hcode, Bool.not_true, Bool.false_eq_true, if_false]
    · show execUnitResetResponse g f s = _
      simp only [execUnitResetResponse, hhead, hdown, Bool.false_eq_true, if_false]
  case endMark =>
    intro s g f n src hhead hfirst
    have hends : ((s.popStream g f).platen f).ends = (s.platen f).ends := rfl
    show execEndMark g f s = _
    simp only [execEndMark, hhead, State.modPlaten, hends, hfirst, Bool.false_eq_true, if_false]
  case admitted =>
    intro s g f e d st hfirst htable hup hpaced htokens hroom hheld hbag hplain hstage
    obtain ⟨b, hb⟩ := Option.isSome_iff_exists.1 hbag
    have hopened : b.held ≠ 0 := (hheld b hb).ne'
    show execEntryAdmit g f s = _
    simp only [execEntryAdmit, hfirst, htable, hup, hpaced, htokens, hb, hstage, decide_eq_false hroom.not_ge,
      decide_false, hopened, modBag_now, Nat.not_le.2 hplain, Bool.not_true, Bool.or_self, Bool.false_and, Bool.false_eq_true,
      false_and, if_false, Nat.add_zero]
    rfl
  case close =>
    intro s f hfull hplace
    have hsome : (s.platen f).collect.isEmpty = false := by
      rw [List.isEmpty_eq_false_iff_exists_mem]
      exact List.exists_mem_of_length_pos (by omega)
    show execWindowClose f s = _
    simp only [execWindowClose, hsome, decide_eq_true hfull, decide_eq_false hplace.not_ge, Bool.true_or, Bool.not_true,
      Bool.or_self, Bool.false_eq_true, if_false]
  case refill =>
    intro s hdue
    show execTokenRefill s = _
    simp only [execTokenRefill, hdue, if_true]
  case halve =>
    intro s hdue
    show execSketchHalving s = _
    simp only [execSketchHalving, hdue, if_true]
  case sheet =>
    intro s f w sheet win e0 d hwin hwaits htable hup hit s1 u hread hu hgood
    have hclean : (hit || !u.poisoned (256 * sheet) 256) = true := by
      rcases hgood with rfl | hclean
      · rfl
      · rw [hclean, Bool.not_false, Bool.or_true]
    show execSheetReadDone f w sheet s = _
    cases hsrc : e0.src
    all_goals
      rw [hsrc] at hu
      subst hu
      simp only [execSheetReadDone, hwin, hwaits, htable, hup, hread, hsrc, hclean, Bool.not_true, Bool.false_eq_true, if_false,
        if_true]
  case windowDone =>
    intro s f w win hwin hsettled hf
    exact windowComplete_frees hf hwin hsettled
  case bag =>
    intro s f bag src b hbag hmarked hcount
    have hexec : exec (.bagSettle f src bag) s = execBagSettle f src bag s := rfl
    simp only [hexec, execBagSettle, hbag, hmarked, hcount, beq_self_eq_true, Bool.and_self, if_true]
    split
    · exact ⟨_, rfl, .inr ⟨_, rfl, rfl⟩⟩
    · exact ⟨_, rfl, .inl rfl⟩
  case listDone =>
    intro s src tk hticket hchecked hopen hwaiting
    show execListComplete src s = _
    simp only [execListComplete, hticket, hchecked, hopen, hwaiting, List.isEmpty_nil, Bool.not_false, Bool.and_self, if_true]
  case codebook =>
    intro s f t d c htable hf hbook hup hmirror hclean
    obtain ⟨s', hexec, hin⟩ := codebookLoad_resident htable hf hbook hup hmirror hclean
    have hc := List.find?_some hbook
    rw [Bool.and_eq_true, beq_iff_eq] at hc
    exact ⟨s', _, hexec, hin, hc.1, rfl, rfl⟩

/-- A run that meets O22's hypotheses: at tick 10,000 the buckets are due, and their boundary refills them. -/
theorem lookups_witness : exec .tokenRefill { State.reset with now := 10000 } =
    .next ((State.mapPlatens { State.reset with now := 10000 } (fun p =>
      { p with buckets := tmap p.buckets (fun _ b => b.refill 10000) })).ran .tokens) :=
  lookups.2.1.2.2.1 { State.reset with now := 10000 } (by decide)

end

section
/-! PROOFS. The host link (10_queues.md R339, 12_host_port.md R404, R431, R432). -/

open Sys2Proof Sys2Proof.Machine

/-- Settles O43: each event is the branch of its definition that the link's state and the reader choose. -/
theorem hostLink : Obligations.HostLink := by
  refine ⟨?training, ?down, ?lost, ?fetch, ?command, ?move⟩
  case training =>
    intro s t cxl hlink hup
    have hexec : exec (.linkTraining cxl) s = execLinkTraining cxl s := rfl
    simp only [hexec, execLinkTraining, hlink, hup, Bool.true_or, Bool.not_true, Bool.false_eq_true, if_false]
    refine ⟨_, if_pos hup, ?_⟩
    exact ⟨rfl, rfl, rfl⟩
  case down =>
    intro s cxl hup
    refine ⟨?_, ?_⟩
    · show execLinkDown s = _
      simp only [execLinkDown, hup, if_true]
    · show execLinkTraining cxl s = _
      unfold execLinkTraining
      split
      next t hlink => simp [State.linkUp, hlink] at hup
      next => rfl
  case lost =>
    intro s t hlink hup
    refine ⟨fun hlate => ?_, fun hearly => ?_⟩
    · show execLinkLost s = _
      simp only [execLinkLost, hlink, hup, hlate, decide_true, Bool.and_self, if_true]
    · show execLinkLost s = _
      simp only [execLinkLost, hlink, decide_eq_false hearly.not_gt, Bool.and_false, Bool.false_eq_true, if_false]
  case fetch =>
    intro s q x hqueue hfetch hprofile hkind
    show execHostReadTimeout (.fetch q) s = _
    simp only [execHostReadTimeout, hqueue, hfetch, hprofile, hkind, Bool.not_true, Bool.or_self, Bool.false_eq_true, if_false,
      if_true]
  case command =>
    intro s q x c hqueue hnext hstart hprofile hkind
    show execHostReadTimeout (.command q) s = _
    simp only [execHostReadTimeout, hqueue, Option.bind_some, hnext, hstart, hprofile, hkind, bne_self_eq_false, Bool.or_self,
      Bool.false_eq_true, if_false]
  case move =>
    intro s g tag c m cx hmove hctx hsrc hcx hhost
    show execHostReadTimeout (.move g tag) s = _
    simp only [execHostReadTimeout, hmove, hctx, hsrc, hcx, Option.map_some, hhost, Bool.not_false, decide_true, Bool.and_self,
      if_true]

/-- A run that meets O43's hypotheses: a link that is up goes down and keeps the time. -/
theorem hostLink_witness : exec .linkDown { State.reset with host := { State.reset.host with link := .cxl } } =
    .next { State.reset with host := { State.reset.host with link := .down 0 } } :=
  (hostLink.2.1 { State.reset with host := { State.reset.host with link := .cxl } } true rfl).1

end

section
/-! PROOFS. The bounce engine (12_host_port.md R438 to R440). -/

namespace Sys2Proof.Machine

variable {s : State} {i p a t : Nat} {y : Pair} {h : List Byte}

/-- The room of a pair's inbound ring from its next message to the ring's end. -/
abbrev Pair.room (y : Pair) : Nat := 2 ^ y.log2 - y.inNext % 2 ^ y.log2

/-- A header that is not good breaks the stream, whatever message was awaited. -/
theorem inbound_bad {cause : Nat} (f : State → Pair → List Byte → Nat → State) (hnext : s.nextInbound i p = some (y, h, a))
    (hbad : headFail h (y.inSeq + 1) (y.inProd - y.inNext) y.room = some cause) :
    s.inbound i p t f = ((s.chargeBounce i 64 false).breakStream (i * 8 + p) cause (y.inSeq + 1)).settle := by
  simp only [State.inbound, hnext, hbad]

/-- A good header of the awaited kind is handled. -/
theorem inbound_good (f : State → Pair → List Byte → Nat → State) (hnext : s.nextInbound i p = some (y, h, a))
    (hgood : headFail h (y.inSeq + 1) (y.inProd - y.inNext) y.room = none) (htype : bTyp h = t) :
    s.inbound i p t f = (f (s.chargeBounce i 64 false) y h a).settle := by
  simp only [State.inbound, hnext, hgood, htype, if_true]

end Sys2Proof.Machine

open Sys2Proof Sys2Proof.Machine

/-- Settles O45: inbound messages by `inbound_good` and `inbound_bad`, the rest by the branch that the premises choose. -/
theorem bounceStreams : Obligations.BounceStreams := by
  refine ⟨?inbound, ?parked, ?segment, ?outbound, ?exclusive, ?shared, ?poll⟩
  case inbound =>
    rintro s u i p a y h hnext rfl
    refine ⟨fun cause hbad => congrArg Host.Outcome.next (inbound_bad _ hnext hbad), fun hgood => ⟨?write, ?read, ?pad⟩⟩
    case write =>
      rintro rs l m htype hranges hread rfl
      refine congrArg Host.Outcome.next ((inbound_good _ hnext hgood htype).trans (congrArg State.settle ?_))
      simp only [hranges, hread]
    case read =>
      intro tag htype hread
      refine ⟨fun hfalse => ?_, fun rs htrue hranges hnow => ?_⟩
      · refine congrArg Host.Outcome.next ((inbound_good _ hnext hgood htype).trans (congrArg State.settle ?_))
        simp only [hread, hfalse, ne_eq, not_false_eq_true, if_true]
      · refine congrArg Host.Outcome.next ((inbound_good _ hnext hgood htype).trans (congrArg State.settle ?_))
        simp only [hread, htrue, hranges, hnow, ne_eq, not_true, if_true, if_false]
    case pad =>
      intro htype
      exact congrArg Host.Outcome.next (inbound_good _ hnext hgood htype)
  case parked =>
    intro s n v w hparked hdue hvalue
    refine ⟨fun hreached => ?_, fun hbelow => ?_⟩
    · show execParkedReadRecheck n s = _
      simp only [execParkedReadRecheck, hparked, hdue.not_gt, hvalue, hreached, if_false, if_true]
    · show execParkedReadRecheck n s = _
      simp only [execParkedReadRecheck, hparked, hdue.not_gt, hvalue, hbelow.not_ge, if_false]
  case segment =>
    rintro s i left m y hinst hmsg hpair u rfl
    refine ⟨fun hlast => ?_, fun hmore => ?_⟩
    · show execBceSegmentDone true s = _
      simp only [execBceSegmentDone, hinst, hmsg, hpair, hlast, decide_true, if_true]
    · show execBceSegmentDone true s = _
      simp only [execBceSegmentDone, hinst, hmsg, hpair, decide_eq_false hmore.not_ge, Bool.false_eq_true, if_true, if_false]
  case outbound =>
    intro s i p y m l hpair hmsg hup hopen hidle hread hroom hring
    show execOutboundMessageSend i p s = _
    simp only [execOutboundMessageSend, hpair, hmsg, hup, hopen, hidle, hread, decide_eq_false hroom.not_gt, hring, Bool.not_true,
      Bool.or_self, Bool.false_and, Bool.false_eq_true, if_false, if_true]
  case exclusive =>
    intro s i v hprofile hserves
    refine ⟨fun heven => ?_, fun hset => ?_, fun hclear => ?_⟩
    · have hdoor : v % 16 % 2 = 0 := by omega
      show execFnBncKick i v s = _
      simp only [execFnBncKick, hprofile, hserves, hdoor, beq_self_eq_true, Bool.and_self, if_true]
    · show execBncEnable i v s = _
      simp only [execBncEnable, hprofile, hserves, hset, Bool.and_self, if_true]
    · show execBncDisable i v s = _
      simp only [execBncDisable, hprofile, hserves, hclear, Bool.not_false, Bool.and_self, if_true]
  case shared =>
    intro s i v hprofile
    refine ⟨?_, ?_, ?_⟩
    · show execFnBncKick i v s = _
      simp only [execFnBncKick, hprofile, Bool.false_and, Bool.false_eq_true, if_false]
    · show execBncEnable i v s = _
      simp only [execBncEnable, hprofile, Bool.false_and, Bool.false_eq_true, if_false]
    · show execBncDisable i v s = _
      simp only [execBncDisable, hprofile, Bool.false_and, Bool.false_eq_true, if_false]
  case poll =>
    intro s k y hup hprofile hpairs hdue
    show execBounceProdPoll s = _
    simp only [execBounceProdPoll, hup, hprofile, hpairs, hdue, List.foldl_cons, List.foldl_nil, Bool.not_true, Bool.or_self,
      Bool.false_eq_true, if_false, if_true]

/-- A run that meets O45's hypotheses: outside the Exclusive profile a kick changes nothing. -/
theorem bounceStreams_witness : exec (.fnBncKick 0 0) State.reset = .next State.reset :=
  (bounceStreams.2.2.2.2.2.1 State.reset 0 0 (by decide)).1

end

section
/-! PROOFS. Received frames of the quire protocol (13_network.md R447 to R459). -/

namespace Sys2Proof.Machine

variable {s : State} {p n : Nat} {l pay : List Byte} {h : QHdr}

/-- A frame of an open connection for which there is room is counted and goes to its TYPE's handling. -/
theorem rxFrame_handled {t : Nat} (f : State → Nat → QHdr → List Byte → State) (hup : s.up = true) (hport : s.portExists p = true)
    (hlink : (s.port p).up = true) (hclass : s.classify p l = .quire n h pay)
    (hroom : (s.portCount p 1).roomFor p (framePri l) l.length = 0) (htype : h.typ = t) :
    s.rxFrame p l t f = (f (s.portCount p 1) n h pay).updSettle := by
  simp only [State.rxFrame, hup, hport, hlink, hclass, RxClass.typ, htype, hroom, Bool.not_true, Bool.or_self, Bool.false_eq_true,
    ne_eq, not_true, if_false]

/-- One without room is counted as dropped and does nothing else. -/
theorem rxFrame_full {t k : Nat} (f : State → Nat → QHdr → List Byte → State) (hup : s.up = true) (hport : s.portExists p = true)
    (hlink : (s.port p).up = true) (hclass : s.classify p l = .quire n h pay)
    (hroom : (s.portCount p 1).roomFor p (framePri l) l.length = k + 1) (htype : h.typ = t) :
    s.rxFrame p l t f = (s.portCount p 1).portCount p (k + 1) := by
  simp only [State.rxFrame, hup, hport, hlink, hclass, RxClass.typ, htype, hroom, Bool.not_true, Bool.or_self, Bool.false_eq_true,
    ne_eq, not_true, if_false]

end Sys2Proof.Machine

open Sys2Proof Sys2Proof.Machine

/-- Settles O46: a frame's handling is `rxFrame_handled`, its drop `rxFrame_full`; an ordered message takes the branch that its
sequence number chooses. -/
theorem quireFrames : Obligations.QuireFrames := by
  refine ⟨fun s p l n h pay hup hport hlink hclass => ⟨fun hroom => ?handled, ?full⟩,
    fun s n h pay => ⟨?duplicate, ?ahead, ?noRing, ?ackLength⟩⟩
  case handled =>
    refine ⟨fun ht => ?_, fun ht => ?_, fun ht => ?_, fun ht => ?_, fun ht => ?_, fun ht hcode => ?_, fun ht hcode => ?_⟩
    · exact congrArg Host.Outcome.next (rxFrame_handled _ hup hport hlink hclass hroom ht)
    · exact congrArg Host.Outcome.next (rxFrame_handled _ hup hport hlink hclass hroom ht)
    · exact congrArg Host.Outcome.next (rxFrame_handled _ hup hport hlink hclass hroom ht)
    · exact congrArg Host.Outcome.next (rxFrame_handled _ hup hport hlink hclass hroom ht)
    · exact congrArg Host.Outcome.next (rxFrame_handled _ hup hport hlink hclass hroom ht)
    · refine congrArg Host.Outcome.next ((rxFrame_handled _ hup hport hlink hclass hroom ht).trans (congrArg State.updSettle ?_))
      rw [hcode]
      exact if_pos (by decide)
    · refine congrArg Host.Outcome.next ((rxFrame_handled _ hup hport hlink hclass hroom ht).trans (congrArg State.updSettle ?_))
      rw [hcode]
      exact if_neg (by decide)
  case full =>
    intro k hroom ht
    exact congrArg Host.Outcome.next (rxFrame_full _ hup hport hlink hclass hroom ht)
  case duplicate =>
    intro hdup
    simp only [State.rxOrdered, hdup, if_true]
  case ahead =>
    intro hnew hfar
    simp only [State.rxOrdered, hnew, hfar, Bool.false_eq_true, if_false, if_true]
  case noRing =>
    intro hnew hnear ht hring
    simp only [State.rxOrdered, hnew, hnear.not_ge, ht, hring, Bool.false_eq_true, and_self, if_false, if_true]
  case ackLength =>
    intro hlength
    exact if_pos (.inl hlength)

/-- A run that meets O46's hypotheses: an acknowledgement without a payload changes nothing. -/
theorem quireFrames_witness : State.reset.rxAck 0 ⟨5, false, 0, 0, 0, 0, 0, 0, 0, 0, 0, 0, 0⟩ [] = State.reset :=
  (quireFrames.2 State.reset 0 ⟨5, false, 0, 0, 0, 0, 0, 0, 0, 0, 0, 0, 0⟩ []).2.2.2 (by decide)

end

section
/-! PROOFS. SPDM over DOE (15_security.md R541 to R544). -/

namespace Sys2Proof.Machine

variable {s : State} {i : Nat}

/-- A request that wants the negotiation is answered once it is complete. -/
theorem spdmRun_served (f : State → State) (h : s.SpdmServes i) : s.spdmRun i f = f s := by
  obtain ⟨hdoe, hkeys, halgs⟩ := h
  simp only [State.spdmRun, hdoe, hkeys, halgs, Bool.not_true, Bool.false_eq_true, if_false]

/-- Before it is, the answer is UnexpectedRequest. -/
theorem spdmRun_early (f : State → State) (hdoe : s.doeUp i = true) (hkeys : s.sec.keyless = false) (halgs : (s.spdm i).algs = false) :
    s.spdmRun i f = s.spdmError i 0x04 := by
  simp only [State.spdmRun, hdoe, hkeys, halgs, Bool.not_true, Bool.not_false, Bool.false_eq_true, if_false, if_true]

/-- A request that wants a session acts in a finished one. -/
theorem inSession_finished {sid secret : Nat} (f : State → State) (h : s.SpdmServes i)
    (hsession : (s.spdm i).session = some (sid, secret, true)) : s.inSession i f = f s := by
  rw [State.inSession, spdmRun_served _ h, hsession]

theorem inSession_none (f : State → State) (h : s.SpdmServes i) (hsession : (s.spdm i).session = none) :
    s.inSession i f = s.spdmError i 0x0B := by
  rw [State.inSession, spdmRun_served _ h, hsession]

end Sys2Proof.Machine

open Sys2Proof Sys2Proof.Machine

/-- Settles O50: the requests of a complete negotiation run by `spdmRun_served`, those of a session by `inSession_finished`. -/
theorem spdmMessages : Obligations.SpdmMessages := by
  refine ⟨⟨fun s i hdoe => ⟨?version, ?capabilities, ?noCapabilities, ?algorithms, ?noAlgorithms, ?unsupported, ?early⟩,
    fun s i hserves => ⟨?digests, ?certificate, ?noChallenge, ?challenge, ?measurements, ?noMeasurements, ?csr⟩⟩,
    fun s i hserves => ⟨?keyExchange, ?busy, ?finish, ?noSession, ?session, ?certificateElsewhere⟩⟩
  case version => exact if_pos hdoe
  case capabilities =>
    intro v hv
    have hknown : ¬(v ≠ 0x12 ∧ v ≠ 0x13) := by omega
    show execGetCapabilities i v s = _
    simp only [execGetCapabilities, hdoe, hknown, Bool.not_true, Bool.false_eq_true, if_false]
  case noCapabilities =>
    intro v h12 h13
    show execGetCapabilities i v s = _
    simp only [execGetCapabilities, hdoe, h12, h13, ne_eq, not_false_eq_true, and_self, Bool.not_true, Bool.false_eq_true, if_false,
      if_true]
  case algorithms =>
    intro hcaps
    show execNegotiateAlgorithms i s = _
    simp only [execNegotiateAlgorithms, hdoe, hcaps, Bool.not_true, Bool.false_eq_true, if_false]
  case noAlgorithms =>
    intro hcaps
    show execNegotiateAlgorithms i s = _
    simp only [execNegotiateAlgorithms, hdoe, hcaps, Bool.not_true, Bool.not_false, Bool.false_eq_true, if_false, if_true]
  case unsupported =>
    show execSpdmUnsupportedRequest i s = _
    simp only [execSpdmUnsupportedRequest, hdoe, Bool.not_true, Bool.false_eq_true, if_false]
  case early =>
    intro hkeys halgs
    exact congrArg Host.Outcome.next (spdmRun_early _ hdoe hkeys halgs)
  case digests => exact congrArg Host.Outcome.next (spdmRun_served _ hserves)
  case certificate =>
    rintro slot off n hshown hoff l rfl
    refine congrArg Host.Outcome.next ((spdmRun_served _ hserves).trans ?_)
    simp only [hshown, decide_eq_false hoff.not_gt, Bool.not_true, Bool.or_self, Bool.false_eq_true, if_false]
  case noChallenge =>
    intro slot req hhidden
    refine congrArg Host.Outcome.next ((spdmRun_served _ hserves).trans (if_pos ?_))
    rw [hhidden, Bool.not_false]
  case challenge =>
    rintro slot req f hshown rfl
    refine congrArg Host.Outcome.next ((spdmRun_served _ hserves).trans (if_neg ?_))
    rw [hshown]
    exact Bool.false_ne_true
  case measurements =>
    intro req
    exact congrArg Host.Outcome.next (spdmRun_served _ hserves)
  case noMeasurements =>
    intro op sg req hop hall
    exact congrArg Host.Outcome.next ((spdmRun_served _ hserves).trans (if_pos ⟨hop, hall⟩))
  case csr =>
    intro req
    exact congrArg Host.Outcome.next (spdmRun_served _ hserves)
  case keyExchange =>
    rintro reqId req d sid secret hnone hroom - rfl rfl rfl t rfl hshared
    refine congrArg Host.Outcome.next ((spdmRun_served _ hserves).trans ?_)
    simp only [hnone, Option.isSome_none, decide_eq_false hroom.not_ge, hshared, Bool.or_self, Bool.not_false, Bool.false_eq_true,
      if_false, if_true]
  case busy =>
    intro hbusy reqId req
    refine congrArg Host.Outcome.next ((spdmRun_served _ hserves).trans (if_pos ?_))
    rw [hbusy, Bool.true_or]
  case finish =>
    intro sid secret hsession
    refine congrArg Host.Outcome.next ((spdmRun_served _ hserves).trans ?_)
    simp only [hsession]
  case noSession =>
    intro hnone
    refine ⟨congrArg Host.Outcome.next ((spdmRun_served _ hserves).trans ?_), congrArg Host.Outcome.next (inSession_none _ hserves hnone),
      congrArg Host.Outcome.next (inSession_none _ hserves hnone)⟩
    simp only [hnone]
  case session =>
    intro sid secret hsession
    refine ⟨congrArg Host.Outcome.next (inSession_finished _ hserves hsession), fun op hlow hhigh => ?_,
      congrArg Host.Outcome.next (inSession_finished _ hserves hsession), ?_⟩
    · refine congrArg Host.Outcome.next ((inSession_finished _ hserves hsession).trans (if_neg ?_))
      omega
    · rintro chain rfl hlength hstore
      refine congrArg Host.Outcome.next ((spdmRun_served _ hserves).trans ?_)
      simp only [hsession, hlength.not_gt, hstore, ne_eq, not_true, Bool.not_true, Bool.false_eq_true, or_self, if_false]
  case certificateElsewhere =>
    intro slot sec chain hvf
    exact congrArg Host.Outcome.next ((spdmRun_served _ hserves).trans (if_pos hvf))

/-- The reset state in service with its link up: a state whose DOE mailbox answers. -/
def Sys2Proof.Machine.doeState : State :=
  { State.reset with bnd := { State.reset.bnd with power := .running }, host := { State.reset.host with link := .cxl } }

/-- A run that meets O50's hypotheses: GET_VERSION forgets the negotiation. -/
theorem spdmMessages_witness : exec (.getVersion 0) doeState =
    .next ((doeState.modSpdm 0 (fun x => { x with version := 0, caps := false, algs := false })).spdmSend 0 0x04 [0x12, 0x13]) :=
  (spdmMessages.1.1 doeState 0 (by decide)).1

end

section
/-! PROOFS. The management link and its sessions (16_dictionary.md R558 to R565, R581, R582). -/

open Sys2Proof Sys2Proof.Machine

/-- Settles O51: each event of the link and of a session is the branch that its premises choose. -/
theorem managementSessions : Obligations.ManagementSessions := by
  refine ⟨fun s => ⟨?irq, ?retry, ?neighbour, ?notMine, ?telemetry, ?beacon, ?noBeacon⟩,
    fun s => ⟨?hello, ?badHello, ?finish, ?timeout, ?record, ?oldRecord, ?idle, ?mailbox⟩⟩
  case irq =>
    intro ok hup hphy
    show execMgtIrq ok s = _
    simp only [execMgtIrq, hup, hphy, Bool.and_self, if_true]
  case retry =>
    rintro ok hup hphy hdue m rfl
    show execMacphyRetry ok s = _
    simp only [execMacphyRetry, hup, hphy, hdue, Bool.not_false, decide_true, Bool.and_self, if_true]
  case neighbour =>
    intro mac src hup hphy
    show execNeighbourSolicitation mgtAddress mac src s = _
    simp only [execNeighbourSolicitation, hup, hphy, beq_self_eq_true, Bool.and_self, if_true]
  case notMine =>
    intro target mac src hother
    show execNeighbourSolicitation target mac src s = _
    simp only [execNeighbourSolicitation, beq_eq_false_iff_ne.2 hother, Bool.and_false, Bool.false_eq_true, if_false]
  case telemetry =>
    rintro ms rfl hup hms hdue
    show execTelemetryTick s = _
    simp only [execTelemetryTick, hup, bne_iff_ne.2 hms, decide_eq_true hdue, Bool.and_self, if_true]
  case beacon =>
    rintro l g u hup hcycle hdue rfl rfl rfl
    show execBeacon s = _
    simp only [execBeacon, hup, hcycle, decide_eq_true hdue, Bool.and_self, if_true]
  case noBeacon =>
    intro hcycle
    show execBeacon s = _
    simp only [execBeacon, hcycle, Bool.and_false, Bool.false_and, Bool.false_eq_true, if_false]
  case hello =>
    intro l slot recent body no nonce e d head sig hup hphy hslot hok hsession hseq hlength hkeys hrecent hfew hbody hvalid hno hnonce
      he hd hhead hsig x u hx hu
    have hbodyLength : (l.drop 16).length = 136 := by rw [List.length_drop, hlength]
    have hrecent' : ¬ 16 ≤ (s.mgmt.hellos.filter (fun t => decide (s.now < t + second))).length := by rw [← hrecent]; exact hfew.not_ge
    show execHello l s = _
    subst hbody
    simp only [execHello, hup, hphy, hslot, hok, hsession, hseq, hbodyLength, hkeys, decide_eq_false hrecent', hvalid, Bool.not_true,
      Bool.or_self, bne_self_eq_false, Bool.false_eq_true, if_false]
    subst hu hx hsig hhead hd he hnonce hno hrecent
    rfl
  case badHello =>
    intro l hup hphy hbad
    show execHello l s = _
    simp only [execHello, hup, hphy, hbad, Bool.not_true, Bool.not_false, Bool.or_self, Bool.true_or, Bool.false_eq_true, if_false,
      if_true]
    split <;> rfl
  case finish =>
    intro l x k hup hphy hok hseq hlength hsess hclosed hintime hkeys hkey hrole hpub hsigned
    show execApgusFinish l s = _
    simp only [execApgusFinish, hup, hphy, hok, hseq, hlength, hsess, hclosed, decide_eq_true hintime, hkeys, hkey, Option.getD_some,
      bne_iff_ne.2 hrole, bne_iff_ne.2 hpub, hsigned, Bool.not_true, Bool.not_false, bne_self_eq_false, Bool.or_self, Bool.and_self,
      Bool.false_eq_true, if_false, if_true]
  case timeout =>
    intro n x hsess hclosed hlate
    show execHandshakeTimeout n s = _
    simp only [execHandshakeTimeout, hsess, hclosed, decide_eq_true hlate, Bool.not_false, Bool.and_self, if_true]
  case record =>
    intro l x m hup hphy hsess hok hopen hnew hlength hplain
    show execRecord l s = _
    simp only [execRecord, hup, hphy, hsess, hok, hopen, decide_eq_false hnew.not_ge, decide_eq_false hlength.not_gt, hplain,
      Bool.not_true, Bool.or_self, Bool.false_eq_true, if_false]
  case oldRecord =>
    intro l x hup hphy hsess hold
    show execRecord l s = _
    simp only [execRecord, hup, hphy, hsess, decide_eq_true hold, Bool.not_true, Bool.or_self, Bool.or_true, Bool.true_or,
      Bool.false_eq_true, if_false, if_true]
  case idle =>
    intro n x hsess hopen hlate
    show execSessionIdleTimeout n s = _
    simp only [execSessionIdleTimeout, hsess, hopen, decide_eq_true hlate, Bool.and_self, if_true]
  case mailbox =>
    intro hserves
    refine if_pos ?_
    rwa [Bool.or_eq_true, beq_iff_eq]

/-- A run that meets O51's hypotheses: without PWRCYC requested there is no beacon. -/
theorem managementSessions_witness : exec .beacon State.reset = .next State.reset :=
  (managementSessions.1 State.reset).2.2.2.2.2.2 rfl

end

section
/-! PROOFS. The operations on objects (16_dictionary.md R565, R567 to R569). -/

open Sys2Proof Sys2Proof.Machine

/-- Settles O52: a message that is taken runs its operation (`request_takes`), which is the branch that its premises choose. -/
theorem dictionaryRequests : Obligations.DictionaryRequests := by
  intro s r tag i sub t
  refine ⟨?get, ?noGet, ?set, ?setFails, ?setWaits, ?noSet, ?info, ?noInfo, ?blobRead, ?blobWrite, ?subscribe, ?close, ?mbxSubscribe,
    ?mbxClose⟩
  case get =>
    intro htake haccess hroom
    refine congrArg Host.Outcome.next ((request_takes htake _).trans ?_)
    simp only [State.doGet, haccess, hroom.not_gt, if_false]
  case noGet =>
    intro st htake haccess hst
    exact exec_get_refused htake haccess hst
  case set =>
    intro v o u after hwrites hset
    have hrun := setRequest_writes hwrites
    rw [hset] at hrun
    exact congrArg Host.Outcome.next hrun
  case setFails =>
    intro v o st hwrites hset
    have hrun := setRequest_writes hwrites
    rw [hset] at hrun
    exact congrArg Host.Outcome.next hrun
  case setWaits =>
    intro v o u hwrites hset
    have hrun := setRequest_writes hwrites
    rw [hset] at hrun
    exact congrArg Host.Outcome.next hrun
  case noSet =>
    intro v st htake haccess
    refine congrArg Host.Outcome.next (congrArg State.settle ((request_takes htake _).trans ?_))
    simp only [State.doSet, haccess]
  case info =>
    rintro o a htake hobj hserved hmbx rfl
    have hshown : (r.isMbx && !o.h) = false := by
      cases hr : r.isMbx with
      | false => rfl
      | true => rw [hmbx hr]; rfl
    refine congrArg Host.Outcome.next ((request_takes htake _).trans ?_)
    simp only [State.doInfo, hobj, hserved, hshown, Bool.not_true, Bool.false_eq_true, if_false] <;> rfl
  case noInfo =>
    intro htake hobj
    refine congrArg Host.Outcome.next ((request_takes htake _).trans ?_)
    simp only [State.doInfo, hobj]
  case blobRead =>
    rintro o off len d htake hlen haccess hobj hblob rfl
    refine congrArg Host.Outcome.next ((request_takes htake _).trans ?_)
    simp only [State.doBlobRead, hlen.not_gt, haccess, hobj, hblob, Bool.not_true, Bool.false_eq_true, if_false]
  case blobWrite =>
    intro o d htake hlen haccess hobj hblob hfree
    refine ⟨?first, ?only, ?last⟩
    case first =>
      refine congrArg Host.Outcome.next (congrArg State.settle ((request_takes htake _).trans ?_))
      simp only [State.doBlobWrite, hlen.not_gt, haccess, hobj, hblob, hfree, Bool.not_true, Bool.false_eq_true, if_false, if_true,
        List.nil_append]
    case only =>
      refine congrArg Host.Outcome.next (congrArg State.settle ((request_takes htake _).trans ?_))
      simp only [State.doBlobWrite, hlen.not_gt, haccess, hobj, hblob, hfree, Bool.not_true, Bool.false_eq_true, if_false, if_true,
        List.nil_append]
    case last =>
      intro l hl hkept
      have hoff : l.length ≠ 0 := by simpa using hl
      refine congrArg Host.Outcome.next (congrArg State.settle ((request_takes htake _).trans ?_))
      simp only [State.doBlobWrite, hlen.not_gt, haccess, hobj, hblob, hfree, hoff, hkept, and_self, Bool.not_true, Bool.false_eq_true,
        if_false, if_true]
  case subscribe =>
    rintro n mask rfl htake
    exact congrArg Host.Outcome.next (request_takes htake _)
  case close =>
    rintro n rfl htake
    exact congrArg Host.Outcome.next (request_takes htake _)
  case mbxSubscribe =>
    intro mask htake
    exact congrArg Host.Outcome.next (request_takes htake _)
  case mbxClose =>
    intro htake
    exact congrArg Host.Outcome.next (request_takes htake _)

/-- A run that meets O52's hypotheses: in safe mode SUBSCRIBE in the mailbox is answered ROLE. -/
theorem dictionaryRequests_witness :
    exec (.subscribe .mailbox 0 1) { State.reset with bnd := { State.reset.bnd with power := .safe } } =
      .next (State.reply { State.reset with bnd := { State.reset.bnd with power := .safe } } .mailbox 6 0 0 0 3 false []) :=
  (dictionaryRequests _ .mailbox 0 0 0 _).2.2.2.2.2.2.2.2.2.2.2.2.1 1 ⟨.inr rfl, rfl⟩

end

section
/-! PROOFS. Objects that act when written, and PROFILE commands (16_dictionary.md R566 to R576). -/

namespace Sys2Proof.Machine

variable {s t u : State} {r : Requester} {tag i sub : Nat} {v : List Byte} {o : Obj}

/-- A write whose effect leaves state u is answered OK there. -/
theorem setRequest_done {after : State → State} (h : s.Writes r tag i sub v o t) (hset : t.setValue r 2 tag i sub o v = .done u after) :
    s.setRequest r tag i sub v = (after (u.reply r 2 tag i sub 0 false [])).settle := by
  rw [setRequest_writes h, hset]

/-- A write whose effect is done at once leaves its state. -/
theorem setRequest_ok (h : s.Writes r tag i sub v o t) (hset : t.setValue r 2 tag i sub o v = .ok u) :
    s.setRequest r tag i sub v = u.wrote r tag i sub := by
  rw [setRequest_done (after := fun t => t) h hset]
  rfl

/-- A write whose effect is refused is answered with its status. -/
theorem setRequest_fail {st : Nat} (h : s.Writes r tag i sub v o t) (hset : t.setValue r 2 tag i sub o v = .fail st) :
    s.setRequest r tag i sub v = t.notWrote r tag i sub st := by
  rw [setRequest_writes h, hset]
  rfl

/-! ### The objects that act -/

theorem setValue_connState {c : Nat} (hc : c < 1024) (t : State) (o : Obj) (v : List Byte) :
    t.setValue r 2 tag (0x1400 + c) 1 o v = t.connState c (leNat v) := by
  have hrange : 0x1400 ≤ 0x1400 + c ∧ 0x1400 + c < 0x1800 := by omega
  simp only [State.setValue, modeUnits_none t (0x1400 + c) 1 (by omega), hrange, and_self, Nat.add_sub_cancel_left, if_true]

theorem resetAs_cold (t : State) : t.resetAs 2 = t.triggerCold := by
  rw [State.resetAs, if_neg (by decide), if_pos rfl]

theorem resetAs_powerCycle (t : State) : t.resetAs 3 = t.requestPowerCycle 0 := by
  rw [State.resetAs, if_neg (by decide), if_neg (by decide)]

theorem connState_open (t : State) (c : Nat) : t.connState c 1 = if t.openOk c then .ok (t.openConn c) else .fail 6 :=
  if_neg Nat.one_ne_zero

theorem connState_close (t : State) (c : Nat) : t.connState c 0 = .ok (if thas t.net.conns c then t.closeConn c else t) := if_pos rfl

theorem setValue_nextProfile (t : State) (o : Obj) (v : List Byte) :
    t.setValue r 2 tag 0x2000 2 o v = .ok { t with mgmt := { t.mgmt with nextProfile := leNat v } } := by
  simp [State.setValue, modeUnits_none t 0x2000 2 (by decide)]

theorem setValue_alert (t : State) (o : Obj) (v : List Byte) : t.setValue r 2 tag 0x2030 2 o v =
    .ok { t with mgmt := { t.mgmt with alert := t.mgmt.alert &&& (0xFFFFFFFF ^^^ leNat v) },
                 bnd := { t.bnd with alert := t.mgmt.alert &&& (0xFFFFFFFF ^^^ leNat v) != 0 } } := by
  simp [State.setValue, modeUnits_none t 0x2030 2 (by decide)]

theorem setValue_release {f : Nat} (hf : f < 8) (t : State) (o : Obj) : t.setValue r 2 tag (0x4010 + f) 2 o [1] = t.release f := by
  have hv : leNat ([1] : List Byte) = 1 := rfl
  have hlow : ¬ 0x4010 + f < 0x1800 ∧ ¬ 0x4010 + f < 0x1840 := by omega
  have hother : 0x4010 + f ≠ 0x2000 ∧ 0x4010 + f ≠ 0x2020 ∧ 0x4010 + f ≠ 0x2030 := by omega
  have hrange : 0x4010 ≤ 0x4010 + f ∧ 0x4010 + f < 0x4018 := by omega
  simp only [State.setValue, modeUnits_none t (0x4010 + f) 2 (by omega), hv, hlow, hother, hrange, and_false, false_and, and_self,
    Nat.add_sub_cancel_left, if_true, if_false]

theorem setValue_train {k : Nat} (hk : k < 8) (hout : (t.stack k).state = .out) (o : Obj) :
    t.setValue r 2 tag (0x4020 + k) 1 o [1] = .ok (t.setStack k .training) := by
  have hv : leNat ([1] : List Byte) = 1 := rfl
  have hlow : ¬ 0x4020 + k < 0x1800 ∧ ¬ 0x4020 + k < 0x1840 := by omega
  have hother : 0x4020 + k ≠ 0x2000 ∧ 0x4020 + k ≠ 0x2020 ∧ 0x4020 + k ≠ 0x2030 ∧ ¬ 0x4020 + k < 0x4018 := by omega
  have hrange : 0x4020 ≤ 0x4020 + k ∧ 0x4020 + k < 0x4028 := by omega
  simp only [State.setValue, modeUnits_none t (0x4020 + k) 1 (by omega), hv, hlow, hother, hrange, hout, and_false, false_and, and_self,
    Nat.add_sub_cancel_left, if_true, if_false, Nat.one_ne_zero]

theorem setValue_wall (t : State) (o : Obj) (v : List Byte) : t.setValue r 2 tag 0x7000 2 o v = .ok (t.wallSet (leNat v)) := by
  simp [State.setValue, modeUnits_none t 0x7000 2 (by decide)]

theorem setValue_install {n : Nat} (hn : n < 256) (t : State) (o : Obj) (v : List Byte) :
    t.setValue r 2 tag (0x5100 + n) 2 o v = t.install n v (r.waiter 2 tag (0x5100 + n) 2) := by
  have hlow : ¬ 0x5100 + n < 0x1800 ∧ ¬ 0x5100 + n < 0x1840 := by omega
  have hother : 0x5100 + n ≠ 0x2000 ∧ 0x5100 + n ≠ 0x2020 ∧ 0x5100 + n ≠ 0x2030 ∧ ¬ 0x5100 + n < 0x4018 ∧ ¬ 0x5100 + n < 0x4028 ∧
    0x5100 + n ≠ 0x5020 := by omega
  have hrange : 0x5100 ≤ 0x5100 + n ∧ 0x5100 + n < 0x5200 := by omega
  simp only [State.setValue, modeUnits_none t (0x5100 + n) 2 (by omega), hlow, hother, hrange, and_false, false_and, and_self,
    Nat.add_sub_cancel_left, if_true, if_false]

theorem setValue_claim (t : State) (o : Obj) (v : List Byte) : t.setValue r 2 tag 0x5020 1 o v = t.claim v := by
  simp [State.setValue, modeUnits_none t 0x5020 1 (by decide)]

theorem setValue_quota {n : Nat} (hn : n < 256) (hsub : 0x11 ≤ sub) (t : State) (o : Obj) (v : List Byte) :
    t.setValue r 2 tag (0x6100 + n) sub o v = t.quotaWrite n sub (leNat v) := by
  have hlow : ¬ 0x6100 + n < 0x1800 ∧ ¬ 0x6100 + n < 0x1840 := by omega
  have hother : 0x6100 + n ≠ 0x2000 ∧ 0x6100 + n ≠ 0x2020 ∧ 0x6100 + n ≠ 0x2030 ∧ ¬ 0x6100 + n < 0x4018 ∧ ¬ 0x6100 + n < 0x4028 ∧
    0x6100 + n ≠ 0x5020 ∧ ¬ 0x6100 + n < 0x5200 ∧ ¬ 0x6100 + n < 0x5018 := by omega
  have hrange : 0x6100 ≤ 0x6100 + n ∧ 0x6100 + n < 0x6200 := by omega
  simp only [State.setValue, modeUnits_none t (0x6100 + n) sub (by omega), hlow, hother, hrange, and_false, false_and, and_self,
    Nat.add_sub_cancel_left, if_true, if_false]

/-- The debug token is an object that only persists. -/
theorem setValue_debugToken (hobj : objInfo 0x5001 4 = some o) (t : State) (v : List Byte) :
    t.setValue r 2 tag 0x5001 4 o v = t.persist (okey 0x5001 4) v := by
  have hpers : o.pers = true := by
    obtain rfl := Option.some.inj hobj
    rfl
  simp [State.setValue, modeUnits_none t 0x5001 4 (by decide), hpers]

end Sys2Proof.Machine

open Sys2Proof Sys2Proof.Machine

/-- Settles O54: a write of an object is `setRequest_ok` with the object's `setValue` lemma, a PROFILE command `runIf_starts`. -/
theorem objectWrites : Obligations.ObjectWrites := by
  refine ⟨fun s r tag o t => ⟨?connOpen, ?connClose, ?nextProfile, ?quota, ?warm, ?cold, ?powerCycle, ?coldRole, ?alert, ?release,
    ?train, ?wall, ?install, ?claim, ?token⟩, fun s q x c hstart => ⟨?select, ?noSelect, ?cancel, ?read, ?custom, ?noCustom⟩⟩
  case connOpen =>
    intro c hc hwrites
    have hset : t.setValue r 2 tag (0x1400 + c) 1 o [1] = t.connState c 1 := setValue_connState hc t o [1]
    rw [connState_open] at hset
    refine ⟨fun hok => ?_, fun hbad => ?_⟩
    · rw [hok, if_pos rfl] at hset
      exact (if_pos hc).trans (congrArg Host.Outcome.next (setRequest_ok hwrites hset))
    · rw [hbad, if_neg Bool.false_ne_true] at hset
      exact (if_pos hc).trans (congrArg Host.Outcome.next (setRequest_fail hwrites hset))
  case connClose =>
    intro c hc hwrites
    have hset : t.setValue r 2 tag (0x1400 + c) 1 o [0] = t.connState c 0 := setValue_connState hc t o [0]
    rw [connState_close] at hset
    exact (if_pos hc).trans (congrArg Host.Outcome.next (setRequest_ok hwrites hset))
  case nextProfile =>
    intro p hp hwrites
    have hset := setValue_nextProfile (r := r) (tag := tag) t o (toLE 1 p)
    rw [leNat_toLE 1 p hp] at hset
    exact congrArg Host.Outcome.next (setRequest_ok hwrites hset)
  case quota =>
    intro i sub v k m x d hi hsub hwrites hon hsteady hquota hgood
    have hset := setValue_quota (r := r) (tag := tag) hi hsub t o v
    simp only [State.quotaWrite, hon, hsteady, or_self, hquota, hgood, Option.isSome_none, Bool.false_eq_true, if_false] at hset
    refine Eq.trans (if_pos ?_) (congrArg Host.Outcome.next (setRequest_ok hwrites hset))
    rw [decide_eq_true hi, decide_eq_true hsub, Bool.and_self]
  case warm =>
    intro hwrites
    have hset : t.setValue r 2 tag 0x2020 1 o [1] = t.resetReq (t.roleOf r == 3) 1 := setValue_resetReq t r tag o [1]
    rw [State.resetReq, if_neg (fun h => absurd h.1 (by decide))] at hset
    exact congrArg Host.Outcome.next (setRequest_done hwrites hset)
  case cold =>
    intro hwrites hrole
    have hset : t.setValue r 2 tag 0x2020 1 o [2] = .done t (·.resetAs 2) := setValue_resetReq_owner hrole (by decide) tag o
    have hrun := setRequest_done hwrites hset
    rw [resetAs_cold] at hrun
    exact congrArg Host.Outcome.next hrun
  case powerCycle =>
    intro hwrites hrole
    have hset : t.setValue r 2 tag 0x2020 1 o [3] = .done t (·.resetAs 3) := setValue_resetReq_owner hrole (by decide) tag o
    have hrun := setRequest_done hwrites hset
    rw [resetAs_powerCycle] at hrun
    exact congrArg Host.Outcome.next hrun
  case coldRole =>
    intro hwrites hrole
    have hset : t.setValue r 2 tag 0x2020 1 o [2] = t.resetReq (t.roleOf r == 3) 2 := setValue_resetReq t r tag o [2]
    rw [State.resetReq, beq_eq_false_iff_ne.2 hrole, if_pos ⟨le_refl 2, rfl⟩] at hset
    exact congrArg Host.Outcome.next (setRequest_fail hwrites hset)
  case alert =>
    rintro mask left hmask hwrites rfl
    have hset := setValue_alert (r := r) (tag := tag) t o (toLE 4 mask)
    rw [leNat_toLE 4 mask hmask] at hset
    exact congrArg Host.Outcome.next (setRequest_ok hwrites hset)
  case release =>
    intro f hf hwrites hheld hstack
    have hset := setValue_release (r := r) (tag := tag) hf t o
    rw [State.release, hheld, if_neg (by simp), if_pos hstack] at hset
    exact (if_pos hf).trans (congrArg Host.Outcome.next (setRequest_ok hwrites hset))
  case train =>
    intro k hk hwrites hout
    exact (if_pos hk).trans (congrArg Host.Outcome.next (setRequest_ok hwrites (setValue_train hk hout o)))
  case wall =>
    intro ns hns hwrites
    have hset := setValue_wall (r := r) (tag := tag) t o (toLE 8 ns)
    rw [leNat_toLE 8 ns hns] at hset
    exact congrArg Host.Outcome.next (setRequest_ok hwrites hset)
  case install =>
    intro n v hn hwrites hpolicy hkeys hfree howner hroom hempty
    have hset := setValue_install (r := r) (tag := tag) hn t o v
    simp only [State.install, hpolicy, hkeys, hfree, hempty, beq_eq_false_iff_ne.2 howner, bne_self_eq_false, Bool.false_and,
      Bool.false_eq_true, if_false, hroom.not_gt, decide_false, Bool.not_true, Bool.or_self, reduceCtorEq, if_true] at hset
    exact (if_pos hn).trans (congrArg Host.Outcome.next (setRequest_ok hwrites hset))
  case claim =>
    intro v a b hwrites hnone hkey hrole
    have hset := setValue_claim (r := r) (tag := tag) t o v
    simp only [State.claim, hnone, hkey, Option.bind_some, hrole, Bool.false_eq_true, if_false] at hset
    exact congrArg Host.Outcome.next (setRequest_ok hwrites hset)
  case token =>
    intro v u hwrites hput
    have hset := setValue_debugToken (r := r) (tag := tag) hwrites.2.2.1 t v
    rw [State.persist, hput] at hset
    exact congrArg Host.Outcome.next (setRequest_ok hwrites hset)
  case select =>
    intro hsel hcap hdomains
    refine congrArg Host.Outcome.next ((runIf_starts hstart hsel).trans (congrArg State.settle (if_neg ?_)))
    rw [hcap, hdomains]
    exact Bool.false_ne_true
  case noSelect =>
    intro hsel hdomains
    refine congrArg Host.Outcome.next ((runIf_starts hstart hsel).trans (congrArg State.settle (if_pos ?_)))
    rw [hdomains, Bool.not_false, Bool.or_true]
  case cancel =>
    intro hsel hobj
    exact congrArg Host.Outcome.next ((runIf_starts hstart hsel).trans (congrArg State.settle (if_neg (not_not.2 hobj))))
  case read =>
    intro hsel hobj hlen
    refine congrArg Host.Outcome.next ((runIf_starts hstart hsel).trans (congrArg State.settle ?_))
    simp only [hobj, hlen.not_gt, ne_eq, not_true, if_false]
  case custom =>
    intro u hsel hobj harg hput
    have hallowed : ¬(cmdArg c ≠ 2 ∧ cmdArg c ≠ 4) := by omega
    refine congrArg Host.Outcome.next ((runIf_starts hstart hsel).trans (congrArg State.settle ?_))
    simp only [hobj, hallowed, ne_eq, not_true, if_false, State.persist, hput, Wr.ok]
  case noCustom =>
    intro hsel hobj h2 h4
    refine congrArg Host.Outcome.next ((runIf_starts hstart hsel).trans (congrArg State.settle ?_))
    simp only [hobj, h2, h4, ne_eq, not_true, not_false_eq_true, and_self, if_true, if_false]

/-- A run that meets O54's hypotheses: PROFILE_CANCEL forgets the chosen profile. -/
theorem objectWrites_witness : exec (.profileCancel 0) (readyState 0x48 (toLE 16 0 ++ [1])) =
    .next (State.settle (State.succeed { readyState 0x48 (toLE 16 0 ++ [1]) with
      mgmt := { (readyState 0x48 (toLE 16 0 ++ [1])).mgmt with nextProfile := 0xFF } } 0 0 0)) :=
  (objectWrites.2 _ 0 _ _ (readyState_starts (by decide) (by decide))).2.2.1 (by decide) (by decide)

end

section
/-! PROOFS. Mode changes and firmware updates (16_dictionary.md R578 to R580, 15_security.md R548 to R553). -/

namespace Sys2Proof.Machine

variable {t : State} {r : Requester} {tag : Nat} {o : Obj} {v : List Byte}

/-- The firmware object is no mode object in any of the four profiles. -/
theorem modeUnits_firmware (hprofile : t.profile < 4) (sub : Nat) : t.modeUnits 0x9001 sub = none := by
  have hcap : ¬ 0x9001 = 0x2100 + t.profile := by omega
  simp [State.modeUnits, State.capKey, hcap]

theorem setValue_fwProgram (hprofile : t.profile < 4) : t.setValue r 2 tag 0x9001 1 o v = t.fwProgram v := by
  simp [State.setValue, modeUnits_firmware hprofile]

theorem setValue_fwCmd (hprofile : t.profile < 4) :
    t.setValue r 2 tag 0x9001 3 o v = t.fwCmd (t.roleOf r == 3) (leNat v) (r.waiter 2 tag 0x9001 3) := by
  simp [State.setValue, modeUnits_firmware hprofile]

theorem setValue_arb : t.setValue r 2 tag 0x9002 1 o [1] = .ok t.arbCommit := by
  simp [State.setValue, modeUnits_none t 0x9002 1 (by decide), leNat]

theorem setValue_revoke : t.setValue r 2 tag 0x9002 2 o v = t.fwRevoke v := by
  simp [State.setValue, modeUnits_none t 0x9002 2 (by decide)]

end Sys2Proof.Machine

open Sys2Proof Sys2Proof.Machine

/-- Settles O55: a mode change is the branch that its phase chooses; a firmware command is `setRequest_ok` or `setRequest_fail` with
`setValue_fwCmd`. -/
theorem modeChangesAndFirmware : Obligations.ModeChangesAndFirmware := by
  refine ⟨fun s => ⟨?change, ?deadline, ?commit, ?early, ?confirmed⟩, ?firmware⟩
  case change =>
    rintro r tag i sub v o t units k c hwrites hmode hmode' hidle rfl rfl m rfl
    have hset : t.setValue r 2 tag i sub o v = t.startMode i sub units v (r.waiter 2 tag i sub) := by
      simp only [State.setValue, hmode']
    simp only [State.startMode, hidle, Option.isSome_none, Bool.false_eq_true, if_false] at hset
    have hrun := setRequest_writes hwrites
    rw [hset] at hrun
    refine Eq.trans (if_pos ?_) (congrArg Host.Outcome.next hrun)
    rw [hmode, Option.isSome_some]
  case deadline =>
    rintro c missed target u hchange hopen hdue rfl hmissed m rfl rfl
    show execPrepareDeadline missed s = _
    simp only [execPrepareDeadline, hchange, hopen, decide_eq_false hdue.not_gt, beq_eq_false_iff_ne.2 hmissed, Bool.or_self,
      Bool.false_eq_true, if_false]
  case commit =>
    rintro c u hchange hopen hdue rfl m rfl
    show execModeCommit s = _
    simp only [execModeCommit, hchange, hopen, decide_eq_false hdue.not_gt, Bool.or_self, Bool.false_eq_true, if_false]
  case early =>
    intro c hchange hearly
    show execModeCommit s = _
    simp only [execModeCommit, hchange, decide_eq_true hearly, Bool.or_true, if_true]
  case confirmed =>
    rintro c failed bad u v hchange happlied rfl hdue rfl rfl
    have hwaits : (failed &&& s.mgmt.target != 0 && decide (s.now < c.prepare + 250000)) = false := by
      rcases hdue with hzero | hlate
      · rw [hzero]; rfl
      · rw [decide_eq_false hlate.not_gt, Bool.and_false]
    show execConfirmDeadline failed s = _
    simp only [execConfirmDeadline, hchange, happlied, hwaits, Bool.not_true, Bool.or_self, Bool.false_eq_true, if_false]
  case firmware =>
    rintro s r tag o t x rfl hprofile
    refine ⟨?program, ?verify, ?noVerify, ?stage, ?activate, ?confirm, ?confirmRole, ?selectFs1, ?abort, ?arb, ?revoke, ?passed, ?failed⟩
    case program =>
      rintro v a hwrites hidle hsize hstore rfl
      have hset := setValue_fwProgram (r := r) (tag := tag) (o := o) (v := v) hprofile
      simp only [State.fwProgram, hidle, hsize.not_gt, hstore, Bool.false_eq_true, if_false] at hset
      exact congrArg Host.Outcome.next (setRequest_ok hwrites hset)
    case verify =>
      rintro hwrites htrial hstate st rfl
      have hset : t.setValue r 2 tag 0x9001 3 o [1] = t.fwCmd _ 1 _ := setValue_fwCmd hprofile
      simp only [State.fwCmd, htrial, hstate] at hset
      exact congrArg Host.Outcome.next (setRequest_ok hwrites hset)
    case noVerify =>
      intro hwrites htrial hstate
      have hset : t.setValue r 2 tag 0x9001 3 o [1] = t.fwCmd _ 1 _ := setValue_fwCmd hprofile
      simp [State.fwCmd, htrial, hstate] at hset
      exact congrArg Host.Outcome.next (setRequest_fail hwrites hset)
    case stage =>
      rintro im hwrites htrial hstate htarget rfl hdigest
      have hset : t.setValue r 2 tag 0x9001 3 o [2] = t.fwCmd _ 2 _ := setValue_fwCmd hprofile
      simp [State.fwCmd, htrial, hstate, htarget, hdigest] at hset
      exact congrArg Host.Outcome.next (setRequest_ok hwrites hset)
    case activate =>
      intro hwrites htrial hstate hidle
      have hset : t.setValue r 2 tag 0x9001 3 o [3] = t.fwCmd _ 3 _ := setValue_fwCmd hprofile
      simp [State.fwCmd, htrial, hstate, hidle] at hset
      exact congrArg Host.Outcome.next (setRequest_ok hwrites hset)
    case confirm =>
      intro hwrites hrole htrial hstate hstore
      have hset : t.setValue r 2 tag 0x9001 3 o [4] = t.fwCmd (t.roleOf r == 3) 4 _ := setValue_fwCmd hprofile
      simp [State.fwCmd, hrole, htrial, hstate, hstore] at hset
      exact congrArg Host.Outcome.next (setRequest_ok hwrites hset)
    case confirmRole =>
      intro hwrites hrole
      have hset : t.setValue r 2 tag 0x9001 3 o [4] = t.fwCmd (t.roleOf r == 3) 4 _ := setValue_fwCmd hprofile
      simp [State.fwCmd, hrole] at hset
      exact congrArg Host.Outcome.next (setRequest_fail hwrites hset)
    case selectFs1 =>
      intro hwrites hrole htrial hstate htarget hstore
      have hset : t.setValue r 2 tag 0x9001 3 o [5] = t.fwCmd (t.roleOf r == 3) 5 _ := setValue_fwCmd hprofile
      simp [State.fwCmd, hrole, htrial, hstate, htarget, hstore] at hset
      exact congrArg Host.Outcome.next (setRequest_ok hwrites hset)
    case abort =>
      intro hwrites hprogress
      have hset : t.setValue r 2 tag 0x9001 3 o [6] = t.fwCmd _ 6 _ := setValue_fwCmd hprofile
      simp [State.fwCmd, hprogress] at hset
      exact congrArg Host.Outcome.next (setRequest_ok hwrites hset)
    case arb =>
      intro hwrites
      exact congrArg Host.Outcome.next (setRequest_ok hwrites setValue_arb)
    case revoke =>
      intro v k b hwrites hrecord hk hb hne hgood
      have hset := setValue_revoke (t := t) (r := r) (tag := tag) (o := o) (v := v)
      simp only [State.fwRevoke, hrecord, hk, hb, hne, hgood, ne_eq, not_false_eq_true, Bool.not_false, and_self, if_true] at hset
      exact congrArg Host.Outcome.next (setRequest_ok hwrites hset)
    case passed =>
      intro b htrial hintime
      show execTrialEnd true s = _
      simp only [execTrialEnd, htrial, decide_eq_true hintime, Bool.and_self, if_true]
    case failed =>
      intro b htrial
      show execTrialEnd false s = _
      simp only [execTrialEnd, htrial, Bool.false_and, Bool.false_eq_true, if_false]

/-- The reset state with a mode change under way since tick 0. -/
def Sys2Proof.Machine.changingState : State :=
  { State.reset with mgmt := { State.reset.mgmt with change := some ⟨0x4000, 1, [], [], 0, false, .mailbox 2 0 0x4000 1⟩ } }

/-- A run that meets O55's hypotheses: before its commit tick a change does not commit. -/
theorem modeChangesAndFirmware_witness : exec .modeCommit changingState = .next changingState :=
  (modeChangesAndFirmware.1 changingState).2.2.2.1 _ rfl (by decide)

end

section
/-! PROOFS. Resets, starts, voltages and temperatures (17_boundary.md R586 to R608). -/

namespace Sys2Proof.Machine

variable {s : State}

/-- No stack is in self-refresh when none is by number. -/
theorem no_selfRefresh (h : ∀ f, f < 8 → (s.stack f).state ≠ .selfRefresh) :
    s.hbm.toList.any (fun (x : StackSt) => x.state == StackState.selfRefresh) = false := by
  rw [List.any_eq_false]
  intro x hx
  obtain ⟨f, hf, rfl⟩ := List.mem_iff_getElem.1 hx
  have hf8 : f < 8 := by simpa using hf
  have hstack : s.hbm.toList[f] = s.stack f := by simp [State.stack, vget, hf8]
  rw [hstack, beq_iff_eq]
  exact h f hf8

/-- Some forme has come to be paced for its heat since the list of the eight formes' states was read of s. -/
theorem any_newlyPaced (u s : State) : ((List.range 8).any (fun f => u.hotPaced f && !((((List.range 8).map s.hotPaced))[f]?).getD false)) =
    true ↔ ∃ f, f < 8 ∧ u.hotPaced f = true ∧ s.hotPaced f = false := by
  rw [List.any_eq_true]
  refine exists_congr fun f => ?_
  rw [List.mem_range]
  refine and_congr_right fun hf => ?_
  have hbefore : (((List.range 8).map s.hotPaced)[f]?).getD false = s.hotPaced f := by simp [hf]
  rw [hbefore, Bool.and_eq_true, Bool.not_eq_true']

end Sys2Proof.Machine

open Sys2Proof Sys2Proof.Machine

/-- Settles O56: every event is the branch that the power state and the premises choose; the temperatures' one is `any_newlyPaced`. -/
theorem startsAndPower : Obligations.StartsAndPower := by
  refine ⟨fun s => ⟨rfl, ?release, rfl, ?coldDone, ?warmDone, ?warmFailed, ?coldFailed, ?retry, ?refLoss, ?refReturn, ?refBack⟩,
    fun s => ⟨?voltage, ?sortRail, ?fabRail, ?memcRail, rfl, ?power, ?temps, ?band, ?thermtrip⟩⟩
  case release =>
    rintro straps u hlow rfl
    refine ⟨fun hclk => ?_, fun hclk => ?_⟩
    · show execPorNRelease straps s = _
      simp only [execPorNRelease, hlow, hclk, Bool.not_true, Bool.false_eq_true, if_false, if_true]
    · show execPorNRelease straps s = _
      simp only [execPorNRelease, hlow, hclk, Bool.not_true, Bool.false_eq_true, if_false]
  case coldDone =>
    rintro n u v hpower hlink htrain rfl htrial rfl
    show execColdStartDone s = _
    simp only [execColdStartDone, hpower, hlink, htrain, htrial, Bool.not_true, Bool.or_self, Bool.false_eq_true, if_false]
  case warmDone =>
    rintro n u v hpower hlink hstacks rfl rfl
    show execWarmStartDone s = _
    simp only [execWarmStartDone, hpower, hlink, no_selfRefresh hstacks, Bool.not_true, Bool.or_self, Bool.false_eq_true, if_false]
  case warmFailed =>
    intro b n hpower
    show execStartFailed b s = _
    simp only [execStartFailed, hpower]
  case coldFailed =>
    rintro b n u hpower rfl
    refine ⟨?_, ?_⟩
    · rintro v hfew rfl
      show execStartFailed b s = _
      simp only [execStartFailed, hpower, hfew, if_true]
    · rintro v hthird rfl
      show execStartFailed b s = _
      simp only [execStartFailed, hpower, hthird.not_gt, if_false]
  case retry =>
    intro due hdue
    refine ⟨fun hpower => ?_, fun hpower => ?_⟩
    · show execStartRetry s = _
      simp only [execStartRetry, hpower, hdue.not_gt, if_false]
    · show execStartRetry s = _
      simp only [execStartRetry, hpower, hdue.not_gt, if_false]
  case refLoss =>
    rintro u hclk hsafe htripped rfl
    show execRefclkLoss s = _
    simp only [execRefclkLoss, hclk, hsafe, htripped, or_self, Bool.not_true, Bool.false_eq_true, if_false]
  case refReturn =>
    intro hclk hpower
    refine if_pos ⟨hpower, ?_⟩
    rw [hclk, Bool.not_false]
  case refBack =>
    intro hpower
    exact if_neg (fun h => hpower h.1)
  case voltage =>
    intro f hf hreq
    refine ⟨?_, fun hlate => ?_⟩
    · show execVriAck f s = _
      simp only [execVriAck, decide_eq_true hf, hreq, Bool.and_self, if_true]
    · show execVriAckTimeout f s = _
      simp only [execVriAckTimeout, decide_eq_true hf, hreq, decide_eq_true hlate, Bool.and_self, if_true]
  case sortRail =>
    intro f hf hpowered
    show execRailTrip (.sort f) s = _
    simp only [execRailTrip, decide_eq_true hf, hpowered, Bool.and_self, if_true]
  case fabRail =>
    intro hpowered
    exact if_pos hpowered
  case memcRail =>
    intro hpowered
    exact if_pos hpowered
  case power =>
    rintro mW mean hpowered hdue rfl b m u rfl rfl rfl
    show execPowerSample mW s = _
    simp only [execPowerSample, hpowered, decide_eq_false hdue.not_gt, Bool.not_true, Bool.or_self, Bool.false_eq_true, if_false]
  case temps =>
    intro temps fab b u hpowered hb hu
    have hexec : exec (.dieTempRead temps fab) s = .next (if (List.range 8).any (fun f => u.hotPaced f &&
        !((((List.range 8).map s.hotPaced))[f]?).getD false) then u.capPacing else u) := by
      subst hu hb
      refine if_neg ?_
      rw [hpowered]
      exact Bool.false_ne_true
    refine ⟨fun hnone => ?_, fun f hf hnow hbefore => ?_⟩
    · rw [hexec, if_neg]
      rw [any_newlyPaced]
      rintro ⟨f, hf, hnow, hbefore⟩
      rw [hnone f hf hnow] at hbefore
      exact Bool.noConfusion hbefore
    · rw [hexec, if_pos ((any_newlyPaced u s).2 ⟨f, hf, hnow, hbefore⟩)]
  case band =>
    rintro f b x hf rfl hvalid rfl hwant
    show execVoltageBandChange f s = _
    simp only [execVoltageBandChange, hf.not_ge, hvalid, hwant, Bool.not_true, Bool.false_eq_true, or_self, if_false, if_true]
  case thermtrip =>
    rintro u hreset htripped rfl
    show execThermtrip s = _
    unfold execThermtrip
    split
    next h => exact absurd h hreset
    next h => exact absurd h htripped
    next => rfl

/-- A run that meets O56's hypotheses: the release of POR_N with REFCLK running begins a cold start. -/
theorem startsAndPower_witness : exec (.porNRelease 1) { State.reset with bnd := { State.reset.bnd with refclk := true } } =
    .next (State.beginCold { State.reset with bnd := { State.reset.bnd with refclk := true, porLow := false, strapPins := 1 } }) :=
  ((startsAndPower.1 { State.reset with bnd := { State.reset.bnd with refclk := true } }).2.1 1 _ rfl rfl).1 rfl

end

section
/-! PROOFS. Flash operations, and faults of units and links (17_boundary.md R611 to R619, 14_recovery.md R473 to R497). -/

namespace Sys2Proof.Machine

variable {s : State} {n : Nat}

/-- A cell of an empty slot that fails takes a spare cell, while more than one is left. -/
theorem keyCellFailure_empty (hn : n < 256) (hgood : s.sec.retiredSlots.contains n = false) (hempty : (s.kslot n).state = .empty)
    (hspare : 1 < s.sec.spareCells) : exec (.keyCellFailure n) s = .next (State.settle { s with
      sec := { s.sec with spareCells := s.sec.spareCells - 1, retiredSlots := s.sec.retiredSlots } }) := by
  have hleft : (s.sec.spareCells - 1 == 0) = false := by
    rw [beq_eq_false_iff_ne]
    omega
  show execKeyCellFailure n s = _
  simp only [execKeyCellFailure, decide_eq_false hn.not_ge, hgood, hempty, decide_eq_true (Nat.lt_of_succ_lt hspare), hleft,
    bne_self_eq_false, Bool.and_false, Bool.or_self, Bool.not_true, Bool.false_eq_true, if_false, if_true]

/-- A cell of a slot with a key that no fuse restores loses the key, and its users with it. -/
theorem keyCellFailure_lost {u : State} (hn : n < 256) (hgood : s.sec.retiredSlots.contains n = false)
    (hready : (s.kslot n).state = .ready) (hfuse : (s.kslot n).origin ≠ 1) (hbox : (s.kslot n).origin ≠ 6) (hspare : 1 < s.sec.spareCells)
    (hu : (s.slotLost n).dropPend n (s.kslot n) = u) (hcells : u.sec.spareCells = s.sec.spareCells) :
    exec (.keyCellFailure n) s = .next (State.settle (State.modSlot { u with
      sec := { u.sec with spareCells := u.sec.spareCells - 1, retiredSlots := u.sec.retiredSlots } } n
        (fun k => { k with state := .destroyed, pend := none, key := 0, uses := 0 }))) := by
  have hleft (f : KSlot → KSlot) : ((State.modSlot { u with sec := { u.sec with spareCells := u.sec.spareCells - 1 } } n f).sec.spareCells
      == 0) = false := by
    show (u.sec.spareCells - 1 == 0) = false
    rw [beq_eq_false_iff_ne]
    omega
  have hkey : ((s.kslot n).state != .empty) = true := by rw [hready]; rfl
  show execKeyCellFailure n s = _
  simp only [execKeyCellFailure, decide_eq_false hn.not_ge, hgood, hkey, beq_eq_false_iff_ne.2 hfuse, beq_eq_false_iff_ne.2 hbox, hu,
    decide_eq_true (Nat.lt_of_succ_lt hspare), hleft, Bool.and_false, Bool.false_and, Bool.or_self, Bool.not_false, Bool.not_true,
    Bool.and_self, Bool.false_eq_true, if_false, if_true]

end Sys2Proof.Machine

open Sys2Proof Sys2Proof.Machine

/-- Settles O57: each event is the branch that its premises choose; a failed key cell is `keyCellFailure_empty` or
`keyCellFailure_lost`. -/
theorem flashAndFaultEvents : Obligations.FlashAndFaultEvents := by
  refine ⟨fun s => ⟨fun addr len => ⟨rfl, rfl, rfl, rfl⟩, ?program, ?range, ?read, ?programDone, ?erase, ?blank, ?timeout, ?compaction⟩,
    fun s => ⟨fun hup => ⟨?galley, ?stick, ?forme, ?hostPort, ?control, ?other, ?spareLane, ?galleyLink, ?formeLink, ?port⟩,
      ?sortWord, ?compWord, ?tamper, ?pause, ?emptyCell, ?lostCell⟩⟩
  case program =>
    intro addr data hpowered
    show execFpProgram addr data s = _
    simp only [execFpProgram, hpowered, if_true]
  case range =>
    intro op addr len e hbusy hrange
    show execFpOperationDone e s = _
    simp only [execFpOperationDone, hbusy, hrange, if_true]
  case read =>
    intro addr len e hbusy hrange
    show execFpOperationDone e s = _
    simp only [execFpOperationDone, hbusy, hrange, Bool.false_eq_true, if_false]
  case programDone =>
    intro addr len e hbusy hrange
    refine ⟨fun hprot => ?_, fun hprot hfull => ?_, fun hprot hblank => ?_⟩
    · show execFpOperationDone e s = _
      simp only [execFpOperationDone, hbusy, hrange, hprot, Bool.false_eq_true, if_false, if_true]
    · show execFpOperationDone e s = _
      simp only [execFpOperationDone, hbusy, hrange, hprot, hfull, Bool.not_false, Bool.false_eq_true, if_false, if_true]
    · show execFpOperationDone e s = _
      simp only [execFpOperationDone, hbusy, hrange, hprot, hblank, Bool.not_true, Bool.false_eq_true, if_false]
  case erase =>
    intro addr len e hbusy hrange
    refine ⟨fun hprot => ?_, fun hprot hgood => ?_⟩
    · show execFpOperationDone e s = _
      simp only [execFpOperationDone, hbusy, hrange, hprot, Bool.false_eq_true, if_false, if_true]
    · show execFpOperationDone e s = _
      simp only [execFpOperationDone, hbusy, hrange, hprot, hgood, Bool.false_eq_true, if_false]
  case blank =>
    intro addr len e hbusy hrange
    show execFpOperationDone e s = _
    simp only [execFpOperationDone, hbusy, hrange, Bool.false_eq_true, if_false]
  case timeout =>
    intro op addr len n hbusy hlimit
    refine ⟨fun hlate => ?_, fun hearly => ?_⟩
    · show execFpTimeout s = _
      simp only [execFpTimeout, hbusy, hlimit, hlate, if_true]
    · show execFpTimeout s = _
      simp only [execFpTimeout, hbusy, hlimit, hearly.not_gt, if_false]
  case compaction =>
    rintro x recs y rfl hcompacting hpowered hgood rfl rfl u rfl
    show execStoreCompaction s = _
    simp only [execStoreCompaction, hcompacting, hpowered, hgood, Bool.not_true, Bool.or_self, Bool.false_eq_true, if_false]
  case galley =>
    intro g hg hserves
    show execUnitFault (.galley g) s = _
    simp only [execUnitFault, hup, hserves, decide_eq_true hg, Bool.not_true, Bool.and_self, Bool.false_eq_true, if_false, if_true]
  case stick =>
    intro g j hg hj hserves
    show execUnitFault (.stick g j) s = _
    simp only [execUnitFault, hup, hserves, decide_eq_true hg, decide_eq_true hj, Bool.not_true, Bool.and_self, Bool.false_eq_true,
      if_false, if_true]
  case forme =>
    intro f hf hserves
    refine ⟨?_, ?_⟩
    · show execUnitFault (.platen f) s = _
      simp only [execUnitFault, hup, hserves, decide_eq_true hf, beq_self_eq_true, Bool.not_true, Bool.and_self, Bool.false_eq_true,
        if_false, if_true]
    · show execUnitFault (.controller f) s = _
      simp only [execUnitFault, hup, hserves, decide_eq_true hf, beq_self_eq_true, Bool.not_true, Bool.and_self, Bool.false_eq_true,
        if_false, if_true]
  case hostPort =>
    show execUnitFault .hostPort s = _
    simp only [execUnitFault, hup, Bool.not_true, Bool.false_eq_true, if_false]
  case control =>
    intro t ht
    show execUnitFault (.control t) s = _
    simp only [execUnitFault, hup, Nat.mod_eq_of_lt ht, Bool.not_true, Bool.false_eq_true, if_false]
  case other =>
    intro t ht
    show execUnitFault (.other t) s = _
    simp only [execUnitFault, hup, Nat.mod_eq_of_lt ht, Bool.not_true, Bool.false_eq_true, if_false]
  case spareLane =>
    rintro k group central u hk hfirst rfl
    show execFabricLinkFault k group central s = _
    simp only [execFabricLinkFault, hup, decide_eq_false hk.not_ge, hfirst, Bool.not_true, Bool.or_self, Bool.false_eq_true, if_false]
  case galleyLink =>
    intro k group central hk hspared
    have hk85 : ¬ 85 ≤ k := by omega
    show execFabricLinkFault k group central s = _
    simp only [execFabricLinkFault, hup, decide_eq_false hk85, hspared, hk, Bool.not_true, Bool.or_self, Bool.false_eq_true, if_false,
      if_true]
  case formeLink =>
    intro k group f hlow hk hspared hforme
    show execFabricLinkFault k group false s = _
    simp only [execFabricLinkFault, hup, decide_eq_false hk.not_ge, hspared, hlow.not_gt, hforme, Bool.not_true, Bool.or_self,
      Bool.false_eq_true, if_false, if_true]
  case port =>
    intro p hport
    show execPortLinkUp p s = _
    simp only [execPortLinkUp, hup, hport, Bool.and_self, if_true]
  case sortWord =>
    intro g sl t w hruns hword
    have hexec : exec (.illegalInstr ⟨g, some sl⟩ w) s = .next (s.runSort g sl isRunning (fun _ _ => .exc .illegalInstr)) :=
      if_neg (by rw [hword]; exact Bool.false_ne_true)
    rw [hexec, run_exc hruns rfl]
  case compWord =>
    intro g k w hruns hword
    have hexec : exec (.illegalInstr ⟨g, none⟩ w) s = .next (s.runComp g (fun _ _ => .exc .compIllegal)) :=
      if_neg (by rw [hword]; exact Bool.false_ne_true)
    rw [hexec, runComp_exc hruns rfl]
  case tamper =>
    rintro u rfl
    exact ⟨fun hwaits => if_pos hwaits, fun hother => if_neg hother⟩
  case pause =>
    intro p pri t hpaused hdue
    show execPfcQuantaExpiry p pri s = _
    simp only [execPfcQuantaExpiry, hpaused, hdue, if_true]
  case emptyCell =>
    rintro n k v hn hgood rfl hempty hspare rfl
    exact keyCellFailure_empty hn hgood hempty hspare
  case lostCell =>
    rintro n u v hn hgood hready hfuse hbox hspare hu hcells rfl
    exact keyCellFailure_lost hn hgood hready hfuse hbox hspare hu.symm hcells

/-- A run that meets O57's hypotheses: a flash READ of a block that is powered puts its operation in progress. -/
theorem flashAndFaultEvents_witness : exec (.fpRead 0 64) { State.reset with bnd := { State.reset.bnd with power := .safe } } =
    .next (State.fpCommand { State.reset with bnd := { State.reset.bnd with power := .safe } } 1 0 64) :=
  ((flashAndFaultEvents.1 _).1 0 64).1

end

section
/-! PROOFS. What the settling of a state keeps: its contexts and the scope of its staging ranges (08_memory.md R287, 12_host_port.md
R421, R433). -/

namespace Sys2Proof.Laws
open Sys2Proof Sys2Proof.Machine

/-- From s to t every context stays, and each function's staging range and reset are as they were. -/
structure SameScope (s t : State) : Prop where
  ctxs : t.ctxs = [] → s.ctxs = []
  staging : ∀ i, (t.inst i).staging = (s.inst i).staging
  reset : ∀ i, (t.inst i).reset = (s.inst i).reset

variable {s0 s t : State}

namespace SameScope

theorem refl (s : State) : SameScope s s := ⟨id, fun _ => rfl, fun _ => rfl⟩

theorem of_eq (h : SameScope s0 s) (hc : t.ctxs = s.ctxs) (hi : t.host.insts = s.host.insts) : SameScope s0 t := by
  have hinst (i : Nat) : t.inst i = s.inst i := by rw [State.inst, State.inst, hi]
  exact ⟨fun hnil => h.ctxs (hc ▸ hnil), fun i => by rw [hinst]; exact h.staging i, fun i => by rw [hinst]; exact h.reset i⟩

theorem foldl {α : Type} {f : State → α → State} {l : List α} (h : SameScope s0 s)
    (hf : ∀ t x, SameScope s0 t → SameScope s0 (f t x)) : SameScope s0 (l.foldl f s) := by
  induction l generalizing s with
  | nil => exact h
  | cons a l ih => exact ih (hf s a h)

theorem foldlSnd {α β : Type} {f : β × State → α → β × State} {l : List α} {p : β × State} (h : SameScope s0 p.2)
    (hf : ∀ p x, SameScope s0 p.2 → SameScope s0 (f p x).2) : SameScope s0 (l.foldl f p).2 := by
  induction l generalizing p with
  | nil => exact h
  | cons a l ih => exact ih (hf p a h)

theorem ite {p : Prop} [Decidable p] {a b : State} (ha : p → SameScope s0 a) (hb : ¬p → SameScope s0 b) :
    SameScope s0 (if p then a else b) := by
  split
  · exact ha ‹_›
  · exact hb ‹_›

/-- The state of a pair that a match took apart. -/
theorem ofPair {α : Type} {a : α} {p : α × State} (e : p = (a, t)) (h : SameScope s0 p.2) : SameScope s0 t := by
  rw [e] at h
  exact h

end SameScope

/-! ### The fields -/

theorem sameScope_modGalley {g : Nat} {f : GalleySt → GalleySt} (h : SameScope s0 s) : SameScope s0 (s.modGalley g f) := h.of_eq rfl rfl

theorem sameScope_setGalley {g : Nat} {y : GalleySt} (h : SameScope s0 s) : SameScope s0 (s.setGalley g y) := h.of_eq rfl rfl

theorem sameScope_modPlaten {f : Nat} {g : PlatenSt → PlatenSt} (h : SameScope s0 s) : SameScope s0 (s.modPlaten f g) := h.of_eq rfl rfl

theorem sameScope_count {i j n : Nat} (h : SameScope s0 s) : SameScope s0 (s.count i j n) := h.of_eq rfl rfl

theorem sameScope_modStack {f : Nat} {g : StackSt → StackSt} (h : SameScope s0 s) : SameScope s0 (s.modStack f g) := h.of_eq rfl rfl

theorem sameScope_modQueue {q : Nat} {f : QueueSt → QueueSt} (h : SameScope s0 s) : SameScope s0 (s.modQueue q f) := h.of_eq rfl rfl

theorem sameScope_finish {q no status detail : Nat} (h : SameScope s0 s) : SameScope s0 (s.finish q no status detail) := h.of_eq rfl rfl

theorem sameScope_modStep {k : Nat} {f : StepRec → StepRec} (h : SameScope s0 s) : SameScope s0 (s.modStep k f) := h.of_eq rfl rfl

theorem sameScope_cmdBytes {q no : Nat} {a : Account} (h : SameScope s0 s) : SameScope s0 (s.cmdBytes q no a) := h.of_eq rfl rfl

theorem sameScope_modCtx {c : Nat} {f : CtxSt → CtxSt} (h : SameScope s0 s) : SameScope s0 (s.modCtx c f) :=
  ⟨fun hnil => h.ctxs (List.map_eq_nil_iff.1 hnil), h.staging, h.reset⟩

/-- A change of a function's other fields. -/
theorem sameScope_modInst {i : Nat} {f : InstSt → InstSt} (h : SameScope s0 s) (hs : ∀ x, (f x).staging = x.staging)
    (hr : ∀ x, (f x).reset = x.reset) : SameScope s0 (s.modInst i f) := by
  refine ⟨h.ctxs, fun j => ?_, fun j => ?_⟩
  · by_cases hj : j = i
    · rw [hj, inst_modInst_same, hs]
      exact h.staging i
    · rw [inst_modInst_ne _ _ hj]
      exact h.staging j
  · by_cases hj : j = i
    · rw [hj, inst_modInst_same, hr]
      exact h.reset i
    · rw [inst_modInst_ne _ _ hj]
      exact h.reset j

theorem sameScope_modFn {i : Nat} {f : FnRegs → FnRegs} (h : SameScope s0 s) : SameScope s0 (s.modFn i f) :=
  sameScope_modInst h (fun _ => rfl) (fun _ => rfl)

theorem sameScope_account {c : Option Nat} {i : Nat} {a : Account} (h : SameScope s0 s) : SameScope s0 (s.account c i a) := by
  unfold State.account
  split
  · exact sameScope_modInst (sameScope_modCtx h) (fun _ => rfl) (fun _ => rfl)
  · exact sameScope_modInst h (fun _ => rfl) (fun _ => rfl)

theorem sameScope_chargeTo {f : Nat} {c : Option Nat} {i n : Nat} (h : SameScope s0 s) : SameScope s0 (s.chargeTo f c i n) :=
  sameScope_account (sameScope_modPlaten (sameScope_modStack (sameScope_count h)))

theorem sameScope_raise {fn vec : Nat} (h : SameScope s0 s) : SameScope s0 (s.raise fn vec) := by
  unfold State.raise
  refine .ite (fun _ => h) fun _ => .ite (fun _ => h) fun _ => .ite (fun _ => ?_) fun _ => h.of_eq rfl rfl
  exact sameScope_modInst h (fun _ => rfl) (fun _ => rfl)

/-! ### Memory -/

theorem sameScope_memNews {f : Nat} {e : MemEvent} (h : SameScope s0 s) : SameScope s0 (s.memNews f e) := h.of_eq rfl rfl

theorem sameScope_decodeGroup {g : Nat} (h : SameScope s0 s) : SameScope s0 (s.decodeGroup g) := by
  unfold State.decodeGroup
  extract_lets f
  split
  · exact h
  · split <;> exact h.of_eq rfl rfl

theorem sameScope_noteDirty {a n : Nat} (h : SameScope s0 s) : SameScope s0 (s.noteDirty a n) := by
  unfold State.noteDirty
  exact .ite (fun _ => h) fun _ => h.of_eq rfl rfl

theorem sameScope_heal {a n : Nat} (h : SameScope s0 s) : SameScope s0 (s.heal a n) := by
  unfold State.heal
  exact .ite (fun _ => h) fun _ => h.of_eq rfl rfl

theorem sameScope_devWrite {a : Nat} {l : List Byte} {keep : Bool} (h : SameScope s0 s) : SameScope s0 (s.devWrite a l keep) := by
  unfold State.devWrite
  extract_lets n f whole ends s1 bad s2 mem s3 s4 s5
  have h2 : SameScope s0 s2 := sameScope_modStack (h.foldl fun _ _ => sameScope_decodeGroup)
  have h3 : SameScope s0 s3 := sameScope_heal (h2.of_eq rfl rfl)
  have h5 : SameScope s0 s5 := sameScope_modStack (sameScope_noteDirty (h3.foldl fun _ _ => sameScope_memNews))
  exact .ite (fun _ => h) fun _ => .ite (fun _ => h5) fun _ => sameScope_modPlaten h5

theorem sameScope_hostWrite {a : Nat} {l : List Byte} (h : SameScope s0 s) : SameScope s0 (s.hostWrite a l) := by
  unfold State.hostWrite
  exact .ite (fun _ => h.of_eq rfl rfl) fun _ => h.of_eq rfl rfl

theorem sameScope_kernelWrite {i a : Nat} {l : List Byte} (h : SameScope s0 s) : SameScope s0 (s.kernelWrite i a l).2 := by
  grind [State.kernelWrite, State.charge, sameScope_chargeTo, sameScope_devWrite, sameScope_account, sameScope_hostWrite]

theorem sameScope_ctxReadPiece {c : Nat} {x : CtxSt} {va n : Nat} (h : SameScope s0 s) : SameScope s0 (s.ctxReadPiece c x va n).2 := by
  have hdecode {a n : Nat} : SameScope s0 (s.decodeRange a n) := h.foldl fun _ _ => sameScope_decodeGroup
  unfold State.ctxReadPiece State.chargeHost
  grind [sameScope_chargeTo, sameScope_account]

theorem sameScope_ctxRead {c va n : Nat} (h : SameScope s0 s) : SameScope s0 (s.ctxRead c va n).2 := by
  unfold State.ctxRead
  split
  · exact h
  · exact .foldlSnd h fun p i hp => by grind [sameScope_ctxReadPiece]

theorem sameScope_ctxWritePiece {c : Nat} {x : CtxSt} {va : Nat} {l : List Byte} (h : SameScope s0 s) :
    SameScope s0 (s.ctxWritePiece c x va l).2 := by
  unfold State.ctxWritePiece State.chargeHost
  grind [sameScope_chargeTo, sameScope_account, sameScope_hostWrite, sameScope_devWrite]

theorem sameScope_ctxWrite {c va : Nat} {l : List Byte} (h : SameScope s0 s) : SameScope s0 (s.ctxWrite c va l).2 := by
  unfold State.ctxWrite
  split
  · exact h
  · exact .foldlSnd h fun p i hp => by grind [sameScope_ctxWritePiece]

/-! ### Records -/

theorem sameScope_deliver {fn : Nat} {r : FaultRec} {coarse : Bool} (h : SameScope s0 s) : SameScope s0 (s.deliver fn r coarse) := by
  unfold State.deliver
  extract_lets x s1
  have h1 : SameScope s0 s1 := sameScope_kernelWrite h
  exact .ite (fun _ => h) fun _ => .ite (fun _ => sameScope_modFn h) fun _ => sameScope_raise (sameScope_modFn h1)

theorem sameScope_record {r : FaultRec} {also : List Nat} (h : SameScope s0 s) : SameScope s0 (s.record r also) := by
  unfold State.record
  extract_lets r m m2 s1 s2
  have h1 : SameScope s0 s1 := sameScope_deliver (h.of_eq rfl rfl)
  have h2 : SameScope s0 s2 := by grind [sameScope_deliver]
  exact h2.foldl fun _ _ => sameScope_deliver

theorem sameScope_sendDatagram {n k : Nat} {l : List Byte} (h : SameScope s0 s) : SameScope s0 (s.sendDatagram n k l) := by
  unfold State.sendDatagram
  exact .ite (fun _ => h.of_eq rfl rfl) fun _ => h

theorem sameScope_sendRecord {n : Nat} {l : List Byte} (h : SameScope s0 s) : SameScope s0 (s.sendRecord n l) := by
  unfold State.sendRecord
  split
  · exact h
  · exact sameScope_sendDatagram (h.of_eq rfl rfl)

theorem sameScope_notify {k : Nat} {l : List Byte} (h : SameScope s0 s) : SameScope s0 (s.notify k l) :=
  h.foldl fun _ _ ht => .ite (fun _ => sameScope_sendRecord ht) fun _ => ht

theorem sameScope_raiseAlert {bits : Nat} (h : SameScope s0 s) : SameScope s0 (s.raiseAlert bits) := by
  unfold State.raiseAlert
  exact .ite (fun _ => h) fun _ => sameScope_notify (h.of_eq rfl rfl)

theorem sameScope_fault {r : FaultRec} {also : List Nat} (h : SameScope s0 s) : SameScope s0 (s.fault r also) := by
  unfold State.fault
  have h1 := sameScope_raiseAlert (bits := (if r.code = 0xD002 ∨ r.code = 0xD003 then 1 else if r.code = 0xC003 then 2
    else if r.code = 0x5009 then 4 else if r.code = 0x8006 then 8 else if r.code = 0xD005 then 16 else 0))
    (sameScope_record (r := r) (also := also) h)
  exact .ite (fun _ => sameScope_notify h1) fun _ => h1

/-! ### Memory events -/

theorem sameScope_nextRetire {f : Nat} (h : SameScope s0 s) : SameScope s0 (s.nextRetire f) := by
  grind [State.nextRetire, sameScope_modStack, sameScope_fault]

theorem sameScope_retireFrame {f fr : Nat} (h : SameScope s0 s) : SameScope s0 (s.retireFrame f fr) := by
  grind [State.retireFrame, sameScope_modStack, sameScope_nextRetire]

theorem sameScope_laneHit {f key sym fr : Nat} (h : SameScope s0 s) : SameScope s0 (s.laneHit f key sym fr) := by
  grind [State.laneHit, sameScope_modStack, sameScope_count, sameScope_fault]

theorem sameScope_memReport {f : Nat} {e : MemEvent} (h : SameScope s0 s) : SameScope s0 (s.memReport f e) := by
  grind [State.memReport, sameScope_count, sameScope_fault, sameScope_retireFrame, sameScope_laneHit, sameScope_modStack,
    SameScope.foldl]

theorem sameScope_reportMem (h : SameScope s0 s) : SameScope s0 s.reportMem :=
  h.foldl fun _ _ ht => .ite (fun _ => ht) fun _ => (sameScope_modStack ht).foldl fun _ _ => sameScope_memReport

/-! ### Contexts that are lost -/

theorem sameScope_endStep {k : Nat} {cut : Bool} (h : SameScope s0 s) : SameScope s0 (s.endStep k cut) := by
  unfold State.endStep
  split
  · exact h
  · extract_lets drafted s1 serve s2 s3 s4
    have h3 : SameScope s0 s3 := (h.of_eq (t := s2) rfl rfl).foldl fun _ _ => sameScope_modGalley
    have h4 : SameScope s0 s4 := sameScope_modCtx h3
    exact h4.of_eq rfl rfl

theorem sameScope_breakLost {c : Nat} (h : SameScope s0 s) : SameScope s0 (s.breakLost c) :=
  h.foldl fun _ _ ht => .ite (fun _ => sameScope_record (ht.of_eq rfl rfl)) fun _ => ht

theorem sameScope_loseContext {c : Nat} {r : FaultRec} {by_ : Option (Nat × Nat)} (h : SameScope s0 s) :
    SameScope s0 (s.loseContext c r by_) := by
  unfold State.loseContext
  split
  · exact h
  · refine .ite (fun _ => h) fun _ => ?_
    extract_lets s1 s2 s3 s4 s5
    have h2 : SameScope s0 s2 := by
      have h1 : SameScope s0 s1 := sameScope_record h
      unfold s2
      split
      · exact sameScope_finish h1
      · exact h1
    have h3 : SameScope s0 s3 := h2.foldl fun _ _ => sameScope_endStep
    have h5 : SameScope s0 s5 := sameScope_modCtx (h3.of_eq (t := s4) rfl rfl)
    exact sameScope_breakLost (h5.of_eq rfl rfl)

theorem sameScope_accFault {c : Nat} {e : AccErr} {by_ : Option (Nat × Nat)} (h : SameScope s0 s) : SameScope s0 (s.accFault c e by_) := by
  unfold State.accFault
  split
  · exact sameScope_loseContext h
  · exact h

/-! ### Completion entries -/

theorem sameScope_wake {w : Option (Bool × Nat)} (h : SameScope s0 s) : SameScope s0 (s.wake w) := by
  unfold State.wake
  split
  · exact h
  · exact h.of_eq rfl rfl

theorem sameScope_signal {id : Nat} (h : SameScope s0 s) : SameScope s0 (s.signal id) := by
  unfold State.signal
  split
  · exact h
  · next f hf =>
    extract_lets n s1 s2 s3
    have h1 : SameScope s0 s1 := h.of_eq rfl rfl
    have h2 : SameScope s0 s2 := by
      refine .ite (fun _ => h1) fun _ => ?_
      have hw := sameScope_ctxWrite (c := f.ctx) (va := f.counterVA) (l := toLE 8 n) h1
      split
      next e => exact sameScope_accFault (.ofPair e hw)
      next e => exact sameScope_wake (.ofPair e hw)
    exact sameScope_raise (h2.of_eq rfl rfl)

theorem sameScope_writeEntry {q : Nat} {x : QueueSt} {c : Cmd} {status detail : Nat} (h : SameScope s0 s) :
    SameScope s0 (s.writeEntry q x c status detail) := by
  grind [State.writeEntry, sameScope_kernelWrite, sameScope_wake, sameScope_ctxWrite, sameScope_accFault, sameScope_signal,
    sameScope_raise, sameScope_modQueue]

theorem sameScope_drain {q n : Nat} (h : SameScope s0 s) : SameScope s0 (State.drain q n s) := by
  induction n generalizing s with
  | zero => exact h
  | succ n ih =>
    unfold State.drain
    grind [sameScope_writeEntry]

theorem sameScope_noteBatch {c : Cmd} {status : Nat} (h : SameScope s0 s) : SameScope s0 (s.noteBatch c status) := by
  unfold State.noteBatch
  split
  · exact h.of_eq rfl rfl
  · exact h

theorem sameScope_noteBatches {l : List Cmd} {q : Nat} (h : SameScope s0 s) : SameScope s0 (State.noteBatches l q s) :=
  h.foldl fun _ c ht => by
    split
    · exact sameScope_noteBatch ht
    · exact ht

theorem sameScope_flushEnd {q : Nat} (h : SameScope s0 s) : SameScope s0 (s.flushEnd q) := by
  have hfields (t : State) (l : Tab QueueSt) (ht : SameScope s0 t) : SameScope s0 { t with queues := l } := ht.of_eq rfl rfl
  unfold State.flushEnd
  split <;> grind [sameScope_finish, sameScope_modQueue, sameScope_modFn, SameScope.foldl]

theorem sameScope_pumpPass (h : SameScope s0 s) : SameScope s0 s.pumpPass :=
  h.foldl fun _ _ ht => sameScope_flushEnd (sameScope_noteBatches (sameScope_drain ht))

theorem sameScope_pump (h : SameScope s0 s) : SameScope s0 s.pump := h.foldl fun _ _ => sameScope_pumpPass

/-! ### The scheduler -/

theorem sameScope_writeRecord {c : Nat} (h : SameScope s0 s) : SameScope s0 (s.writeRecord c) := by
  unfold State.writeRecord
  split
  · exact h
  · exact .ite (fun _ => sameScope_devWrite h) fun _ => h

theorem sameScope_evictCtx {c : Nat} (h : SameScope s0 s) : SameScope s0 (s.evictCtx c) := sameScope_writeRecord (sameScope_modCtx h)

theorem sameScope_loadCtx {c : Nat} (h : SameScope s0 s) : ∀ t, s.loadCtx c = some t → SameScope s0 t := by
  have hused (t : State) (n : Nat) (ht : SameScope s0 t) : SameScope s0 { t with useCount := n } := ht.of_eq rfl rfl
  unfold State.loadCtx
  (repeat' split) <;> grind [sameScope_modCtx, sameScope_writeRecord, sameScope_evictCtx]

theorem sameScope_restoreGalley {p : StepRec} {frame g : Nat} {y : GalleySt} (h : SameScope s0 s) :
    SameScope s0 (s.restoreGalley p frame g y).2 := by
  fun_cases State.restoreGalley s p frame g y
  all_goals
    rename State → Nat → Nat → Except AccErr (List Byte) × State => rd
    have hrd : ∀ {t a n}, SameScope s0 t → SameScope s0 (rd t a n).2 := fun ht => sameScope_ctxRead ht
    clear_value rd
    rename (rd s 0 96 = _) => e1
    have h1 := SameScope.ofPair e1 (hrd h)
    clear e1
  case case1 | case2 => exact h1
  case case3 | case4 =>
    rename (rd _ 40960 _ = _) => e2
    have h2 := SameScope.ofPair e2 (hrd h1)
    rename Except AccErr GalleySt × State => r
    have hr : SameScope s0 r.2 := .foldlSnd h2 fun p q hp => by grind [SameScope.ofPair]
    rename (r = _) => e3
    exact .ofPair e3 hr
  case case5 =>
    rename (rd _ 2560 _ = _) => e2
    exact .ofPair e2 (hrd h1)
  case case6 =>
    rename (rd _ 4096 _ = _) => e2
    exact .ofPair e2 (hrd h1)
  case case7 =>
    rename (rd _ 8192 _ = _) => e2
    exact .ofPair e2 (hrd h1)
  case case8 =>
    rename (rd _ 40960 _ = _) => e2
    exact .ofPair e2 (hrd h1)

theorem sameScope_rewriteMailbox {g q no : Nat} (h : SameScope s0 s) : SameScope s0 (s.rewriteMailbox g q no) := by
  grind [State.rewriteMailbox, State.writeVerdict, State.openMailbox, sameScope_modGalley]

theorem sameScope_noteModel {p : StepRec} (h : SameScope s0 s) : SameScope s0 (s.noteModel p) := by
  unfold State.noteModel
  extract_lets d
  split
  · exact h.of_eq rfl rfl
  · have h1 (r : Tab Nat) (w : Tab (Nat × Nat × List Nat)) : SameScope s0 { s with resident := r, switching := w } := h.of_eq rfl rfl
    exact .ite (fun _ => h) fun _ => sameScope_account (h1 _ _)

theorem sameScope_startStep {k : Nat} {p : StepRec} (h : SameScope s0 s) : SameScope s0 (s.startStep k p) := by
  unfold State.startStep
  extract_lets resumed s1 s2 r s3 s4 s5 s6 g r2
  have h1 : SameScope s0 s1 := sameScope_noteModel h
  have hr : SameScope s0 r.2 := by
    unfold r
    split
    · exact .foldlSnd h1 fun q g hq => by grind [sameScope_restoreGalley, sameScope_setGalley]
    · exact h1
  clear_value r
  have h3 : SameScope s0 s3 := hr.of_eq rfl rfl
  clear_value s3
  split
  · have h4 : SameScope s0 s4 := h3.foldl fun _ _ => sameScope_modGalley
    have h5 : SameScope s0 s5 := .ite (fun _ => h4.foldl fun _ _ ht => .ite (fun _ => sameScope_rewriteMailbox ht) fun _ => ht) fun _ => h4
    exact sameScope_modStep (sameScope_modCtx h5)
  · exact sameScope_loseContext h3
  · exact sameScope_accFault h3

theorem sameScope_askStop {k : Nat} (h : SameScope s0 s) : SameScope s0 (s.askStop k) := by
  grind [State.askStop, sameScope_modGalley, sameScope_modStep, SameScope.foldl]

theorem sameScope_tryGrant {k : Nat} (h : SameScope s0 s) : SameScope s0 (s.tryGrant k) := by
  grind [State.tryGrant, sameScope_loadCtx, sameScope_startStep, sameScope_askStop, SameScope.foldl]

theorem sameScope_schedule (h : SameScope s0 s) : SameScope s0 s.schedule := h.foldl fun _ _ => sameScope_tryGrant

theorem sameScope_settle (h : SameScope s0 s) : SameScope s0 s.settle :=
  sameScope_pump (sameScope_schedule (sameScope_pump (sameScope_reportMem h)))

end Sys2Proof.Laws

end

section
/-! PROOFS. What can write device memory while a state settles: a block without contexts, whose only staging range belongs to a
function in reset, writes it with its fault records alone (12_host_port.md R421, R433, 14_recovery.md R465). -/

namespace Sys2Proof.Machine

/-- The code of the last fault record. -/
def State.lastCode (s : State) : Option Nat := s.fm.records.getLast?.map (·.code)

end Sys2Proof.Machine

namespace Sys2Proof.Laws
open Sys2Proof Sys2Proof.Machine

variable {s s1 t : State}

/-! ### The fault manager's log -/

theorem foldl_fm {α : Type} {f : State → α → State} (hf : ∀ t x, (f t x).fm = t.fm) (l : List α) (s : State) : (l.foldl f s).fm = s.fm := by
  induction l generalizing s with
  | nil => rfl
  | cons a l ih => exact (ih _).trans (hf s a)

theorem decodeGroup_fm (s : State) (g : Nat) : (s.decodeGroup g).fm = s.fm := by
  unfold State.decodeGroup
  extract_lets f
  split
  · rfl
  · split <;> rfl

theorem heal_fm (s : State) (a n : Nat) : (s.heal a n).fm = s.fm := by
  unfold State.heal
  extract_lets lo hi
  split <;> rfl

theorem noteDirty_fm (s : State) (a n : Nat) : (s.noteDirty a n).fm = s.fm := by
  unfold State.noteDirty
  extract_lets pages hit
  split <;> rfl

theorem memNews_fm (s : State) (f : Nat) (e : MemEvent) : (s.memNews f e).fm = s.fm := rfl

theorem account_fm (s : State) (i : Nat) (a : Account) : (s.account none i a).fm = s.fm := rfl

theorem charge_fm (s : State) (f i n : Nat) : (s.charge f i n).fm = s.fm := rfl

theorem hostWrite_fm (s : State) (a : Nat) (l : List Byte) : (s.hostWrite a l).fm = s.fm := by
  unfold State.hostWrite
  split <;> rfl

theorem devWrite_fm (s : State) (a : Nat) (l : List Byte) (keep : Bool) : (s.devWrite a l keep).fm = s.fm := by
  unfold State.devWrite
  extract_lets n f whole ends s1 bad s2 mem s3 s4 s5
  have h1 : s1.fm = s.fm := foldl_fm decodeGroup_fm _ _
  have h3 : s3.fm = s1.fm := heal_fm _ _ _
  have h4 : s4.fm = s3.fm := (noteDirty_fm _ _ _).trans (foldl_fm (fun t _ => memNews_fm t _ _) _ _)
  have h5 : s5.fm = s.fm := h4.trans (h3.trans h1)
  split
  · rfl
  · split <;> exact h5

theorem kernelWrite_fm (s : State) (i a : Nat) (l : List Byte) : (s.kernelWrite i a l).2.fm = s.fm := by
  unfold State.kernelWrite
  split
  · split
    · exact (charge_fm ..).trans (devWrite_fm ..)
    · rfl
  · exact (account_fm ..).trans (hostWrite_fm ..)

theorem raise_fm (s : State) (fn vec : Nat) : (s.raise fn vec).fm = s.fm := by
  unfold State.raise
  extract_lets m
  (repeat' split) <;> rfl

theorem deliver_fm (s : State) (fn : Nat) (r : FaultRec) (coarse : Bool) : (s.deliver fn r coarse).fm = s.fm := by
  unfold State.deliver
  extract_lets x s1
  have h1 : s1.fm = s.fm := kernelWrite_fm ..
  split
  · rfl
  · split
    · rfl
    · exact (raise_fm _ _ _).trans h1

theorem sendDatagram_fm (s : State) (n k : Nat) (l : List Byte) : (s.sendDatagram n k l).fm = s.fm := by
  unfold State.sendDatagram
  split <;> rfl

theorem sendRecord_fm (s : State) (n : Nat) (l : List Byte) : (s.sendRecord n l).fm = s.fm := by
  unfold State.sendRecord
  split
  · rfl
  · exact sendDatagram_fm ..

theorem notify_fm (s : State) (k : Nat) (l : List Byte) : (s.notify k l).fm = s.fm := by
  refine foldl_fm (fun t p => ?_) _ _
  split
  · exact sendRecord_fm ..
  · rfl

theorem raiseAlert_fm (s : State) (bits : Nat) : (s.raiseAlert bits).fm = s.fm := by
  unfold State.raiseAlert
  extract_lets new
  split
  · rfl
  · exact notify_fm ..

/-- A record that is written is the last one. -/
theorem record_lastCode (s : State) (r : FaultRec) (also : List Nat) : (s.record r also).lastCode = some r.code := by
  unfold State.lastCode State.record
  extract_lets r m m2 s1 s2
  have h1 : s1.fm = m2 := deliver_fm ..
  have h2 : s2.fm = m2 := by
    unfold s2
    split
    · split
      · exact h1
      · exact (deliver_fm ..).trans h1
    · exact h1
  rw [foldl_fm (fun _ _ => deliver_fm ..), h2]
  have hlast : ((m.records ++ [r]).drop (m.records.length + 1 - 4096)).getLast? = some r := by
    rw [List.getLast?_drop, List.length_append, List.length_singleton, if_neg (by omega), List.getLast?_concat]
  rw [hlast]
  rfl

theorem fault_lastCode (s : State) (r : FaultRec) (also : List Nat) : (s.fault r also).lastCode = some r.code := by
  have hrecord := record_lastCode s r also
  unfold State.lastCode at hrecord ⊢
  unfold State.fault
  extract_lets no s1 cls bits s2
  have h2 : s2.fm = s1.fm := raiseAlert_fm ..
  split
  · rwa [notify_fm, h2]
  · rwa [h2]

end Sys2Proof.Laws

end

section
/-! PROOFS. A frame's retirement may write device memory with its own record: the record of the Exclusive profile's fault ring
(12_host_port.md R433, 08_memory.md R287). -/

namespace Sys2Proof.Laws
open Sys2Proof Sys2Proof.Machine

/-- No context exists, and no completion entry reaches device memory: only function 0 has a staging range, and its reset writes
nothing more. -/
structure Shut (s : State) : Prop where
  ctxs : s.ctxs = []
  staging : ∀ i, i ≠ 0 → (s.inst i).staging = none
  reset : ((s.inst 0).reset.map (fun r => !r.writes)) = some true

/-- A shut state whose last fault record is of a retired frame. -/
structure Sealed (s : State) : Prop extends Shut s where
  last : s.lastCode = some 0x5005

/-- From s to t the scope stays; and where t is sealed, nothing was written to device memory and nothing recorded. -/
structure Onward (s t : State) : Prop where
  scope : SameScope s t
  quiet : Sealed t → t.mem = s.mem ∧ t.fm = s.fm

variable {s s1 t u : State}

theorem SameScope.shut (h : SameScope s t) (ht : Shut t) : Shut s :=
  ⟨h.ctxs ht.ctxs, fun i hi => (h.staging i).symm.trans (ht.staging i hi), by rw [← h.reset 0]; exact ht.reset⟩

namespace Onward

theorem refl (s : State) : Onward s s := ⟨.refl s, fun _ => ⟨rfl, rfl⟩⟩

/-- A step that writes no device memory and records nothing. -/
theorem of_same (h : SameScope s t) (hm : t.mem = s.mem) (hf : t.fm = s.fm) : Onward s t := ⟨h, fun _ => ⟨hm, hf⟩⟩

theorem trans (h : Onward s t) (k : Onward t u) : Onward s u := by
  refine ⟨?_, fun hu => ?_⟩
  · exact ⟨fun hnil => h.scope.ctxs (k.scope.ctxs hnil), fun i => (k.scope.staging i).trans (h.scope.staging i),
      fun i => (k.scope.reset i).trans (h.scope.reset i)⟩
  · obtain ⟨kmem, kfm⟩ := k.quiet hu
    have hlast : t.lastCode = some 0x5005 := by rw [State.lastCode, ← kfm]; exact hu.last
    obtain ⟨hmem, hfm⟩ := h.quiet ⟨k.scope.shut hu.toShut, hlast⟩
    exact ⟨kmem.trans hmem, kfm.trans hfm⟩

theorem foldl {α : Type} {f : State → α → State} (hf : ∀ t x, Onward t (f t x)) (l : List α) (s : State) : Onward s (l.foldl f s) := by
  induction l generalizing s with
  | nil => exact .refl s
  | cons a l ih => exact (hf s a).trans (ih _)

theorem ite {p : Prop} [Decidable p] {a b : State} (ha : p → Onward s a) (hb : ¬p → Onward s b) : Onward s (if p then a else b) := by
  split
  · exact ha ‹_›
  · exact hb ‹_›

end Onward

/-! ### Records -/

/-- A fault with another code is then the last record. -/
theorem onward_fault {r : FaultRec} (s : State) (also : List Nat) (h : r.code ≠ 0x5005) : Onward s (s.fault r also) := by
  refine ⟨sameScope_fault (.refl s), fun hsealed => absurd hsealed.last ?_⟩
  rw [fault_lastCode]
  exact fun heq => h (Option.some.inj heq)

theorem onward_modStack (s : State) (f : Nat) (g : StackSt → StackSt) : Onward s (s.modStack f g) :=
  .of_same (sameScope_modStack (.refl s)) rfl rfl

theorem onward_count (s : State) (i j n : Nat) : Onward s (s.count i j n) := .of_same (sameScope_count (.refl s)) rfl rfl

theorem onward_nextRetire (s : State) (f : Nat) : Onward s (s.nextRetire f) := by
  unfold State.nextRetire
  extract_lets x
  split
  · next fr rest _ _ =>
    refine .ite (fun _ => onward_modStack ..) fun _ => ?_
    extract_lets r s1 s2
    have h1 : Onward s s1 := onward_modStack ..
    have h2 : Onward s1 s2 := .ite (fun _ => onward_fault _ _ (by decide : (0x5008 : Nat) ≠ 0x5005)) fun _ => .refl _
    exact h1.trans (h2.trans (.ite (fun _ => onward_fault _ _ (by decide : (0x5009 : Nat) ≠ 0x5005)) fun _ => .refl _))
  · exact .refl s

theorem onward_retireFrame (s : State) (f fr : Nat) : Onward s (s.retireFrame f fr) := by
  unfold State.retireFrame
  extract_lets x
  exact .ite (fun _ => .refl s) fun _ => (onward_modStack ..).trans (onward_nextRetire ..)

theorem onward_laneHit (s : State) (f key sym fr : Nat) : Onward s (s.laneHit f key sym fr) := by
  unfold State.laneHit
  extract_lets x cur old fs rest s1
  refine .ite (fun _ => ?_) fun _ => onward_modStack ..
  have h1 : Onward s s1 := onward_modStack ..
  exact h1.trans ((onward_count ..).trans (onward_fault _ _ (by decide : (0x5006 : Nat) ≠ 0x5005)))

theorem onward_memReport (s : State) (f : Nat) (e : MemEvent) : Onward s (s.memReport f e) := by
  unfold State.memReport
  extract_lets a frame mk s1 s2 key known new s3 s4 n
  have hlost (t : State) : Onward t (t.fault (mk 0x5004) []) := onward_fault _ _ (by decide : (0x5004 : Nat) ≠ 0x5005)
  refine .ite (fun _ => (onward_count ..).trans (.ite (fun _ => hlost _) fun _ => (hlost _).trans (onward_retireFrame ..))) fun _ => ?_
  have h2 : Onward s s2 := (onward_count ..).trans (onward_fault _ _ (by decide : (0x5003 : Nat) ≠ 0x5005))
  have h3 : Onward s s3 := h2.trans (.foldl (fun t p => onward_laneHit t f key p frame) new s2)
  have h4 : Onward s s4 := h3.trans (onward_modStack ..)
  exact .ite (fun _ => h3) fun _ => .ite (fun _ => h4.trans (onward_retireFrame ..)) fun _ => h4

theorem onward_reportMem (s : State) : Onward s s.reportMem :=
  .foldl (fun t f => .ite (fun _ => .refl t) fun _ => (onward_modStack ..).trans (.foldl (fun u e => onward_memReport u f e) _ _)) _ _

/-! ### Completion entries of a shut state -/

theorem ctxWrite_noCtx (h : s.ctxs = []) (c va : Nat) (l : List Byte) :
    s.ctxWrite c va l = (some (.fault 0x2001 va (Config.accessKind true)), s) := by
  have hnone : tget s.ctxs c = none := by rw [h]; rfl
  rw [State.ctxWrite, hnone]

theorem accFault_noCtx (h : s.ctxs = []) (c : Nat) (e : AccErr) (by_ : Option (Nat × Nat)) : s.accFault c e by_ = s := by
  have hnone : tget s.ctxs c = none := by rw [h]; rfl
  unfold State.accFault
  split
  · rw [State.loseContext, hnone]
  · rfl

/-- From s to t neither device memory nor a context nor the fault manager's log changes. -/
structure Still (s t : State) : Prop where
  mem : t.mem = s.mem
  fm : t.fm = s.fm
  ctxs : t.ctxs = s.ctxs

theorem Still.refl (s : State) : Still s s := ⟨rfl, rfl, rfl⟩

theorem Still.trans (h : Still s t) (k : Still t u) : Still s u := ⟨k.mem.trans h.mem, k.fm.trans h.fm, k.ctxs.trans h.ctxs⟩

theorem still_raise (s : State) (fn vec : Nat) : Still s (s.raise fn vec) := by
  unfold State.raise
  extract_lets m
  (repeat' split) <;> exact ⟨rfl, rfl, rfl⟩

theorem still_wake (s : State) (w : Option (Bool × Nat)) : Still s (s.wake w) := by
  unfold State.wake
  split <;> exact ⟨rfl, rfl, rfl⟩

theorem still_hostWrite (s : State) (a : Nat) (l : List Byte) : Still s (s.hostWrite a l) := by
  unfold State.hostWrite
  split <;> exact ⟨rfl, rfl, rfl⟩

/-- A function without a staging range writes no device memory. -/
theorem still_kernelWrite {i : Nat} (h : (s.inst i).staging = none) (a : Nat) (l : List Byte) : Still s (s.kernelWrite i a l).2 := by
  unfold State.kernelWrite State.stagingAddr
  split
  · rw [h]
    exact .refl s
  · have hacct (t : State) (x : Account) : Still t (t.account none i x) := ⟨rfl, rfl, rfl⟩
    exact (still_hostWrite s a l).trans (hacct _ _)

theorem still_signal (h : s.ctxs = []) (id : Nat) : Still s (s.signal id) := by
  unfold State.signal
  split
  · exact .refl s
  · next f hf =>
    extract_lets n s1 s2 s3
    have h1 : Still s s1 := ⟨rfl, rfl, rfl⟩
    have h2 : s2 = s1 := by
      unfold s2
      rw [ctxWrite_noCtx (s := s1) h]
      split
      · rfl
      · exact accFault_noCtx (s := s1) h _ _ _
    have h3 : Still s2 s3 := ⟨rfl, rfl, rfl⟩
    exact h1.trans ((h2 ▸ h3 : Still s1 s3).trans (still_raise ..))

/-- A completion entry that is not held reaches no device memory of a shut state. -/
theorem still_writeEntry {q : Nat} {x : QueueSt} {c : Cmd} {status detail : Nat} (h : Shut s)
    (hheld : s.entryHeld x c status detail = false) : Still s (s.writeEntry q x c status detail) := by
  have hother : x.inst ≠ 0 := by
    intro hzero
    rw [State.entryHeld, hzero, h.reset] at hheld
    simp at hheld
  unfold State.writeEntry
  extract_lets hide bytes va r s1 s2 s3
  have h1 : Still s s1 := by
    unfold s1
    split
    · exact .refl s
    · split
      · exact (still_kernelWrite (h.staging _ hother) va bytes).trans (still_wake ..)
      · rw [ctxWrite_noCtx h.ctxs]
        dsimp only
        rw [accFault_noCtx h.ctxs]
        exact .refl s
  have h2 : Still s s2 := by
    unfold s2
    split
    · exact h1.trans (still_signal (h1.ctxs.trans h.ctxs) _)
    · exact h1
  have h3 : Still s s3 := by
    unfold s3
    split
    · exact h2.trans (still_raise ..)
    · exact h2
  exact h3.trans ⟨rfl, rfl, rfl⟩

theorem onward_writeEntry {q : Nat} {x : QueueSt} {c : Cmd} {status detail : Nat} (hheld : s.entryHeld x c status detail = false) :
    Onward s (s.writeEntry q x c status detail) := by
  have hscope : SameScope s (s.writeEntry q x c status detail) := sameScope_writeEntry (.refl s)
  refine ⟨hscope, fun hsealed => ?_⟩
  obtain ⟨hmem, hfm, -⟩ := still_writeEntry (q := q) (hscope.shut hsealed.toShut) hheld
  exact ⟨hmem, hfm⟩

theorem onward_drain (q n : Nat) (s : State) : Onward s (State.drain q n s) := by
  induction n generalizing s with
  | zero => exact .refl s
  | succ n ih =>
    unfold State.drain
    split
    · exact .refl s
    · split
      · exact .refl s
      · split
        · refine .ite (fun _ => .refl s) fun hgo => (onward_writeEntry ?_).trans (ih _)
          rw [Bool.or_eq_true, not_or, Bool.not_eq_true] at hgo
          exact hgo.1
        · exact .refl s

theorem onward_noteBatches (l : List Cmd) (q : Nat) (s : State) : Onward s (State.noteBatches l q s) := by
  refine .foldl (fun t c => ?_) _ _
  split
  · refine .of_same (sameScope_noteBatch (.refl t)) ?_ ?_
    all_goals
      unfold State.noteBatch
      split <;> rfl
  · exact .refl t

theorem onward_finish (s : State) (q no status detail : Nat) : Onward s (s.finish q no status detail) :=
  .of_same (sameScope_finish (.refl s)) rfl rfl

theorem onward_flushEnd (s : State) (q : Nat) : Onward s (s.flushEnd q) := by
  unfold State.flushEnd
  split
  · exact .refl s
  · next x _ =>
    split
    · exact .refl s
    · next f _ =>
      extract_lets own s1 s2 s3 s4
      have h1 : Onward s s1 := by
        unfold s1
        split
        · exact .ite (fun _ => onward_finish ..) fun _ => .refl s
        · exact .refl s
      have h2 : Onward s s2 := h1.trans (.of_same (sameScope_modQueue (.refl s1)) rfl rfl)
      have h3 : Onward s s3 := h2.trans (.foldl (fun t _ => onward_finish t _ _ _ _) _ _)
      have h4 : Onward s s4 := h3.trans (.of_same (SameScope.of_eq (.refl s3) rfl rfl) rfl rfl)
      refine .ite (fun _ => .ite (fun _ => .ite (fun _ => ?_) fun _ => h4) fun _ => h3) fun _ => h1
      exact h4.trans (.of_same (sameScope_modFn (.refl s4)) rfl rfl)

theorem onward_pump (s : State) : Onward s s.pump :=
  .foldl (fun _ _ => .foldl (fun u (p : Nat × QueueSt) =>
    (onward_drain _ _ u).trans ((onward_noteBatches _ _ _).trans (onward_flushEnd _ p.1))) _ _) _ _

/-! ### The scheduler, and the whole -/

/-- A step whose context does not exist is not granted. -/
theorem tryGrant_noCtx (h : s.ctxs = []) (k : Nat) : s.tryGrant k = s := by
  have hload (c : Nat) : s.loadCtx c = none := by
    have hnone : tget s.ctxs c = none := by rw [h]; rfl
    rw [State.loadCtx, hnone]
  unfold State.tryGrant
  split
  · rfl
  · extract_lets bl
    rw [hload, ite_self, ite_self]

theorem onward_schedule (s : State) : Onward s s.schedule := by
  refine .foldl (fun t p => ?_) _ _
  have hscope : SameScope t (t.tryGrant p.1) := sameScope_tryGrant (.refl t)
  refine ⟨hscope, fun hsealed => ?_⟩
  rw [tryGrant_noCtx (hscope.ctxs hsealed.ctxs)]
  exact ⟨rfl, rfl⟩

theorem onward_settle (s : State) : Onward s s.settle :=
  (onward_reportMem s).trans ((onward_pump _).trans ((onward_schedule _).trans (onward_pump _)))

end Sys2Proof.Laws

namespace Sys2Proof.Machine

/-- A function in reset whose fault ring of 64 records is in its staging range. -/
def resettingInst : InstSt :=
  { InstSt.fresh with
    fn := { FnRegs.reset with fltEnable := true, fltLog2 := 6 }, staging := some (0, 4096), reset := some ⟨0, [], false, false⟩ }

/-- The Exclusive profile with function 0 in reset, and frame 0 of stack 0 about to be retired. -/
def retiringState : State :=
  State.modStack { State.reset with profile := 2, host := { State.reset.host with insts := [(0, resettingInst)] } } 0
    (fun x => { x with state := .inService, retiring := some ⟨0, 0, 0⟩ })

/-- What a command leaves; the reset state where it is refused. -/
def leaves (r : Res) : State :=
  match r with
  | .next t => t
  | _ => State.reset

/-- The retirement's record is in device memory, and nothing after it was recorded. -/
theorem retired_sealed : Laws.Sealed (leaves (exec (.frameRetireDone 0) retiringState)) := by
  have hinsts : (leaves (exec (.frameRetireDone 0) retiringState)).host.insts.map (·.1) = [0] := by
    decide +kernel
  refine ⟨⟨by decide +kernel, fun i hi => ?_, by decide +kernel⟩, by decide +kernel⟩
  have hnone : tget (leaves (exec (.frameRetireDone 0) retiringState)).host.insts i = none := by
    revert hinsts
    generalize (leaves (exec (.frameRetireDone 0) retiringState)).host.insts = l
    intro hl
    obtain ⟨p, rfl⟩ : ∃ p, l = [p] := by
      rw [← List.length_eq_one_iff, ← List.length_map (f := fun (p : Nat × InstSt) => p.1), hl]
      rfl
    have hp : p.1 = 0 := by simpa using hl
    simp [tget, hp, hi.symm]
  rw [State.inst, hnone]
  rfl

theorem retired_wrote : (leaves (exec (.frameRetireDone 0) retiringState)).mem ≠ [] := by
  decide +kernel

end Sys2Proof.Machine

open Sys2Proof Sys2Proof.Machine

/-- Refutes O27: in the Exclusive profile the record of a retired frame (code 0x5005) goes to function 0's fault ring, which is device
memory; no state with the memory from before the retirement settles into the one after it (`onward_settle`). -/
theorem not_stackCommands : ¬ Obligations.StackCommands := by
  rintro ⟨⟨-, hretire, -⟩, -⟩
  obtain ⟨u, hexec, -, -, hmem⟩ := hretire retiringState 0 ⟨0, 0, 0⟩ (by decide) (by decide) (by decide) (by decide)
  have hend : leaves (exec (.frameRetireDone 0) retiringState) = (u.nextRetire 0).settle := by rw [hexec]; rfl
  have honward : Laws.Onward u (u.nextRetire 0).settle := (Laws.onward_nextRetire u 0).trans (Laws.onward_settle _)
  rw [← hend] at honward
  refine retired_wrote ?_
  rw [(honward.quiet retired_sealed).1, hmem]
  rfl

end
